-- ==== Sys2Proof/Word.lean ====
section
/-! DEFINITION. The word types of the register bus, the memories and the links, and nothing else. -/

namespace Sys2Proof

/-- A 32-bit register or data word (R74). -/
abbrev Word := BitVec 32

/-- One byte. -/
abbrev Byte := BitVec 8

/-- A host or local address. -/
abbrev Addr := BitVec 64

end Sys2Proof
end

