-- ==== Sys2Proof/Syntax.lean ====
section
/-! DEFINITION. The commands of the block: one constructor of `Instr` for each row of spec/opcode_table.json, in the
table's order, and the data their operands carry. The table gives the rows no fields: each constructor names the
unit it acts on (tile `t`, host link `h`, LNK slot `n`, mailbox `m`, instance `i`, queue `q`) and what the world
outside brings (a TLP, a flit, a sample). A row that is a register write carries what the write holds. -/

namespace Sys2Proof

/-- Kinds of a host memory request (R90, R100, R234). -/
inductive MemKind where
  | read
  | write
  | lockedRead
  | fetchAdd
  | swap
  | cas
  deriving DecidableEq, Repr

/-- Why a request TLP ends at row 1 of R100: the base specification calls it malformed, or it fails ECRC or IDE. -/
inductive TlpFault where
  | malformed
  | ecrc
  | ide
  deriving DecidableEq, Repr

/-- A memory request TLP as it reaches the host port of link `link` (R100): DW address `addr`, `dws` DWs,
first and last DW byte enables, write or operand bytes, requester's tag, attributes, and what the receiver has found wrong with it
(row 1). -/
structure Tlp where
  link : Nat
  kind : MemKind
  addr : Addr
  dws : Nat
  fbe : BitVec 4
  lbe : BitVec 4
  data : List Byte
  tag : BitVec 14
  rid : BitVec 16
  rlx : Bool
  ns : Bool
  bad : Option TlpFault
  deriving DecidableEq, Repr

/-- A completion TLP from a host (R102): routing ID and tag of the request, PCIe status code (0 Successful,
1 Unsupported Request, 4 Completer Abort), data, poison. -/
structure Cpl where
  rid : BitVec 16
  tag : BitVec 14
  status : BitVec 3
  data : List Byte
  poisoned : Bool
  deriving DecidableEq, Repr

/-- What comes next in a board-reach training (R126, R127): a training block received on a physical lane; the end of step 2, every
lane that will lock having done so, and whether this receiver asks for precoding; the end of EQUALISE; the end of ALIGN. -/
inductive TrainStep where
  | block (lane : Nat) (bytes : List Byte)
  | locked (precodeWanted : Bool)
  | tuned
  | aligned
  deriving DecidableEq, Repr

/-- What comes next in a tile link's training (R130): the forwarded clock; the end of the PRBS test, with the bit errors of each of
the 104 physical lanes; a training block received; the end of ALIGN. -/
inductive TileStep where
  | clock
  | prbs (errors : List Nat)
  | block (bytes : List Byte)
  | aligned
  deriving DecidableEq, Repr

/-- A codeword's decoding on board reach (R120, R139): as sent, corrected, or uncorrectable. -/
inductive Codeword where
  | clean
  | corrected
  | bad
  deriving DecidableEq, Repr

/-- The three eye heights of one lane's equaliser trial (R362): with the original setting, one code up, one code
down; a trial that saw an uncorrectable codeword is `none`. -/
structure EqTrial where
  lane : Nat
  height0 : Nat
  up : Option Nat
  down : Option Nat
  eyeWidth : Nat
  disturbed : Bool
  deriving DecidableEq, Repr

/-- What reading a frame's cells for its output finds in their ECC (R26, R195, R197): how many errors it corrects, and the first cell
that holds one it cannot. -/
structure CellRead where
  corrected : Nat
  bad : Option Nat
  deriving DecidableEq, Repr

/-- What reading the window descriptors and entries of one lookup finds in their ECC (R26, R212): how many errors it corrects, and
whether the descriptor or the entry holds one it cannot. -/
structure WttRead where
  corrected : Nat
  descBad : Bool
  entryBad : Bool
  deriving DecidableEq, Repr

/-- The commands, one constructor per row of the table. -/
inductive Instr where
  -- register behaviour
  | registerWrite (t off : Nat) (be : BitVec 4) (v : Word)
  | reservedAddressWrite (t off : Nat) (be : BitVec 4) (v : Word)
  | crossingWriteTakesEffect (t dom : Nat)
  | tvRegisterRead (t off : Nat)
  | tvScrub (t : Nat)
  | mbDataWrite (t mb k : Nat) (be : BitVec 4) (v : Word)
  | mailboxCommandEnd (t mb : Nat)
  | indirectDataAccess (t off : Nat) (wr : Option (BitVec 4 × Word))
  -- power, start-up, reset and modes
  | powerGoodRise
  | packageStart (mgrSel : Bool) (pkgId : BitVec 5)
  | packageReset
  | powerDown
  | enterService (t : Nat)
  | enterRecovery (t : Nat)
  | enterTest (t : Nat)
  | modeCommandDone (t : Nat)
  | tileReset (t : Nat) (tiles : BitVec 8)
  | tileResetComplete (t : Nat)
  | testMemoryBist (t : Nat)
  | testPrbs (t : Nat) (ports : BitVec 8)
  | testNearLoopback (t : Nat) (ports : BitVec 8)
  | testFarLoopback (t : Nat) (ports : BitVec 8)
  | testStop (t : Nat) (errors : Nat) (failed : BitVec 8)
  | bistDone (t : Nat) (errors : Nat)
  | jtagBoundaryScan
  | tapReset
  -- the image controller
  | verify
  | activate
  | commitFloor
  | enrol
  | eraseInactive
  | refreshFlash
  | strCommandDone
  | flashCopyDone
  | strImgDataWrite (be : BitVec 4) (v : Word)
  -- host ports
  | hostMemoryRequest (r : Tlp)
  | hostRequestResolve (t : Nat) (read : WttRead)
  | prefetchAgeExpiry (t k : Nat)
  | configRequest (h f : Nat) (bus : BitVec 8) (off : Nat) (wr : Option (BitVec 4 × Word))
  | deviceReadinessStatus (h : Nat)
  | hostIssue (h : Nat)
  | hostTagWait (t : Nat)
  | hostCompletion (h : Nat) (c : Cpl)
  | hostReadTimeout (t e : Nat)
  | hostTagQuarantineEnd (t e : Nat)
  | msixSend (i v : Nat)
  | aspmL1Entry (h : Nat)
  | rateCapWrite (h : Nat) (v : BitVec 3)
  | narrowWrite (h : Nat) (v : BitVec 3)
  | hostL0pRequest (h : Nat) (width : BitVec 4)
  | wakeAssert (h : Nat)
  | wakeTimeout (h : Nat)
  | retrain (h : Nat)
  | ltrWrite (h : Nat) (v : Word)
  | spdmRequest (h : Nat) (object : List Byte)
  | ideCheckFail (h stream : Nat)
  | unlockMessage (h f : Nat)
  | perstAssert (h : Nat)
  | perstDeassert (h : Nat)
  | hotReset (h : Nat)
  | dlDown (h : Nat)
  | flrInstanceFunction (h f : Nat)
  | flrPf (h f : Nat)
  | flrManagerFunction
  -- Lode physical layer
  | linkTraining (t n : Nat) (steps : List TrainStep)
  | trainingStepTimeout (t n : Nat)
  | identifyRetry (t n : Nat) (identity : BitVec 16)
  | tileLinkTraining (t n : Nat) (steps : List TileStep)
  | change (t n : Nat)
  | lcrReceive (t n : Nat) (reqNum : BitVec 8) (identity : BitVec 16) (rate width : BitVec 2)
  | lcrAckReceive (t n : Nat) (reqNum : BitVec 8)
  | lcrRefuseReceive (t n : Nat) (reqNum : BitVec 8)
  | lcrTimeout (t n : Nat)
  | liveChangeComplete (t n : Nat)
  | down (t n : Nat)
  | disable (t n : Nat)
  | downReceive (t n : Nat)
  | lockLoss (t n : Nat)
  | recoveryComplete (t n : Nat) (steps : List TileStep)
  | locklossTimerExpiry (t n : Nat)
  -- Lode link layer
  | flitTransmit (t n : Nat)
  | flitReceive (t n : Nat) (codewords : List Codeword) (bytes : List Byte)
  | nakTimerExpiry (t n : Nat) (seq : BitVec 12)
  | nakResume (t n : Nat)
  | replayTimerExpiry (t n : Nat)
  | creditStallTimer (t n : Nat) (cls : BitVec 2)
  -- local transactions
  | wrReceive (t n : Nat) (read : WttRead)
  | rdReceive (t n : Nat)
  | heldReadSlotTake (t n : Nat) (read : WttRead)
  | eventAssert (t n : Nat)
  | eventDeassert (t n : Nat)
  | eventEdge (t n : Nat)
  | rspReceive (t n : Nat)
  | ltpRspTimeout (t n : Nat) (tag : BitVec 12)
  | lockBeginSend (t n : Nat)
  | lockWaitExpiry (t n : Nat)
  -- switch core
  | frameArrival (t p : Nat)
  | frameAdmit (t p : Nat)
  | poolTransfer (t f : Nat)
  | transitForward (t out : Nat)
  | outputArbitration (t out : Nat) (read : CellRead)
  | queueUrgent (t out inp : Nat) (cls : BitVec 2)
  | frameAgeExpiry (t out inp : Nat) (cls : BitVec 2)
  | frameAbort (t f : Nat) (ecc : Bool)
  | swcCntRead (t : Nat)
  | swcCntWrite (t : Nat)
  -- windows and translation
  | wttWindowRead (t : Nat)
  | wttWindowWrite (t : Nat)
  | wttEntryRead (t m : Nat)
  | wttEntryWrite (t m : Nat)
  | fill (t m : Nat)
  | fence (t : Nat) (i : BitVec 12)
  | fenceComplete (t : Nat)
  | restamp (t : Nat) (i : BitVec 12)
  | restampComplete (t : Nat)
  -- bridged transactions
  | holdRelease (id : Nat)
  | zeroLengthReadComplete (t n : Nat)
  -- DMA queues
  | doorbellWrite (i q off : Nat) (be : BitVec 4) (v : Word)
  | inlineDoorbell (i q : Nat) (enables : List Bool) (bytes : List Byte)
  | queueEnable (t q : Nat)
  | queueResume (t q : Nat)
  | queueSkip (t q : Nat)
  | queueReset (t q : Nat)
  | queueResetComplete (t q : Nat)
  | cplHeadWrite (t q : Nat) (be : BitVec 4) (v : Word)
  | descriptorFetch (t q : Nat)
  | localRingPoll (t q : Nat)
  | descriptorStart (t q : Nat)
  | completionEntryWrite (t q : Nat)
  | dmaQctxRead (t : Nat)
  | dmaQctxWrite (t : Nat)
  | setShare (t : Nat)
  | qctxCommand (t : Nat)
  -- DMA engines
  | readIssue (t : Nat)
  | dmaUrgent (t q : Nat) (prio : BitVec 2)
  | drrEpoch (t : Nat)
  | dmaReadData (t : Nat)
  | dmaReadTimeout (t tag : Nat)
  | writeIssue (t : Nat)
  | writeSettle (t : Nat)
  | writeSettleTimeout (t w : Nat)
  | dmaAbortReport (t : Nat)
  | queueHalt (t q : Nat)
  | dmaCntRead (t : Nat)
  | dmaCntWrite (t : Nat)
  -- instances
  | instanceRead (t m : Nat)
  | instanceWrite (t m : Nat)
  | create (t m : Nat)
  | remove (t m : Nat)
  | bind (t m : Nat)
  | unbind (t m : Nat)
  | freeze (t m : Nat)
  | freezeComplete (i : Nat)
  | instanceResume (t m : Nat)
  | instanceResetCommand (t m : Nat)
  | setWeight (t m : Nat)
  | logClear (t m : Nat)
  | logCmdClear (i : Nat)
  | logClearComplete (i : Nat)
  | logEnable (i : Nat)
  | dirtyLogEntryWrite (i : Nat)
  | instanceReset (i : Nat)
  | instanceResetStallEnd (i : Nat)
  | instanceResetDrainEnd (i : Nat)
  | release (i : Nat)
  -- event controller
  | eventPinChange (t p : Nat) (level : Bool)
  | pendingWordWrite (t w : Nat) (be : BitVec 4) (v : Word)
  | pendingWordRead (t w : Nat)
  | routeWrite (t src : Nat) (route : BitVec 11)
  | evcDelivery (t : Nat)
  | targetDone (t x : Nat) (check : Bool) (seq : BitVec 8)
  | holdoffExpiry (t g : Nat)
  -- faults
  | faultRecord (t b c : Nat) (inst : Option Nat) (detail : BitVec 48)
  | headframeFaultService (t : Nat)
  | faultAcknowledge (t b : Nat) (bits : BitVec 8)
  | classBExpiry (t b i : Nat)
  | classCExpiry (t b : Nat)
  | hfWatchdog (t : Nat)
  | dumpWrite
  | dumpComplete
  | dumpRelease (slot : Nat)
  | faultLossSummary (t b : Nat)
  -- calendar and ageing
  | crystalStop
  | crystalResume
  | timestampRead
  | timestampWrite
  | slew
  | slewEnd
  | canarySample (readings : List (Nat × Nat × BitVec 24))
  | voltageRaiseStep (readings : List (Nat × Nat × BitVec 24)) (acked : Bool)
  | replanStart (readings : List (Nat × Nat × BitVec 24))
  | planNow (readings : List (Nat × Nat × BitVec 24))
  | eqTrialEnd (t n : Nat) (trial : EqTrial)
  | replanEnd (eyes : List (Nat × BitVec 8 × Nat × Nat × Nat))
  | maintGrant (t : Nat) (minutes scope : BitVec 8)
  | maintWindowEnd (t : Nat)
  -- Gallery ring
  | helloSend
  | ringFrameReceive (ringB : Bool) (bytes : List Byte)
  | ringRxDown (ringB : Bool)
  | ringRxUp (ringB : Bool)
  | packageLost (p : Nat)
  | rread (m : Nat)
  | rwrite (m : Nat)
  | distImg (m : Nat)
  | hfErase (m : Nat)
  | distHf (m : Nat)
  | hfCheck (m : Nat)
  | remoteTimeout (m : Nat)
  | timeSend
  | galSyncEdge
  | syncLost
  | followingTimeout
  -- traces and alarms
  | traceLossSummary (t b : Nat)
  | alarmRead (t : Nat)
  | alarmAck (t : Nat)
  | alarmWrite (t : Nat)
  -- power
  | governorWindow (t : Nat) (wanted : Nat)
  | tempSample (t : Nat) (r0 r1 r2 r3 : Int)
  | vbatSample (mv : Nat)
  | chargeControlWrite (be : BitVec 4) (v : Word)
  | pmbusRetry (acked : Bool)
  | vrmAlert
  | smbusBlockRead (cmd : BitVec 8)
  -- rows the table adds at its end
  | dlUp (h : Nat) (rate width : BitVec 4) (flit : Bool)
  | rateChanged (h : Nat) (rate : BitVec 4)
  | l0pChanged (h : Nat) (width : BitVec 4)
  | ltpHeldRead (t n : Nat)
  | readVoutSample (acked : Bool) (readback : BitVec 16)
  | vbatLost
  deriving DecidableEq, Repr

end Sys2Proof
end

