-- ==== Sys2Proof/Machine/Bits.lean ====
section
/-! DEFINITION. Bit fields of register words, byte order, and sparse tables: sorted lists of (key, value) pairs that
list no entry equal to what an unlisted key reads as. -/

namespace Sys2Proof.Machine

open Sys2Proof

/-- The field of `n` bits whose lowest bit is `lo`, as a number. -/
def fld (w : Word) (lo n : Nat) : Nat := (w.extractLsb' lo n).toNat

/-- One bit of a word. -/
def bit (w : Word) (i : Nat) : Bool := w.getLsbD i

/-- The word with 1s in the `n` bits from `lo` up. -/
def ones (lo n : Nat) : Word := BitVec.ofNat 32 ((2 ^ n - 1) * 2 ^ lo)

/-- The word with the field of `n` bits at `lo` replaced by the low `n` bits of `v`. -/
def setFld (w : Word) (lo n v : Nat) : Word :=
  (w &&& ~~~(ones lo n)) ||| ((BitVec.ofNat 32 v <<< lo) &&& ones lo n)

/-- The word with bit `i` made `b`. -/
def setBit (w : Word) (i : Nat) (b : Bool) : Word := setFld w i 1 (if b then 1 else 0)

/-- A field that wraps, counted up by `k`. -/
def addFld (w : Word) (lo n k : Nat) : Word := setFld w lo n (fld w lo n + k)

/-- A field that saturates at its greatest value, counted up by `k`. -/
def satFld (w : Word) (lo n k : Nat) : Word := setFld w lo n (Nat.min (2 ^ n - 1) (fld w lo n + k))

/-- A number as a register word. -/
abbrev word (n : Nat) : Word := BitVec.ofNat 32 n

/-- A Bool as the number a one-bit field holds. -/
def b2n (b : Bool) : Nat := if b then 1 else 0

/-- Byte `k` of a word (R74: byte n holds bits [8n+7:8n]). -/
def byteOf (w : Word) (k : Nat) : Byte := w.extractLsb' (8 * k) 8

/-- The four bytes of a word, lowest first (R74). -/
def wordBytes (w : Word) : List Byte := [byteOf w 0, byteOf w 1, byteOf w 2, byteOf w 3]

/-- The number a little-endian list of bytes spells. -/
def leNat : List Byte → Nat
  | [] => 0
  | b :: r => b.toNat + 256 * leNat r

/-- `n` bytes of a number, lowest first. -/
def leBytes : Nat → Nat → List Byte
  | 0, _ => []
  | n + 1, v => BitVec.ofNat 8 v :: leBytes n (v / 256)

/-- The number a big-endian list of bytes spells (R30 holds key material so). -/
def beNat (l : List Byte) : Nat := l.foldl (fun a b => a * 256 + b.toNat) 0

/-- `n` bytes of a number, highest first. -/
def beBytes (n v : Nat) : List Byte := (leBytes n v).reverse

/-- `n` bytes of a list from position `off`, zeros past its end. -/
def bytesAt (l : List Byte) (off n : Nat) : List Byte :=
  let r := (l.drop off).take n
  r ++ List.replicate (n - r.length) 0

/-- A little-endian number of `n` bytes at position `off` of a list. -/
def leAt (l : List Byte) (off n : Nat) : Nat := leNat (bytesAt l off n)

/-- The mask word of four byte enables (R75). -/
def beMask (be : BitVec 4) : Word :=
  (if be.getLsbD 0 then 0x000000FF#32 else 0) ||| (if be.getLsbD 1 then 0x0000FF00#32 else 0) |||
  (if be.getLsbD 2 then 0x00FF0000#32 else 0) ||| (if be.getLsbD 3 then 0xFF000000#32 else 0)

/-- The first byte a DW's enables name (R75). -/
def firstByte (be : BitVec 4) : Nat := ((List.range 4).find? (fun k => be.getLsbD k)).getD 0

/-- The old word with the enabled bytes of a write (R75). -/
def mergeBytes (old : Word) (be : BitVec 4) (v : Word) : Word :=
  (old &&& ~~~(beMask be)) ||| (v &&& beMask be)

/-- A field of `n` bits read as two's complement. -/
def signed (n v : Nat) : Int := if v < 2 ^ (n - 1) then (v : Int) else (v : Int) - (2 ^ n : Nat)

/-- The `n`-bit two's complement code of an integer. -/
def unsigned (n : Nat) (v : Int) : Nat := (v % ((2 ^ n : Nat) : Int)).toNat

/-- A number brought within two bounds (R87: the nearest allowed value). -/
def clamp (lo hi v : Nat) : Nat := if v < lo then lo else if hi < v then hi else v

/-- A 48-bit or 64-bit address word pair as one number. -/
def pair (lo hi : Word) : Nat := lo.toNat + hi.toNat * 2 ^ 32

/-- Everything a list of options holds, if each holds something. -/
def allSome {α : Type} : List (Option α) → Option (List α)
  | [] => some []
  | none :: _ => none
  | some a :: r => (allSome r).map (a :: ·)

/-! ## Sparse tables -/

/-- A sparse table: keys rising, values that differ from what an unlisted key reads as. -/
abbrev Tbl (α : Type) := List (Nat × α)

namespace Tbl

/-- The listed value of a key. -/
def find? {α : Type} : Tbl α → Nat → Option α
  | [], _ => none
  | (a, v) :: r, k => if a = k then some v else find? r k

/-- Puts a value at a key, keeping the keys rising. -/
def ins {α : Type} : Tbl α → Nat → α → Tbl α
  | [], k, x => [(k, x)]
  | (a, v) :: r, k, x =>
    if k < a then (k, x) :: (a, v) :: r else if k = a then (k, x) :: r else (a, v) :: ins r k x

/-- Takes a key out. -/
def del {α : Type} : Tbl α → Nat → Tbl α
  | [], _ => []
  | (a, v) :: r, k => if a = k then del r k else (a, v) :: del r k

/-- What a key reads as: the listed value, else the default `d`. -/
def get {α : Type} (d : α) (t : Tbl α) (k : Nat) : α := (find? t k).getD d

/-- A write: a value equal to the default takes the entry out. -/
def set {α : Type} [DecidableEq α] (d : α) (t : Tbl α) (k : Nat) (v : α) : Tbl α :=
  if v = d then del t k else ins t k v

/-- Appends to the list a key holds. -/
def app {α : Type} [DecidableEq α] (t : Tbl (List α)) (k : Nat) (l : List α) : Tbl (List α) :=
  set [] t k (get [] t k ++ l)

/-- The entries whose key passes a test. -/
def keep {α : Type} (p : Nat → Bool) (t : Tbl α) : Tbl α := t.filter (fun e => p e.1)

/-- Puts a run of values at the keys from `k` up, `d` giving their defaults. -/
def run {α : Type} [DecidableEq α] (d : Nat → α) (k : Nat) : List α → Tbl α
  | [] => []
  | v :: r => if v = d k then run d (k + 1) r else (k, v) :: run d (k + 1) r

/-- The canonical form: keys strictly rising, and no entry that equals its default. -/
def wf {α : Type} [DecidableEq α] (d : Nat → α) : Tbl α → Bool
  | [] => true
  | (a, v) :: r => (v != d a) && r.all (fun e => a < e.1) && wf d r

/-- Keys strictly rising. -/
def rising {α : Type} : Tbl α → Bool
  | [] => true
  | (a, _) :: r => r.all (fun e => a < e.1) && rising r

end Tbl

/-- The mailboxes of a tile: offset and data words (R83). -/
def mailboxes : List (Nat × Nat) :=
  [(0x3000400, 2), (0x4000100, 8), (0x4000200, 4), (0x4000280, 4), (0x4000300, 4), (0x4000380, 4), (0x5000100, 16),
   (0x5000300, 2), (0x6000100, 8), (0x6000180, 8), (0x6000200, 8), (0x6000280, 8), (0x9000000, 4), (0xB000100, 16),
   (0xB000180, 16), (0xB000200, 16), (0xB000280, 16), (0xD000300, 4)]

/-- Whether a mailbox stands at an offset of a tile's space (R83). -/
def isMb (mb : Nat) : Bool := mailboxes.any (fun m => m.1 == mb)

/-- Whether `k` is a data word of the mailbox at an offset (R83). -/
def mbWord (mb k : Nat) : Bool := mailboxes.any (fun m => m.1 == mb && decide (k < m.2))

end Sys2Proof.Machine
end

