-- ==== Sys2Proof/Machine/Crypto.lean ====
section
/-! DEFINITION. The check codes of links and images: CRC-32C (R31, R164) and CRC-64 (R141), computed
bit by bit, and the hash and signature of the structure image (R41). -/

namespace Sys2Proof.Machine

open Sys2Proof

/-- `k` shift steps of a reflected CRC with reflected polynomial `poly`. -/
def crcShift {w : Nat} (poly : BitVec w) : Nat → BitVec w → BitVec w
  | 0, c => c
  | k + 1, c => crcShift poly k (if c.getLsbD 0 then (c >>> 1) ^^^ poly else c >>> 1)

/-- A reflected CRC over bytes, from a running value. -/
def crcRun {w : Nat} (poly : BitVec w) : List Byte → BitVec w → BitVec w
  | [], c => c
  | b :: r, c => crcRun poly r (crcShift poly 8 (c ^^^ b.setWidth w))

/-- CRC-32C, polynomial 0x1EDC6F41 reflected, initial value and final XOR all ones (R31). -/
def crc32c (l : List Byte) : BitVec 32 := ~~~(crcRun 0x82F63B78#32 l 0xFFFFFFFF#32)

/-- CRC-64, polynomial 0x42F0E1EBA9EA3693 reflected, initial value and final XOR all ones (R141). -/
def crc64 (l : List Byte) : BitVec 64 := ~~~(crcRun 0xC96C5795D7870F42#64 l 0xFFFFFFFFFFFFFFFF#64)

/-! ## SHA-256 (FIPS 180-4) and RSASSA-PSS (RFC 8017), which R41 names. PRESUMED: log entry 21. -/

/-- The round constants. -/
def shaK : List (BitVec 32) :=
  [0x428a2f98#32, 0x71374491#32, 0xb5c0fbcf#32, 0xe9b5dba5#32, 0x3956c25b#32, 0x59f111f1#32, 0x923f82a4#32, 0xab1c5ed5#32] ++
  [0xd807aa98#32, 0x12835b01#32, 0x243185be#32, 0x550c7dc3#32, 0x72be5d74#32, 0x80deb1fe#32, 0x9bdc06a7#32, 0xc19bf174#32] ++
  [0xe49b69c1#32, 0xefbe4786#32, 0x0fc19dc6#32, 0x240ca1cc#32, 0x2de92c6f#32, 0x4a7484aa#32, 0x5cb0a9dc#32, 0x76f988da#32] ++
  [0x983e5152#32, 0xa831c66d#32, 0xb00327c8#32, 0xbf597fc7#32, 0xc6e00bf3#32, 0xd5a79147#32, 0x06ca6351#32, 0x14292967#32] ++
  [0x27b70a85#32, 0x2e1b2138#32, 0x4d2c6dfc#32, 0x53380d13#32, 0x650a7354#32, 0x766a0abb#32, 0x81c2c92e#32, 0x92722c85#32] ++
  [0xa2bfe8a1#32, 0xa81a664b#32, 0xc24b8b70#32, 0xc76c51a3#32, 0xd192e819#32, 0xd6990624#32, 0xf40e3585#32, 0x106aa070#32] ++
  [0x19a4c116#32, 0x1e376c08#32, 0x2748774c#32, 0x34b0bcb5#32, 0x391c0cb3#32, 0x4ed8aa4a#32, 0x5b9cca4f#32, 0x682e6ff3#32] ++
  [0x748f82ee#32, 0x78a5636f#32, 0x84c87814#32, 0x8cc70208#32, 0x90befffa#32, 0xa4506ceb#32, 0xbef9a3f7#32, 0xc67178f2#32]

/-- The initial hash value. -/
def shaInit : List (BitVec 32) :=
  [0x6a09e667#32, 0xbb67ae85#32, 0x3c6ef372#32, 0xa54ff53a#32, 0x510e527f#32, 0x9b05688c#32, 0x1f83d9ab#32, 0x5be0cd19#32]

/-- A rotation right. -/
abbrev rotr (x : BitVec 32) (n : Nat) : BitVec 32 := x.rotateRight n

/-- A message padded to whole 64-byte blocks. -/
def shaPad (l : List Byte) : List Byte :=
  l ++ [0x80] ++ List.replicate ((119 - l.length % 64) % 64) 0 ++ beBytes 8 (8 * l.length)

/-- `n` more words of the message schedule, the last sixteen held newest first, the whole held newest first. -/
def shaExtend : Nat → List (BitVec 32) → List (BitVec 32)
  | 0, w => w
  | n + 1, w =>
    let g (k : Nat) : BitVec 32 := w.getD (k - 1) 0
    let s0 := rotr (g 15) 7 ^^^ rotr (g 15) 18 ^^^ (g 15 >>> 3)
    let s1 := rotr (g 2) 17 ^^^ rotr (g 2) 19 ^^^ (g 2 >>> 10)
    shaExtend n ((g 16 + s0 + g 7 + s1) :: w)

/-- One round on the working variables. -/
def shaRound (v : List (BitVec 32)) (kw : BitVec 32 × BitVec 32) : List (BitVec 32) :=
  match v with
  | [a, b, c, d, e, f, g, h] =>
    let t1 := h + (rotr e 6 ^^^ rotr e 11 ^^^ rotr e 25) + ((e &&& f) ^^^ (~~~e &&& g)) + kw.1 + kw.2
    let t2 := (rotr a 2 ^^^ rotr a 13 ^^^ rotr a 22) + ((a &&& b) ^^^ (a &&& c) ^^^ (b &&& c))
    [t1 + t2, a, b, c, d + t1, e, f, g]
  | _ => v

/-- The words of one 64-byte block. -/
def shaWords : Nat → List Byte → List (BitVec 32)
  | 0, _ => []
  | n + 1, l => BitVec.ofNat 32 (beNat (l.take 4)) :: shaWords n (l.drop 4)

/-- The hash of the first `n` blocks of a padded message, from a running value. -/
def shaBlocks : Nat → List Byte → List (BitVec 32) → List (BitVec 32)
  | 0, _, h => h
  | n + 1, l, h =>
    let w := (shaExtend 48 (shaWords 16 l).reverse).reverse
    let v := (shaK.zip w).foldl shaRound h
    shaBlocks n (l.drop 64) ((h.zip v).map (fun p => p.1 + p.2))

/-- SHA-256 of a byte string, 32 bytes. -/
def sha256 (l : List Byte) : List Byte :=
  let m := shaPad l
  (shaBlocks (m.length / 64) m shaInit).flatMap (fun w => beBytes 4 w.toNat)

/-- `x` to the power 2^k modulo `n`. -/
def squares (n : Nat) : Nat → Nat → Nat
  | 0, x => x % n
  | k + 1, x => squares n k (x * x % n)

/-- `x` to the power 65,537 modulo `n`. -/
def pow65537 (n x : Nat) : Nat := squares n 16 x * x % n

/-- MGF1 with SHA-256: `n` blocks of mask from a seed. -/
def mgf1 (seed : List Byte) (n : Nat) : List Byte :=
  (List.range n).flatMap (fun c => sha256 (seed ++ beBytes 4 c))

/-- Whether an RSASSA-PSS signature with exponent 65,537, SHA-256, MGF1 and a salt of 32 bytes verifies (R41). -/
def pssVerify (modulus sig msg : List Byte) : Bool :=
  let n := beNat modulus
  let x := beNat sig
  let emBits := Nat.log2 n
  let emLen := (emBits + 7) / 8
  if n = 0 ∨ n ≤ x ∨ emLen < 66 then false
  else
    let m := pow65537 n x
    if 256 ^ emLen ≤ m then false
    else
      let em := beBytes emLen m
      let dbLen := emLen - 33
      let masked := em.take dbLen
      let h := bytesAt em dbLen 32
      let spare := 8 * emLen - emBits
      let top := 2 ^ (8 - spare)
      let mask := mgf1 h ((dbLen + 31) / 32)
      let db := (masked.zip mask).map (fun p => p.1 ^^^ p.2)
      let db := match db with
        | [] => []
        | b :: r => BitVec.ofNat 8 (b.toNat % top) :: r
      let psLen := emLen - 66
      em.getLast? == some 0xBC && decide ((masked.headD 0).toNat < top) &&
      (db.take psLen).all (fun b => b == 0) && db.getD psLen 0 == 1 &&
      sha256 (List.replicate 8 0 ++ sha256 msg ++ bytesAt db (psLen + 1) 32) == h

end Sys2Proof.Machine
end

