-- ==== Sys2Proof/Config.lean ====
section
/-! DEFINITION. What an implementation fixes and what the manual leaves open: opaque constants, with no body, so
that a claim holds whatever they are. -/

namespace Sys2Proof.Config

open Sys2Proof

/-- Which free entry of a tag store is tried first when a request takes one: R102, R172 and R267 name no order.
Free value, log entry 11. -/
opaque tagChoice : Nat → Nat

/-- How much of the calendar trim one crystal tick takes, before the bounds of R350 are applied: the manual
leaves the spread open. Free value, log entry 12. -/
opaque trimSpread : Nat → Int

/-- Whether a Headframe copy in SPI flash, given as its bytes, verifies against the fused root hash: the format
is Merzoir's own (R59). Free value, log entry 13. -/
opaque headframePasses : List Byte → Bool

/-- The preset and the four steps that a slot's equaliser asks of its partner on a lane, in four bits each: the tuning is adaptive
(R126, R127). Free value, log entry 66. -/
opaque eqRequest : Nat → Nat → BitVec 20

/-- The request number of the first LCR of a link, which R132 does not give. Free value, log entry 14. -/
opaque firstReqNum : Nat → BitVec 8

/-- The SPDM answer bytes Headframe forms for a request object: the answers follow the SPDM specification and
the die's private key, neither of which the manual holds (R111). Free value, log entry 15. -/
opaque spdmAnswer : Nat → List Byte → List Byte

/-- What an SPDM request does beside its answer, which the encrypted exchange decides (R111, R112): 0 nothing, 1 it ends a
secured session, 2 + k IDE stream k of the link becomes Secure. Free value, log entry 15. -/
opaque spdmEffect : Nat → List Byte → Nat

/-- The fuse set as the bytes that R111 measures, from the fuses' values: the manual gives no layout. Free value, log entry 15. -/
opaque fuseBytes : List Nat → List Byte

/-- What the measurements of an image read while the package has none active (R46, R111). Free value, log entry 15. -/
opaque noImageDigest : List Byte

/-- A value the manual leaves undefined, drawn with the model's counter. Free value, log entries 7, 16 and 24. -/
opaque freeWord : Nat → Word

/-- One bit the manual leaves undefined, drawn with the model's counter. Free value, log entry 7. -/
opaque freeBit : Nat → Bool

/-- Whether a reading lies in a canary monitor's possible range (R355), which the manual does not give. Free value, log
entry 22. -/
opaque canaryInRange : Nat → BitVec 24 → Bool

/-- The register word the SerDes of a port shows at an address of its indirect pair: the manual gives no layout (R86, R139).
Free value, log entry 23. -/
opaque serdesWord : Nat → Nat → Nat → Word

end Sys2Proof.Config
end

