-- ==== Sys2Proof/Machine/RegMap.lean ====
section
/-! DEFINITION. The register map of a tile's control space (R72): for every register of every block its offset, its reset
value and the rule of each of its writable fields (the type codes of R5), as the register tables of the chapters give them. -/

namespace Sys2Proof.Machine

open Sys2Proof

/-- A writable field: lowest bit, width, and the least and greatest value it allows (R87). -/
structure RField where
  lo : Nat
  n : Nat
  least : Nat := 0
  most : Nat := 2 ^ 32
  deriving DecidableEq, Repr

/-- A row of a register table: block number within the tile, offset of the first register, stride and count of the
repetitions, reset value, whether bits [31:16] are a write mask (R80), the RW fields, the W1C bits, whether it is
kept in three voted copies (R82), and whether it exists in tile 0 only. -/
structure Row where
  blk : Nat
  base : Nat
  stride : Nat := 4
  count : Nat := 1
  reset : Nat := 0
  wm : Bool := false
  fields : List RField := []
  w1c : Nat := 0
  tv : Bool := false
  t0 : Bool := false
  deriving DecidableEq, Repr

/-- A register whose 32 bits are all RW. -/
def full : List RField := [⟨0, 32, 0, 2 ^ 32⟩]

/-- The rows of a mailbox of `words` data words (R83). -/
def mbRows (blk base words : Nat) : List Row :=
  [ { blk := blk, base := base, fields := [⟨24, 4, 0, 15⟩] },
    { blk := blk, base := base + 4, fields := full },
    { blk := blk, base := base + 0x10, count := words, fields := full } ]

/-- GLB (R54, R77, R78). -/
def glbRows : List Row :=
  [ { blk := 0, base := 0x0000 }, { blk := 0, base := 0x0004 }, { blk := 0, base := 0x0008 },
    { blk := 0, base := 0x000C }, { blk := 0, base := 0x0010 }, { blk := 0, base := 0x0014 },
    { blk := 0, base := 0x0100 }, { blk := 0, base := 0x0104 },
    { blk := 0, base := 0x0108, fields := [⟨24, 8, 0, 255⟩, ⟨0, 4, 0, 15⟩] },
    { blk := 0, base := 0x010C },
    { blk := 0, base := 0x0110, fields := [⟨24, 8, 0, 255⟩, ⟨0, 8, 0, 255⟩] },
    { blk := 0, base := 0x0114, reset := 1, w1c := 0x1F },
    { blk := 0, base := 0x0118 }, { blk := 0, base := 0x011C },
    { blk := 0, base := 0x0120, fields := [⟨8, 8, 0, 255⟩, ⟨0, 4, 0, 15⟩] },
    { blk := 0, base := 0x0124 },
    { blk := 0, base := 0x0200 }, { blk := 0, base := 0x0204 }, { blk := 0, base := 0x0208 },
    { blk := 0, base := 0x020C }, { blk := 0, base := 0x0210 } ]

/-- HPT (R117). RATE_CAP's upper clamp is the link's HOST_MAXRATE, which the write itself applies. -/
def hptRows : List Row :=
  [ { blk := 1, base := 0x00, stride := 0x100, count := 4 },
    { blk := 1, base := 0x04, stride := 0x100, count := 4, reset := 0x700, wm := true,
      fields := [⟨8, 3, 1, 7⟩, ⟨4, 3, 0, 4⟩, ⟨3, 1, 0, 1⟩, ⟨2, 1, 0, 1⟩] },
    { blk := 1, base := 0x08, stride := 0x100, count := 4, w1c := 0x7F },
    { blk := 1, base := 0x0C, stride := 0x100, count := 4 },
    { blk := 1, base := 0x10, stride := 0x100, count := 4 },
    { blk := 1, base := 0x14, stride := 0x100, count := 4 },
    { blk := 1, base := 0x18, stride := 0x100, count := 4 },
    { blk := 1, base := 0x1C, stride := 0x100, count := 4, reset := 0x88038803,
      fields := [⟨31, 1, 0, 1⟩, ⟨16, 13, 0, 8191⟩, ⟨15, 1, 0, 1⟩, ⟨0, 13, 0, 8191⟩] },
    { blk := 1, base := 0x400 } ]

/-- LNK, the physical-layer registers of the eleven slots (R139). TARGET_RATE and TARGET_WIDTH clamp further to the
image's rate and the bifurcated width, which the write itself applies. -/
def lnkPhyRows : List Row :=
  [ { blk := 2, base := 0x00, stride := 0x100, count := 11 },
    { blk := 2, base := 0x04, stride := 0x100, count := 8, wm := true, reset := 8,
      fields := [⟨10, 2, 1, 3⟩, ⟨8, 2, 1, 3⟩, ⟨3, 1, 0, 1⟩, ⟨2, 1, 0, 1⟩, ⟨1, 1, 0, 1⟩, ⟨0, 1, 0, 1⟩] },
    { blk := 2, base := 0x804, stride := 0x100, count := 3, wm := true,
      fields := [⟨2, 1, 0, 1⟩, ⟨1, 1, 0, 1⟩] },
    { blk := 2, base := 0x08, stride := 0x100, count := 11, w1c := 0x1FF },
    { blk := 2, base := 0x0C, stride := 0x100, count := 11 },
    { blk := 2, base := 0x10, stride := 0x100, count := 11, reset := 0x32, tv := true,
      fields := [⟨0, 14, 1, 10000⟩] },
    { blk := 2, base := 0x14, stride := 0x100, count := 11 },
    { blk := 2, base := 0x18, stride := 0x100, count := 11 },
    { blk := 2, base := 0x1C, stride := 0x100, count := 11 },
    { blk := 2, base := 0x20, stride := 0x100, count := 11 },
    { blk := 2, base := 0x24, stride := 0x100, count := 11 } ]

/-- LNK, the link-layer registers of the eleven slots (R161). LNK_CREDIT_POOL's upper clamp is the slot's maximum,
which the write itself applies. -/
def lnkLlRows : List Row :=
  [ { blk := 2, base := 0x40, stride := 0x100, count := 11 },
    { blk := 2, base := 0x44, stride := 0x100, count := 11, reset := 0xFFF },
    { blk := 2, base := 0x48, stride := 0x100, count := 11 },
    { blk := 2, base := 0x4C, stride := 0x100, count := 8, reset := 20, fields := [⟨0, 10, 1, 1023⟩] },
    { blk := 2, base := 0x84C, stride := 0x100, count := 3, reset := 5, fields := [⟨0, 10, 1, 1023⟩] },
    { blk := 2, base := 0x50, stride := 0x100, count := 8, reset := 50, fields := [⟨0, 10, 1, 1023⟩] },
    { blk := 2, base := 0x850, stride := 0x100, count := 3, reset := 10, fields := [⟨0, 10, 1, 1023⟩] },
    { blk := 2, base := 0x54, stride := 0x100, count := 11, reset := 2048, fields := [⟨0, 14, 288, 2048⟩] },
    { blk := 2, base := 0x58, stride := 0x100, count := 11 },
    { blk := 2, base := 0x5C, stride := 0x100, count := 11 },
    { blk := 2, base := 0x60, stride := 0x100, count := 11 },
    { blk := 2, base := 0x64, stride := 0x100, count := 11 },
    { blk := 2, base := 0x68, stride := 0x100, count := 11 },
    { blk := 2, base := 0x6C, stride := 0x100, count := 11 },
    { blk := 2, base := 0x70, stride := 0x100, count := 11 },
    { blk := 2, base := 0x74, stride := 0x100, count := 11 },
    { blk := 2, base := 0x78, stride := 0x100, count := 11, w1c := 0x1F },
    { blk := 2, base := 0x7C, stride := 0x100, count := 11 },
    { blk := 2, base := 0x80, stride := 0x100, count := 11 },
    { blk := 2, base := 0x84, stride := 0x100, count := 11 } ]

/-- LNK, the LTP and lock registers of slots 0 to 7 (R183, R243). -/
def ltpRows : List Row :=
  [ { blk := 2, base := 0x1000, stride := 0x40, count := 8, reset := 0xC350, tv := true,
      fields := [⟨0, 22, 50, 4000000⟩] },
    { blk := 2, base := 0x1004, stride := 0x40, count := 8 },
    { blk := 2, base := 0x1008, stride := 0x40, count := 8 },
    { blk := 2, base := 0x100C, stride := 0x40, count := 8 },
    { blk := 2, base := 0x1010, stride := 0x40, count := 8 },
    { blk := 2, base := 0x1014, stride := 0x40, count := 8 },
    { blk := 2, base := 0x1018, stride := 0x40, count := 8 },
    { blk := 2, base := 0x101C, stride := 0x40, count := 8, w1c := 0x1F },
    { blk := 2, base := 0x1020, stride := 0x40, count := 8, reset := 0x3E8, fields := [⟨0, 16, 1, 65535⟩] },
    { blk := 2, base := 0x1024, stride := 0x40, count := 8 } ]

/-- SWC (R206, R207). SWC_CLASS stands at the values of an image without SWITCH records (R32). -/
def swcRows : List Row :=
  [ { blk := 3, base := 0x0000, count := 4, reset := 0x3E80008 },
    { blk := 3, base := 0x0010 },
    { blk := 3, base := 0x0014, reset := 0x14, fields := [⟨0, 10, 1, 1023⟩] },
    { blk := 3, base := 0x0018, reset := 146432 },
    { blk := 3, base := 0x001C }, { blk := 3, base := 0x0020 }, { blk := 3, base := 0x0024 },
    { blk := 3, base := 0x0028 }, { blk := 3, base := 0x002C }, { blk := 3, base := 0x0030 },
    { blk := 3, base := 0x0034 },
    { blk := 3, base := 0x0038, w1c := 0x3F },
    { blk := 3, base := 0x0100, stride := 0x20, count := 12 },
    { blk := 3, base := 0x0104, stride := 0x20, count := 12 },
    { blk := 3, base := 0x0108, stride := 0x20, count := 12 },
    { blk := 3, base := 0x010C, stride := 0x20, count := 12 } ] ++ mbRows 3 0x0400 2

/-- WTT (R223, R220). -/
def wttRows : List Row :=
  [ { blk := 4, base := 0x0000, fields := [⟨24, 4, 0, 15⟩, ⟨0, 12, 0, 4095⟩] },
    { blk := 4, base := 0x0004 }, { blk := 4, base := 0x0008 }, { blk := 4, base := 0x000C },
    { blk := 4, base := 0x0010 },
    { blk := 4, base := 0x0014, reset := 0x8A10, fields := [⟨15, 1, 0, 1⟩, ⟨8, 6, 1, 63⟩, ⟨0, 7, 1, 64⟩] },
    { blk := 4, base := 0x0018 }, { blk := 4, base := 0x001C }, { blk := 4, base := 0x0020 },
    { blk := 4, base := 0x0024, w1c := 0xFF },
    { blk := 4, base := 0x0030, count := 4, reset := 1, fields := [⟨0, 22, 1, 2097152⟩] } ] ++
  mbRows 4 0x0100 8 ++ mbRows 4 0x0200 4 ++ mbRows 4 0x0280 4 ++ mbRows 4 0x0300 4 ++ mbRows 4 0x0380 4

/-- DMA (R263, R261, R282, R283). -/
def dmaRows : List Row :=
  [ { blk := 5, base := 0x0000 }, { blk := 5, base := 0x0004 },
    { blk := 5, base := 0x0008, w1c := 0x7 },
    { blk := 5, base := 0x000C } ] ++ mbRows 5 0x0100 16 ++
  [ { blk := 5, base := 0x0200, reset := 0xC350, tv := true, fields := [⟨0, 22, 50, 4000000⟩] },
    { blk := 5, base := 0x0204, reset := 0x64, fields := [⟨0, 10, 1, 1023⟩] },
    { blk := 5, base := 0x0208 }, { blk := 5, base := 0x020C }, { blk := 5, base := 0x0210 },
    { blk := 5, base := 0x0214 }, { blk := 5, base := 0x0218 },
    { blk := 5, base := 0x021C, w1c := 0x1F } ] ++ mbRows 5 0x0300 2

/-- INS (R309, R284). -/
def insRows : List Row :=
  [ { blk := 6, base := 0x0000 },
    { blk := 6, base := 0x0004, w1c := 0xFF },
    { blk := 6, base := 0x0008 }, { blk := 6, base := 0x000C }, { blk := 6, base := 0x0010 },
    { blk := 6, base := 0x0014 },
    { blk := 6, base := 0x0020, count := 4 } ] ++
  mbRows 6 0x0100 8 ++ mbRows 6 0x0180 8 ++ mbRows 6 0x0200 8 ++ mbRows 6 0x0280 8

/-- EVC (R328); the reset values that depend on the number are given by `regReset`. -/
def evcRows : List Row :=
  [ { blk := 7, base := 0x0000, count := 1024, fields := full },
    { blk := 7, base := 0x1000, count := 1024, reset := 0xFFFFFFFF, fields := full },
    { blk := 7, base := 0x2000, count := 1024, w1c := 0xFFFFFFFF },
    { blk := 7, base := 0x20000, count := 32768, fields := [⟨0, 11, 0, 2047⟩] },
    { blk := 7, base := 0x40000, stride := 16, count := 1024,
      fields := [⟨29, 3, 0, 4⟩, ⟨20, 4, 0, 15⟩, ⟨12, 5, 0, 31⟩, ⟨11, 1, 0, 1⟩, ⟨0, 11, 0, 2047⟩] },
    { blk := 7, base := 0x40004, stride := 16, count := 1024 },
    { blk := 7, base := 0x40008, stride := 16, count := 1024 },
    { blk := 7, base := 0x4000C, stride := 16, count := 1024 },
    { blk := 7, base := 0x44000, count := 256, fields := [⟨0, 16, 0, 65535⟩] },
    { blk := 7, base := 0x45000, reset := 0x32, fields := [⟨0, 10, 1, 1023⟩] },
    { blk := 7, base := 0x45004 }, { blk := 7, base := 0x45008 }, { blk := 7, base := 0x4500C },
    { blk := 7, base := 0x46000, count := 64, reset := 1 } ]

/-- FLT (R348, R349). -/
def fltRows : List Row :=
  [ { blk := 8, base := 0x00, stride := 0x100, count := 14, w1c := 0xFF },
    { blk := 8, base := 0x04, stride := 0x100, count := 14, w1c := 0xFF },
    { blk := 8, base := 0x08, stride := 0x100, count := 14 },
    { blk := 8, base := 0x0C, stride := 0x100, count := 14 },
    { blk := 8, base := 0x10, stride := 0x100, count := 14 },
    { blk := 8, base := 0x14, stride := 0x100, count := 14 },
    { blk := 8, base := 0x18, stride := 0x100, count := 14 },
    { blk := 8, base := 0x20, stride := 0x100, count := 14 },
    { blk := 8, base := 0x24, stride := 0x100, count := 14 },
    { blk := 8, base := 0x28, stride := 0x100, count := 14 },
    { blk := 8, base := 0x2C, stride := 0x100, count := 14 },
    { blk := 8, base := 0x30, stride := 0x100, count := 14 },
    { blk := 8, base := 0x34, stride := 0x100, count := 14 },
    { blk := 8, base := 0x38, stride := 0x100, count := 14 },
    { blk := 8, base := 0x3C, stride := 0x100, count := 14 },
    { blk := 8, base := 0x0E00 },
    { blk := 8, base := 0x1000, t0 := true },
    { blk := 8, base := 0x1004, t0 := true },
    { blk := 8, base := 0x1008, t0 := true, fields := [⟨2, 24, 0, 0xFFFFFF⟩] },
    { blk := 8, base := 0x100C, t0 := true },
    { blk := 8, base := 0x1010, t0 := true } ]

/-- CAL and AGE (R367, R353). AGE_MAINT acts under its KEY, which the write itself checks. -/
def calRows : List Row :=
  (mbRows 9 0x0000 4).map (fun r => { r with t0 := true }) ++
  [ { blk := 9, base := 0x0080, wm := true, reset := 2, fields := [⟨0, 2, 0, 3⟩] },
    { blk := 9, base := 0x0084 },
    { blk := 9, base := 0x0088, reset := 0xA0028, tv := true, fields := [⟨16, 8, 1, 255⟩, ⟨0, 10, 1, 1000⟩] },
    { blk := 9, base := 0x008C, reset := 0xF2818,
      fields := [⟨16, 8, 1, 255⟩, ⟨8, 8, 1, 255⟩, ⟨0, 8, 1, 255⟩] },
    { blk := 9, base := 0x0090, reset := 0x2A30, t0 := true, fields := [⟨0, 17, 0, 86399⟩] },
    { blk := 9, base := 0x0094 },
    { blk := 9, base := 0x0098 }, { blk := 9, base := 0x009C }, { blk := 9, base := 0x00A0 },
    { blk := 9, base := 0x00A4 },
    { blk := 9, base := 0x00A8, w1c := 0x7F } ]

/-- STR (R47); tile 0 only. The data registers and STR_CMD act through their own operations. -/
def strRows : List Row :=
  [ { blk := 10, base := 0x00, t0 := true },
    { blk := 10, base := 0x04, t0 := true, fields := [⟨0, 3, 0, 7⟩] },
    { blk := 10, base := 0x08, t0 := true }, { blk := 10, base := 0x0C, t0 := true },
    { blk := 10, base := 0x10, t0 := true }, { blk := 10, base := 0x14, t0 := true },
    { blk := 10, base := 0x18, t0 := true },
    { blk := 10, base := 0x20, t0 := true, fields := [⟨2, 30, 0, 2 ^ 30⟩] },
    { blk := 10, base := 0x24, t0 := true },
    { blk := 10, base := 0x28, t0 := true, fields := [⟨2, 30, 0, 2 ^ 30⟩] },
    { blk := 10, base := 0x2C, t0 := true } ]

/-- GAL (R385); in tiles 1 to 7 the registers read as zero (R9). -/
def galRows : List Row :=
  [ { blk := 11, base := 0x00, reset := 0x10000001, t0 := true },
    { blk := 11, base := 0x04, wm := true, reset := 3, tv := true, t0 := true, fields := [⟨0, 2, 0, 3⟩] },
    { blk := 11, base := 0x08, w1c := 0xFF, t0 := true },
    { blk := 11, base := 0x0C, t0 := true },
    { blk := 11, base := 0x10, t0 := true, fields := [⟨0, 8, 0, 255⟩] },
    { blk := 11, base := 0x14, t0 := true }, { blk := 11, base := 0x18, t0 := true },
    { blk := 11, base := 0x1C, t0 := true },
    { blk := 11, base := 0x80, count := 32, t0 := true },
    { blk := 11, base := 0x300, count := 4, reset := 1, t0 := true,
      fields := [⟨16, 1, 0, 1⟩, ⟨8, 5, 0, 31⟩, ⟨0, 5, 1, 16⟩] } ] ++
  (mbRows 11 0x0100 16 ++ mbRows 11 0x0180 16 ++ mbRows 11 0x0200 16 ++ mbRows 11 0x0280 16).map
    (fun r => { r with t0 := true })

/-- PWR (R416). PWR_VBAT_CTRL acts under its KEY, which the write itself checks. -/
def pwrRows : List Row :=
  [ { blk := 12, base := 0x00, reset := 0x32, tv := true, fields := [⟨0, 10, 5, 500⟩] },
    { blk := 12, base := 0x04, reset := 0x118, tv := true, fields := [⟨0, 10, 40, 280⟩] },
    { blk := 12, base := 0x08 }, { blk := 12, base := 0x0C }, { blk := 12, base := 0x10 },
    { blk := 12, base := 0x14, t0 := true },
    { blk := 12, base := 0x18, reset := 0x40, t0 := true, fields := [⟨0, 7, 0, 127⟩] },
    { blk := 12, base := 0x1C, t0 := true },
    { blk := 12, base := 0x20, t0 := true },
    { blk := 12, base := 0x24, t0 := true },
    { blk := 12, base := 0x28, w1c := 0x3F } ]

/-- TRC (R395, R392). The trace memory is read through its rings. -/
def trcRows : List Row :=
  [ { blk := 13, base := 0x00, wm := true, fields := [⟨0, 14, 0, 16383⟩] },
    { blk := 13, base := 0x04, w1c := 0x7 },
    { blk := 13, base := 0x08, reset := 0x10, fields := [⟨0, 16, 1, 65535⟩] },
    { blk := 13, base := 0x0C }, { blk := 13, base := 0x10 }, { blk := 13, base := 0x14 },
    { blk := 13, base := 0x100, stride := 8, count := 14, reset := 0x640100,
      fields := [⟨16, 10, 1, 1023⟩, ⟨0, 13, 1, 4095⟩] },
    { blk := 13, base := 0x104, stride := 8, count := 14 },
    { blk := 13, base := 0x200, count := 8 } ] ++ mbRows 13 0x0300 4 ++
  [ { blk := 13, base := 0x100000, count := 262144 } ]

/-- IND (R86): six address and data pairs. -/
def indRows : List Row :=
  [ { blk := 14, base := 0x00, stride := 0x10, count := 6, fields := [⟨2, 30, 0, 2 ^ 30⟩] },
    { blk := 14, base := 0x04, stride := 0x10, count := 6 } ]

/-- The rows of a block (R72). -/
def blockRows (b : Nat) : List Row :=
  match b with
  | 0 => glbRows
  | 1 => hptRows
  | 2 => lnkPhyRows ++ lnkLlRows ++ ltpRows
  | 3 => swcRows
  | 4 => wttRows
  | 5 => dmaRows
  | 6 => insRows
  | 7 => evcRows
  | 8 => fltRows
  | 9 => calRows
  | 10 => strRows
  | 11 => galRows
  | 12 => pwrRows
  | 13 => trcRows
  | 14 => indRows
  | _ => []

/-- Whether a row holds the register at an offset of its block. -/
def Row.at (r : Row) (o : Nat) : Bool :=
  r.base ≤ o && o < r.base + r.stride * r.count && (o - r.base) % r.stride == 0

/-- The row of the register at an offset within a tile's control space (R72); `none` for a reserved address. -/
def findRow (off : Nat) : Option Row :=
  (blockRows (off / 0x1000000)).find? (fun r => r.at (off % 0x1000000))

/-- The clock domain of a block's registers (R432). -/
def blockDomain (b : Nat) : Nat :=
  match b with
  | 1 => 2
  | 2 => 1
  | 3 => 1
  | 4 => 18
  | 5 => 17
  | 6 => 1
  | 7 => 19
  | 9 => 20
  | 10 => 20
  | 11 => 24
  | _ => 21

/-- The tile offset of the event register in row `r` of the block-register table (R312). -/
def eventReg (r : Nat) : Option Nat :=
  if r < 4 then some (0x1000008 + 0x100 * r)
  else if r < 15 then some (0x2000008 + 0x100 * (r - 4))
  else if r < 26 then some (0x2000078 + 0x100 * (r - 15))
  else if r < 34 then some (0x200101C + 0x40 * (r - 26))
  else match r with
    | 34 => some 0x3000038
    | 35 => some 0x4000024
    | 36 => some 0x5000008
    | 37 => some 0x500021C
    | 38 => some 0x6000004
    | 39 => some 0x90000A8
    | 40 => some 0xB000008
    | 41 => some 0xC000028
    | 42 => some 0xD000004
    | _ => none

/-- The trace ring of an event register's block (R386): ring b belongs to block b of R39. -/
def eventRing (r : Nat) : Nat :=
  if r < 4 then 1 else if r < 34 then 2
  else match r with
    | 34 => 3 | 35 => 4 | 36 => 5 | 37 => 5 | 38 => 6 | 39 => 9 | 40 => 11 | 41 => 12 | _ => 13

/-- Whether a source of a tile is a level source by the table of R310; pins are as the image gives. -/
def levelByKind (src : Nat) : Bool :=
  (16384 ≤ src && src < 20480) || (20480 ≤ src && src < 22528 && (src - 20480) % 256 < 128) ||
  (24576 ≤ src && src < 26638)

/-- Whether a source number is one of the reserved ones, which never become pending (R310). -/
def reservedSource (src : Nat) : Bool :=
  (22592 ≤ src && src < 24576) || 26638 ≤ src

/-- ROUTE at tile reset (R315). -/
def routeReset (src : Nat) : Nat :=
  if 24576 ≤ src && src < 26624 then 1023 else if 26624 ≤ src && src < 26638 then 1022 else 2047

/-- EVC_SRC with no EVCMAP record (R32, R310, R315): pins and local lines disabled, every other source enabled, group 0
and PRIORITY 1; the fault sources at PRIORITY 15. -/
def evcSrcReset (src : Nat) : Nat :=
  let flt := 26624 ≤ src && src < 26638
  let off := 20480 ≤ src && src < 22592
  (if off then 0 else 2 ^ 31) + (if flt then 15 else 1) * 2 ^ 24 + (if levelByKind src then 2 ^ 30 else 0) + routeReset src

/-- Default class (0–3 = A–D), whether fixed, and whether attributable, of a fault cause (R332); `none` for a cause
number never raised. -/
def faultDefault (b c : Nat) : Option (Nat × Bool × Bool) :=
  match b, c with
  | _, 0 => some (2, false, false)
  | 0, 1 => some (3, true, false)
  | 0, 2 => some (3, true, false)
  | 0, 3 => some (2, false, false)
  | 0, 4 => some (2, false, false)
  | 1, 1 => some (2, false, false)
  | 1, 2 => some (1, false, true)
  | 2, 1 => some (2, false, false)
  | 2, 2 => some (0, false, false)
  | 2, 3 => some (0, true, false)
  | 2, 4 => some (0, true, false)
  | 2, 5 => some (0, false, false)
  | 3, 1 => some (0, false, false)
  | 3, 2 => some (2, false, false)
  | 4, 1 => some (2, false, false)
  | 4, 2 => some (1, false, true)
  | 5, 1 => some (1, false, true)
  | 5, 2 => some (1, false, true)
  | 6, 1 => some (2, false, false)
  | 6, 2 => some (0, false, false)
  | 7, 1 => some (2, false, false)
  | 8, 1 => some (0, false, false)
  | 9, 1 => some (0, false, false)
  | 9, 2 => some (0, true, false)
  | 9, 3 => some (0, false, false)
  | 10, 1 => some (0, false, false)
  | 11, 1 => some (0, false, false)
  | 11, 2 => some (0, false, false)
  | 12, 1 => some (0, false, false)
  | 12, 2 => some (3, true, false)
  | _, _ => none

/-- FLT_B_CFG{c} before any FAULT record: the default class and 10 ms (R332, R348). -/
def faultCfgReset (b c : Nat) : Nat :=
  match faultDefault b c with
  | some (cls, fixed, attr) => cls * 2 ^ 30 + b2n fixed * 2 ^ 29 + b2n attr * 2 ^ 28 + 10000
  | none => 0

/-- The reset value of the register at an offset within tile `t`'s control space. -/
def regReset (t off : Nat) : Word :=
  let b := off / 0x1000000
  let o := off % 0x1000000
  if b = 7 ∧ 0x20000 ≤ o ∧ o < 0x40000 then word (evcSrcReset ((o - 0x20000) / 4))
  else if b = 7 ∧ o = 0x1000 + 4 * 832 then 0xFFFFC000#32
  else if b = 7 ∧ o = 0x40000 + 16 * 1022 then word (3 * 2 ^ 29)
  else if b = 7 ∧ o = 0x40000 + 16 * 1023 then word (4 * 2 ^ 29 + 8 * t)
  else if b = 8 ∧ o < 0xE00 ∧ 0x20 ≤ o % 0x100 ∧ o % 0x100 < 0x40 then
    word (faultCfgReset (o / 0x100) ((o % 0x100 - 0x20) / 4))
  else match findRow off with
    | some r => if r.t0 && t ≠ 0 then 0 else word r.reset
    | none => 0

end Sys2Proof.Machine
end

