-- ==== Sys2Proof/Machine/State.lean ====
section
/-! DEFINITION. The state of the block as plain data: one group of fields for each unit the manual describes, the
register file, and the queue of waiting commands. -/

namespace Sys2Proof.Machine

open Sys2Proof

/-- The members of the family (R2). -/
inductive Part where
  | il280
  | il480
  | il880
  deriving DecidableEq, Repr

/-- Why the machine stops. -/
inductive Fault where
  /-- Raised by every meaning whose command names a tile, host link, LNK slot, switch port, queue, instance or
  mailbox the part does not have. Safe: the manual gives no such unit, so nothing is claimed of it. -/
  | noSuchUnit
  deriving DecidableEq, Repr

/-- Why an instruction has no meaning. -/
inductive Refusal where
  /-- Raised by an arm of `exec` whose command has no meaning in this model yet. Safe: nothing is claimed. -/
  | notModelled (mnemonic : String)
  deriving DecidableEq, Repr

/-! ## Power, modes, resets (03, 20) -/

/-- A mode command (R55). -/
inductive ModeCmd where
  | service
  | recovery
  | test
  deriving DecidableEq, Repr

/-- A test a tile runs (R64): its code in GLB_TEST_CTRL and its ports. -/
structure TestRun where
  code : Nat
  ports : BitVec 8
  deriving DecidableEq, Repr

/-- What a tile holds beside its registers (03): whether it is fenced, whether transit stops there (R20), the mode
command running (R55), the test running (R64), the tile reset under way and who asked for it (R67). -/
structure TileSt where
  fenced : Bool := false
  transitStop : Bool := false
  modeCmd : Option ModeCmd := none
  test : Option TestRun := none
  resetting : Bool := false
  resetBy : Nat := 0
  deriving DecidableEq, Repr

/-- The fused identity (R78) and root hash (R42). -/
structure Fuses where
  vendor : BitVec 16 := 0
  device : BitVec 16 := 0
  classCode : BitVec 24 := 0
  revision : BitVec 8 := 0
  subVendor : BitVec 16 := 0
  subsystem : BitVec 16 := 0
  serial : BitVec 64 := 0
  major : BitVec 4 := 0
  minor : BitVec 4 := 0
  rootHash : BitVec 256 := 0
  deriving DecidableEq, Repr

/-- Power, pins and tile states; `tapScan` is a boundary-scan instruction in the TAP, `scanned` the state it leaves the package
in until RESET_N or power loss (R65). -/
structure CoreSt where
  fuses : Fuses := {}
  pwrgood : Bool := true
  resetN : Bool := false
  mgrSel : Bool := false
  pkgId : BitVec 5 := 0
  thermtrip : Bool := false
  scanned : Bool := false
  tapScan : Bool := false
  tiles : Tbl TileSt := []
  deriving DecidableEq, Repr

/-! ## Register bus (04) -/

/-- A write on its way through a crossing queue (R88, R432): of a register; of the page of an instance; of a doorbell slot as one unit
(R75); of a partner to the local-side window from a local slot (R326); of CAL_TRIM, behind IND_CAL (R86). -/
inductive Posted where
  | reg (off : Nat) (be : BitVec 4) (v : Word)
  | page (i off : Nat) (be : BitVec 4) (v : Word)
  | door (i q : Nat) (ens : List Bool) (bytes : List Byte)
  | localWin (off t n : Nat) (v : Word)
  | trim (be : BitVec 4) (v : Word)
  deriving DecidableEq, Repr

/-- A mailbox command's outcome (R83): OK with the data words it returns, or a result code. -/
inductive MbEnd where
  | running
  | ok (data : List Word)
  | fails (code : Nat)
  deriving DecidableEq, Repr

/-- The register bus: TV copies 1 and 2 (R81), crossing queues per tile and domain (R88), mailbox commands by the
address of their MB_CTRL (R84). -/
structure BusSt where
  tv : Tbl (Word × Word) := []
  xq : Tbl (List Posted) := []
  mb : Tbl MbEnd := []
  deriving DecidableEq, Repr

/-! ## Memories (01, 02) -/

/-- MRAM of the tiles, tile t's byte a at t × 2 MiB + a, and the SPI flash. -/
structure MemSt where
  mram : List Host.Cell := []
  flash : List Host.Cell := []
  deriving DecidableEq, Repr

/-! ## Event controller (15) -/

/-- A message in service at a target (R318): its level, SEQ, source, and whether the source has vanished (R321). -/
structure Svc where
  level : Nat
  seq : Nat
  src : Nat
  vanished : Bool
  deriving DecidableEq, Repr

/-- The event controllers: ARRIVED flags by tile × 32,768 + source (R313), messages in service by tile × 1,024 + target
(R318), filtered pin levels by tile × 64 + pin (R311), the tick since which a target has had an eligible source
(R317), targets the resynchronisation of R324 still owes a message, messages committed and messages of the PBA to be tried
again, as instance and vector (R106). `pendAt` says of an instance's source, by tile × 32,768 + source, which serial was next when it became
pending, the serials of the completion entries that set it since, and whether a message has been committed for it (R228). -/
structure EvcSt where
  arrived : Tbl Unit := []
  svc : Tbl (List Svc) := []
  pins : Tbl Bool := []
  lines : Tbl Unit := []
  since : Tbl (Option Nat) := []
  resync : Tbl Unit := []
  hfDue : Tbl (List Nat) := []
  vecDue : List (Nat × Nat) := []
  vecRetry : List (Nat × Nat) := []
  pendAt : Tbl (Nat × List Nat × Bool) := []
  deriving DecidableEq, Repr

/-! ## Faults and dumps (16) -/

/-- A running deadline (R334, R335): the bank's tile and number, the cause, the instance and generation of a class B
entry, the time left in units of 1/512 µs, and whether it has expired while the instance's reset waits for a tile
reset (R347). -/
structure Deadline where
  tile : Nat
  bank : Nat
  cause : Nat
  inst : Option (Nat × Nat)
  left : Nat
  fired : Bool := false
  deriving DecidableEq, Repr

/-- Records lost while a bucket was empty (R388, R390): how many, the cause and time of the first, the time of the
last. -/
structure Loss where
  count : Nat := 0
  cause : Nat := 0
  firstS : Nat := 0
  firstSub : Nat := 0
  lastS : Nat := 0
  lastSub : Nat := 0
  deriving DecidableEq, Repr

/-- A dump request (R342): class, tile, bank, cause, the calendar time of the request, and the tiles whose sections are
lost. -/
structure DumpReq where
  cls : Nat
  tile : Nat
  block : Nat
  cause : Nat
  sec : Nat
  sub : Nat
  imageSeq : Word
  lost : List Nat := []
  deriving DecidableEq, Repr

/-- A dump being written: its request, slot and sequence (R342). -/
structure DumpRun where
  req : DumpReq
  slot : Nat
  seq : Nat
  deriving DecidableEq, Repr

/-- The fault blocks; `started` marks the dump slots that hold a start record (R341). -/
structure FltSt where
  deadlines : List Deadline := []
  recSeq : Tbl Nat := []
  tokensUsed : Tbl Nat := []
  lost : Tbl Loss := []
  dump : Option DumpRun := none
  dumpWait : Option DumpReq := none
  dumpReq : Option DumpReq := none
  releasing : Option Nat := none
  started : Tbl Unit := []
  deriving DecidableEq, Repr

/-! ## Traces and alarms (19) -/

/-- An alarm slot (R391, R392). -/
structure Alarm where
  active : Bool := false
  count : Nat := 0
  inst : Option Nat := none
  first : Nat := 0
  last : Nat := 0
  deriving DecidableEq, Repr

/-- Trace rings by (tile × 16 + ring): records written by × 8,192 + index, tokens taken in units of 1/32,768 token,
losses waiting for their summary, records written; the alarm slots by tile × 256 + type; frames offered to the
tailings log per tile. -/
structure TrcSt where
  recs : Tbl (List Byte) := []
  tokensUsed : Tbl Nat := []
  lost : Tbl Loss := []
  seq : Tbl Nat := []
  alarms : Tbl Alarm := []
  offered : Tbl Nat := []
  deriving DecidableEq, Repr

/-! ## Packets and frames (08, 09, 11) -/

/-- LTP packet types (R165). -/
inductive PType where
  | wr
  | rd
  | atomic
  | lockBegin
  | lockEnd
  | event
  | notice
  | rsp
  | rspD
  deriving DecidableEq, Repr

/-- An LTP packet: the header fields of R163, the data, and in a response the status of word 1 (R170). -/
structure Pkt where
  ty : PType
  cls : Nat := 0
  tag : Nat := 0
  len : Nat := 0
  inst : Nat := 0
  gen : Nat := 0
  opx : Nat := 0
  rlx : Bool := false
  ns : Bool := false
  ep : Bool := false
  glob : Bool := false
  addr : Nat := 0
  data : List Byte := []
  deriving DecidableEq, Repr

/-- A request of a host as its link's host port sends it on (R21, R22, R100): the inbound entry of a non-posted one, the
function, the instance and generation recorded at the host port, the BAR, the offset of the first DW within it, byte
enables, data. -/
structure HReq where
  entry : Option (Nat × Nat)
  link : Nat
  fn : Nat
  inst : Nat
  gen : Nat
  kind : MemKind
  bar : Nat
  off : Nat
  dws : Nat
  fbe : BitVec 4
  lbe : BitVec 4
  data : List Byte
  rlx : Bool
  ns : Bool
  deriving DecidableEq, Repr

/-- What a frame carries in place of an LTP packet (R184): nothing, a host request on its way to window resolution, to an
instance page or to control space, an Unlock that follows the requests of its function to their ports (R113, R225), an
access of a partner to the local-side window of its slot (R326), a zero-length read on its way to the output that holds it
(R229). -/
inductive Cargo where
  | ltp
  | window (r : HReq)
  | page (r : HReq)
  | control (r : HReq)
  | unlock (link fn : Nat)
  | localWin (t n : Nat)
  | zeroRead
  deriving DecidableEq, Repr

/-- Where a host request that passes R212 goes: the local port and sublink, the local address, the multicast group, whether the
location may be read ahead, and where its window ends in the BAR. -/
structure Hit where
  port : Nat
  sub : Nat
  addr : Nat
  group : Option Nat
  prefetch : Bool
  winEnd : Nat
  deriving DecidableEq, Repr

/-- Who waits for the answer to a frame, or is told of its end (R185): an inbound entry of a host port, a DMA read tag,
a DMA write, a held-read slot with the part of its read (part 64: the slot's own response, which gives it back as it is sent, R174), a
prefetch stream's read-ahead, a waiting lock, a management port's access, a wide message to nobody. -/
inductive Issuer where
  | nobody
  | inbound (t e : Nat)
  | dmaTag (t tag : Nat)
  | dmaWr (t w : Nat)
  | held (t n slot part : Nat)
  | stream (t k : Nat)
  | lock (t n : Nat)
  deriving DecidableEq, Repr

/-- A frame in the package: its packet, the items of its record (R185), the multicast group with the member bitmap of
its destination tile once the home tile has expanded it (R201), the PASID of a DMA request (R98), the function of a locked
read (R235), whether it leaves under the physical function's routing ID as the dirty log's writes do (R301), the receive pool it sits in as slot key, class and units (R188), and the serial number by which holds name
it (the model's own). `cargo` is what it carries in place of an LTP packet (R184), `srcSub` the link or sublink of its source port, `lack` the bytes of
its packet that have not yet arrived and `bad` that they will not arrive whole (R194, R195), `copy` the stored multicast copy that it was read from (R205). Destination port 12 is the tile's window translation, which is no switch port. -/
structure Frame where
  serial : Nat
  pkt : Pkt
  srcTile : Nat
  srcPort : Nat
  dstTile : Nat
  dstPort : Nat
  dstSub : Nat := 0
  mc : Option (Nat × Option Nat) := none
  issuer : Issuer := .nobody
  links : List (Nat × Nat) := []
  pasid : Option Nat := none
  locked : Option Nat := none
  asPf : Bool := false
  credit : Option (Nat × Nat × Nat) := none
  cargo : Cargo := .ltp
  srcSub : Nat := 0
  lack : Nat := 0
  bad : Bool := false
  copy : Option Nat := none
  deriving DecidableEq, Repr

/-- Frame-buffer accounts (R186): a Lode receive pool, the transit reservation, the host ingress reserve, a
class reserve, the shared area. -/
inductive Acct where
  | pool
  | transit
  | host
  | cls (c : Nat)
  | shared
  deriving DecidableEq, Repr

/-- A stored frame (R184): the account charged, its cells, the references held (R202), the port it came in by, when it was
enqueued, in units of 100 ns (R185), whether it is cut through (R194), and the first of its cells that an uncorrectable ECC error has
been found in (R195, R205). -/
structure Stored where
  f : Frame
  acct : Acct
  cells : Nat
  refs : Nat
  inPort : Nat
  enq : Nat
  cut : Bool := false
  ecc : Option Nat := none
  deriving DecidableEq, Repr

/-- The switch cores. Keys: a frame is tile × 2^32 + id; a queue ((tile × 19 + output) × 12 + input) × 4 + class; an
output tile × 19 + output, where outputs 0–3 are the host links k, 4–11 the local ports' sublinks 2p + s, 12–14
LEFT, RIGHT and ACROSS, 15–18 the ports 8–11; an ingress tile × 64 + port × 4 + link or sublink. `into` holds the frames a DMA engine is taking in before they have
arrived whole, by tile (R194); `mgmt` what port 10 of a tile has been given and not yet acted on; `idle` counts the
cycles of a port, tile × 12 + port, in which it had frames and none that could be sent (R206). -/
structure SwcSt where
  frames : Tbl Stored := []
  nextId : Nat := 0
  queues : Tbl (List (Nat × Option (Nat × Nat))) := []
  urgent : List Nat := []
  deficit : Tbl Int := []
  clsTurn : Tbl Nat := []
  inTurn : Tbl Nat := []
  ingress : Tbl (List Frame) := []
  waiting : Tbl (List Frame) := []
  turn : Tbl Nat := []
  groups : Tbl (List Nat) := []
  counts : Tbl Nat := []
  into : Tbl (List Frame) := []
  idle : Tbl Nat := []
  mgmt : Tbl (List Frame) := []
  deriving DecidableEq, Repr

/-- A posted frame on its way, for the holds of R228 and R229: serial, instance, the local slot it came in by, the host
link it goes to, the local slot it goes to, the multicast copies left, the host link that sent it, its instance's home
tile, whether a host's write has passed window resolution there, and whether it has left by its Lode link. -/
structure PostedRec where
  serial : Nat
  inst : Nat
  fromSlot : Option Nat
  toHost : Option Nat
  toSlot : Option Nat
  mc : Bool
  fromHost : Option Nat
  left : Nat := 1
  home : Nat := 0
  resolved : Bool := true
  sent : Bool := false
  deriving DecidableEq, Repr

/-- What a hold of R228 releases: a frame into the ingress of a port, an event of a local port, an MSI-X vector of an
instance, a stored host request whose resolution stands, of an instance and a host link. -/
inductive Held1 where
  | frame (t p : Nat) (f : Frame)
  | event (t n : Nat) (p : Pkt)
  | vector (i v : Nat)
  | request (t id : Nat) (hit : Hit) (inst link : Nat)
  deriving DecidableEq, Repr

/-- A hold: its number, the serials of the posted frames it waits for, what it releases, and whether a posted frame that has left
by its link is waited for no more (R224) or only one that its partner has acknowledged (R228). -/
structure Hold where
  id : Nat
  waits : List Nat
  item : Held1
  sentOk : Bool := false
  deriving DecidableEq, Repr

/-- Bridged transactions (11). `crossed` is the record each issuer keeps of the Lode links, as slot key and epoch, that its
outstanding request has crossed (R155). -/
structure BrgSt where
  crossed : List (Issuer × (Nat × Nat)) := []
  posted : List PostedRec := []
  holds : List Hold := []
  nextHold : Nat := 0
  serial : Nat := 0
  deriving DecidableEq, Repr

/-! ## Lode links (06, 07, 08) -/

/-- A flit held for resending or in the reorder buffer. -/
structure Flit where
  seq : Nat
  first : Nat
  abort : Bool
  payload : List Byte
  tails : List (Nat × Issuer) := []
  deriving DecidableEq, Repr

/-- A packet being packed (R144): the frame, the bytes not yet packed, whether its head has left, whether it is
aborted, and whether a cell of it holds an uncorrectable ECC error that its sending will meet (R195, R205). -/
structure TxJob where
  f : Frame
  rest : List Byte
  started : Bool
  abort : Bool
  ecc : Bool := false
  deriving DecidableEq, Repr

/-- What a flit of a tile link holds of a frame (R185, R194): the frame's record, how many bytes of its packet, whether the packet
begins and whether it ends in the flit. -/
structure Seg where
  f : Frame
  bytes : Nat
  first : Bool
  last : Bool
  deriving DecidableEq, Repr

/-- Credits by class: Posted, Request, Response, Control. -/
structure Cr4 where
  p : Nat := 0
  q : Nat := 0
  r : Nat := 0
  c : Nat := 0
  deriving DecidableEq, Repr

/-- A packet taken from a link, with the credit units it holds. -/
structure RxPkt where
  pkt : Pkt
  units : Nat
  deriving DecidableEq, Repr

/-- An open or running change (R132, R133): own request number, target rate and width, whether it has been accepted. -/
structure Change where
  req : Nat
  rate : Nat
  width : Nat
  accepted : Bool
  ours : Bool
  deriving DecidableEq, Repr

/-- A LNK slot beside its registers, by tile × 11 + slot. Physical layer: the attempts' lowered rate, what the partner
offered in IDENT, the open change, the request number. Link layer: as R147 to R156; a resend waiting is its SEQ and why: 0 after a
recovery, 1 a NAK, 2 the replay timer. `cut` is the frame whose packet is coming in and whose head has been handed on (R194); `pauseDue`
says that an accepted change begins once its LCR_ACK has left (R133). Training: what SYNC found of each physical lane, as lane, the
sender's LANE and inversion (R124); the inverted lanes; precoding asked for by this receiver, and in use to send and to receive (R119);
the rate, width and epoch fixed in IDENTIFY; the transmitter's preset and steps by rate × 8 + lane (R126); the failed lanes of this
receiver and of the partner's (R131). `codewords` tells of the last codewords which were uncorrectable (R136). -/
structure LinkSt where
  rateDrop : Nat := 0
  peerRate : Nat := 0
  peerWidth : Nat := 0
  change : Option Change := none
  reqNum : Option Nat := none
  locklossRun : Bool := false
  msgs : List (List Byte) := []
  txq : List TxJob := []
  replay : List Flit := []
  resend : List (Nat × Nat) := []
  pausing : Bool := false
  paused : Bool := false
  reorder : List Flit := []
  seen : Option Nat := none
  named : List Nat := []
  nakHeld : Bool := false
  began : Bool := false
  part : List Byte := []
  crHeld : Cr4 := {}
  crRet : Cr4 := {}
  crSent : Option Cr4 := none
  crTurn : Nat := 0
  pool : Option Nat := none
  badRun : Nat := 0
  rxq : List RxPkt := []
  rdWait : List RxPkt := []
  cut : Option Nat := none
  pauseDue : Bool := false
  lanes : List (Nat × Nat × Bool) := []
  inverted : List Nat := []
  precodeAsk : Bool := false
  precodeTx : Bool := false
  precodeRx : Bool := false
  aim : Option (Nat × Nat × Nat) := none
  coef : Tbl (Nat × List Int) := []
  rxFailed : List Nat := []
  txFailed : List Nat := []
  codewords : List Bool := []
  deriving DecidableEq, Repr

/-- A request of the device outstanding toward a partner (R172), with what R170 checks its answer by. -/
structure DevReq where
  issuer : Issuer
  ty : PType
  len : Nat
  inst : Nat
  gen : Nat
  rlx : Bool
  links : List (Nat × Nat)
  deriving DecidableEq, Repr

/-- The ends of one host read of a held read (R233). -/
structure HeldPart where
  off : Nat
  len : Nat
  status : Option Nat
  data : List Byte
  ep : Bool
  deriving DecidableEq, Repr

/-- A held read in its slot (R174, R233); `rsp` is the serial of its response once that is on its way. -/
structure HeldRd where
  pkt : Pkt
  parts : List HeldPart
  epoch : Nat
  link : Nat := 0
  rsp : Option Nat := none
  deriving DecidableEq, Repr

/-- The locks of a local slot (R235): the locked reads that wait for it in its queues, oldest first; the one whose LOCK_BEGIN
is queued or not yet answered; whether that LOCK_BEGIN has been sent; the holder as instance and function; the functions whose
lock has ended other than by Unlock (R238). -/
structure LockSt where
  wait : List Frame := []
  begun : Option Frame := none
  sent : Bool := false
  holder : Option (Nat × Nat) := none
  ended : List Nat := []
  deriving DecidableEq, Repr

/-- Lode links: slots by tile × 11 + slot; what the flits of a tile link hold of frames by (tile × 11 + slot) × 4,096 + SEQ; requests by
(tile × 8 + slot) × 4,096 + tag; quarantined tags; tags whose request ended with an epoch now past and that have not been used
since (R181); held reads by (tile × 8 + slot) × 64 + slot; locks; the image's
LOCAL_RATE by tile × 11 + slot. -/
structure LodeSt where
  links : Tbl LinkSt := []
  wire : Tbl (List Seg) := []
  tags : Tbl (Option DevReq) := []
  quar : Tbl Issuer := []
  past : Tbl Unit := []
  held : Tbl (Option HeldRd) := []
  locks : Tbl LockSt := []
  localRate : Tbl Nat := []
  deriving DecidableEq, Repr

/-! ## Host ports (05, 11) -/

/-- An inbound entry of a host port (R230): the host's request until its last completion is sent; whether window resolution has passed
it (R221), and for a read of a prefetchable location that no stream serves the BAR, its end and its window's end, from which the device reads
ahead once it has completed (R217). -/
structure Inb where
  link : Nat
  fn : Nat
  inst : Nat
  gen : Nat
  kind : MemKind
  tag : BitVec 14
  rid : BitVec 16
  addr : Nat
  len : Nat
  links : List (Nat × Nat)
  resolved : Bool := false
  ahead : Option (Nat × Nat × Nat) := none
  deriving DecidableEq, Repr

/-- A tag entry of a host port (R102): a device request outstanding toward a host. `expired` is the quarantine of
R103; `released` marks an entry whose issuer has been answered or whose reset has ended it. -/
structure TagEnt where
  link : Nat
  fn : Nat
  rid : Nat
  tag : Nat
  issuer : Issuer
  inst : Nat
  gen : Nat
  glob : Bool
  addr : Nat
  len : Nat
  expired : Bool
  links : List (Nat × Nat)
  got : List Byte := []
  poison : Bool := false
  deriving DecidableEq, Repr

/-- An MSI-X table entry (R105). -/
structure Vec where
  lo : Word := 0
  hi : Word := 0
  data : Word := 0
  ctl : Word := 1
  deriving DecidableEq, Repr

/-- A DOE mailbox (R111): the words of an object being written, the object that stands to be read, the Error bit. -/
structure Doe where
  wr : List Byte := []
  rd : List Byte := []
  err : Bool := false
  deriving DecidableEq, Repr

/-- A physical function a link presents, from a FUNCTIONS record (R34). -/
structure PfRec where
  link : Nat := 0
  pf : Nat := 0
  manager : Bool := false
  legacy : Bool := false
  msi : Bool := false
  totalVfs : Nat := 0
  vendor : Nat := 0
  device : Nat := 0
  subVendor : Nat := 0
  subsystem : Nat := 0
  revision : Nat := 0
  classCode : Nat := 0
  bar2 : Nat := 0
  bar4 : Nat := 0
  vfBar2 : Nat := 0
  vsec : List Byte := []
  deriving DecidableEq, Repr

/-- The host ports. Configuration words by (link × 65,536 + function) × 1,024 + DW; bindings by link × 65,536 +
function; shapes by link; bifurcation codes by tile (R33); ready states and DOE mailboxes by link; Secure streams, and those that failed their check, by link × 256 + stream; inbound and tag entries by tile × 1,024 and tile × 4,096 +
index; the stored frames that wait for window resolution, by home tile, with the resolution of one that has it (R213); vectors by tile × 65,536 + store index; PBA bits by instance × 2,048 + vector; the manager's vectors. -/
structure HostSt where
  cfg : Tbl Word := []
  bus : Tbl Nat := []
  bind : Tbl (Option Nat) := []
  shape : Tbl (List PfRec) := []
  maxRate : Tbl Nat := []
  hostBif : Tbl Nat := []
  upTo : Tbl Unit := []
  drs : Tbl Unit := []
  secure : Tbl Unit := []
  insecure : Tbl Unit := []
  inb : Tbl (Option Inb) := []
  tags : Tbl (Option TagEnt) := []
  tagWait : Tbl (List Frame) := []
  outq : Tbl (List Frame) := []
  vecs : Tbl Vec := []
  pba : Tbl Unit := []
  mgrVecs : Tbl Vec := []
  mgrPba : Tbl Unit := []
  resolve : Tbl (List (Nat × Option Hit)) := []
  sessions : Tbl Nat := []
  doe : Tbl Doe := []
  wakes : Tbl Unit := []
  deriving DecidableEq, Repr

/-! ## Windows and translation (10) -/

/-- A block of a prefetch stream (R217): the serial of its RD, its bytes, and its data once it has arrived. -/
structure Ahead where
  id : Nat
  len : Nat
  data : Option (List Byte) := none
  ep : Bool := false
  deriving DecidableEq, Repr

/-- A prefetch stream (R217): the instance and generation, the BAR and the offset at which its range begins, its blocks
in order, the stored host reads that wait for an RD of it, each with its resolution (R213), and the order of its last use. -/
structure Stream where
  inst : Nat
  gen : Nat
  bar : Nat
  start : Nat
  parts : List Ahead
  waiters : List (Nat × Hit)
  used : Nat
  deriving DecidableEq, Repr

/-- The running WTT_CMD (R221): code and instance, the posted frames, the reads and the read-aheads FENCE waits for, the generation
RESTAMP runs under. -/
structure WttRun where
  op : Nat
  inst : Nat
  waits : List Nat
  reads : List Issuer
  aheads : List Nat
  gen : Nat
  deriving DecidableEq, Repr

/-- The window descriptors by tile × 8,192 + number, eight words each; the WTT entries by tile × 2,097,152 + number,
four words each; the streams by tile × 256 + number; the running command by tile; the RDs of streams not yet answered, by
serial and instance. -/
structure WttSt where
  wins : Tbl (List Word) := []
  ents : Tbl (List Word) := []
  streams : Tbl (Option Stream) := []
  run : Tbl (Option WttRun) := []
  ahead : List (Nat × Nat) := []
  deriving DecidableEq, Repr

/-! ## What leaves the package -/

/-- Messages the device sends on a host link (R61, R108, R110). -/
inductive MsgKind where
  | drs
  | ltr
  | errCor
  | errNonfatal
  | errFatal
  deriving DecidableEq, Repr

/-- Everything the package sends outside, in the order sent: on Lode links flits and link-management states; on host
links completions, requests, messages, DOE objects, configuration completions (status 0 Successful, 1 Unsupported
Request, 2 Configuration Retry, 4 Completer Abort); pins; the ring; the regulator; the SMBus; register-bus reads
answered. -/
inductive Out where
  | flit (t n : Nat) (bytes : List Byte)
  | cpl (link : Nat) (rid : BitVec 16) (tag : BitVec 14) (status : Nat) (data : List Byte) (ep rlx ns : Bool)
  | cfgCpl (link fn status : Nat) (data : Word)
  | memRead (link rid tag addr len : Nat) (rlx ns : Bool) (pasid : Option Nat)
  | memWrite (link rid addr : Nat) (data : List Byte) (rlx ns ep : Bool) (pasid : Option Nat)
  | msg (link fn : Nat) (kind : MsgKind) (v : Word)
  | spdm (link : Nat) (object : List Byte)
  | doeError (link : Nat)
  | speed (link rate : Nat)
  | l0p (link width : Nat)
  | wake (link : Nat) (asserted : Bool)
  | thermtrip
  | train (t n : Nat) (rate width : Nat)
  | ring (ringB : Bool) (bytes : List Byte)
  | galSync
  | pmbus (address : Nat) (command : Nat) (data : BitVec 16)
  | smbus (command : BitVec 8) (data : List Byte)
  | read (tile off : Nat) (value : Word)
  deriving DecidableEq, Repr

/-! ## Instances (14) -/

/-- The states of an instance (R284). -/
inductive InstState where
  | free
  | unbound
  | bound
  deriving DecidableEq, Repr

/-- An instance's record (R284), its event bits and halt word (R308), and the reset or removal under way (R293). -/
structure Inst where
  state : InstState := .free
  frozen : Bool := false
  halted : Bool := false
  resetting : Bool := false
  released : Bool := false
  gen : Nat := 255
  pool : Nat := 0
  hseq : Nat := 0
  weight : Nat := 0
  handover : Bool := false
  toLink : Nat := 0
  fn : Option (Nat × Nat) := none
  qCount : Nat := 0
  qBase : Nat := 0
  etCount : Nat := 0
  wCount : Nat := 0
  wBase : Nat := 0
  etBase : Nat := 0
  wttBase : Nat := 0
  wttCount : Nat := 0
  vCount : Nat := 0
  vBase : Nat := 0
  events : Word := 0
  halt : Word := 0
  lastLink : Option Nat := none
  fromLink : Nat := 0
  deriving DecidableEq, Repr

/-- How an instance reset stands (R293): the steps of a stall (2) and of the drain (4), whether an FLR started it, and the
command or removal that waits for its end. -/
structure ResetRun where
  step : Nat
  flr : Bool
  mb : Option Nat := none
  removing : Bool := false
  byTile : Bool := false
  deriving DecidableEq, Repr

/-- An instance's dirty log (R300 to R308): its registers as the page shows them, entries decided and not yet written
as page and P with the serial of the write they wait for, the round's lost mark. -/
structure DirtyLog where
  ringLo : Word := 0
  ringHi : Word := 0
  cfg : Word := 0x400
  head : Nat := 0
  state : Word := 0x10000000
  clearTail : Word := 0
  due : List (Nat × Bool × Nat) := []
  round : Nat := 0
  clearWaits : List Nat := []
  clearEnts : Nat := 0
  lost : Bool := false
  newAt : Nat := 0
  clearMb : Option Nat := none
  deriving DecidableEq, Repr

/-- What a pool's instances may hold together, from its POOLS record (R35). -/
structure PoolRec where
  instances : Nat := 0
  queues : Nat := 0
  wttEntries : Nat := 0
  windows : Nat := 0
  evcTargets : Nat := 0
  vectors : Nat := 0
  shareBudget : Nat := 0
  linkMask : Word := 0
  deriving DecidableEq, Repr

/-- The instance units: pools by tile × 16 + pool; by instance number: records, resets under way, dirty logs, freezes under way with their mailbox;
the filter of each tile as instance, round and page. -/
structure InsSt where
  pools : Tbl PoolRec := []
  recs : Tbl Inst := []
  resets : Tbl (Option ResetRun) := []
  logs : Tbl DirtyLog := []
  filter : Tbl (List (Nat × Nat × Nat)) := []
  freezes : Tbl (Option Nat) := []
  busy : Tbl (Option Nat) := []
  deriving DecidableEq, Repr

/-! ## DMA (12, 13) -/

/-- Read data or an error status on its way to the read engine (R268): tag, status, data, poison. -/
structure DataIn where
  tag : Nat
  status : Nat
  data : List Byte
  ep : Bool
  deriving DecidableEq, Repr

/-- A descriptor (R254) with the ring or store index it was taken from. -/
structure Desc where
  ctrl : Word
  len : Nat
  src : Nat
  dst : Nat
  cookie : Nat
  idx : Nat
  deriving DecidableEq, Repr

/-- An issued read of a descriptor: its tag, its place in the source span, and how it ended. -/
structure DRead where
  tag : Nat
  off : Nat
  len : Nat
  status : Option Nat := none
  data : List Byte := []
  bad : Bool := false
  deriving DecidableEq, Repr

/-- An issued write of a descriptor: its number, its place in the destination span, and its settlement (R269). -/
structure DWrite where
  w : Nat
  off : Nat
  len : Nat
  status : Option Nat := none
  deriving DecidableEq, Repr

/-- A started descriptor (R271): the element it runs from, the class and weights recorded at its start (R277), the
source bytes read so far and destination bytes written so far, its requests, and whether it has an entry reserved.
`born` orders descriptors by their start. -/
structure Run where
  d : Desc
  born : Nat
  first : Nat := 0
  prio : Nat
  weight : Nat
  instWeight : Nat
  readTo : Nat
  reads : List DRead := []
  wroteTo : Nat
  writes : List DWrite := []
  entry : Bool
  bad : Bool := false
  deriving DecidableEq, Repr

/-- A completion entry to be written (R258). -/
structure CplEnt where
  idx : Nat
  cookie : Nat
  status : Nat
  elements : Nat
  irq : Bool
  deriving DecidableEq, Repr

/-- Why a queue halted or is about to (R246, R278): cause, write side, local, status, descriptor, address. -/
structure Halt where
  cause : Nat
  writeSide : Bool
  islocal : Bool
  status : Nat
  desc : Nat
  addr : Nat
  deriving DecidableEq, Repr

/-- A queue's engine state beside its context: descriptors fetched and unstarted, the inline store by index, started
descriptors oldest first, a SKIPPED entry waiting and whether it has its entry reserved, a failure of a fetch, aperture
or completion write, whether a settle period runs, the H and k it found while descriptors before H still complete, the H
and k of a latched bus error, whether the POLL interval runs, and the reads of the descriptor fetch under way with the number of its
descriptors (R250). -/
structure QEng where
  fetched : List Desc := []
  store : Tbl (List Byte) := []
  runs : List Run := []
  skipped : Option (CplEnt × Bool) := none
  failed : Option Halt := none
  settling : Bool := false
  stop : Option (Nat × Nat × Halt) := none
  halted : Option (Run × Nat) := none
  pollWait : Bool := false
  fetch : List DRead := []
  fetchN : Nat := 0
  held : Nat := 0
  deriving DecidableEq, Repr

/-- A read tag (R267): its queue, the slot key of the local port it was sent on (none: toward a host), the instance and generation
recorded, whether it is quarantined (R268), and whether it is so by a reset (R68, R293). -/
structure DTag where
  queue : Nat
  slot : Option Nat
  inst : Nat
  gen : Nat
  quar : Bool := false
  byReset : Bool := false
  deriving DecidableEq, Repr

/-- A write or completion entry on its way (R269): its queue, whether it is a completion entry, its address and side, its
descriptor. -/
structure DWr where
  queue : Nat
  isEntry : Bool
  addr : Nat
  desc : Nat
  islocal : Bool
  deriving DecidableEq, Repr

/-- The DMA blocks. Queue contexts by (tile × 16,384 + queue) × 16 + word; engine states by tile × 16,384 + queue; tags by
tile × 4,096 + tag; writes by tile × 2^32 + number; deficits of instances by (tile × 4 + class) × 512 + index, of queues by
(tile × 4 + class) × 16,384 + queue; weights in force at the last epoch boundary (R277), by queue and by instance;
urgent queues oldest first, by tile, as queue × 4 + class; byte counts by instance × 2 + kind. -/
structure DmaSt where
  dataIn : Tbl (List DataIn) := []
  settles : Tbl (List (Nat × Nat)) := []
  qctx : Tbl Word := []
  eng : Tbl QEng := []
  tags : Tbl (Option DTag) := []
  writes : Tbl (Option DWr) := []
  nextW : Nat := 0
  instDef : Tbl Int := []
  queueDef : Tbl Int := []
  share : Tbl Word := []
  instShare : Tbl Nat := []
  instTurn : Tbl Nat := []
  queueTurn : Tbl Nat := []
  ready : Tbl (List Nat) := []
  urgent : Tbl (List Nat) := []
  counts : Tbl Nat := []
  aborts : Tbl (List Issuer) := []
  deriving DecidableEq, Repr

/-! ## The structure image (02) -/

/-- What the image controller keeps in MRAM beside the slots (R42 to R45): the active-slot marker's three voted copies
(0 = A, 1 = B), the rollback floor, and the OTP region. -/
structure OtpSt where
  marker : List Nat := [0, 0, 0]
  floor : Nat := 0
  keyHash : Option (BitVec 256) := none
  makerId : Nat := 0
  deriving DecidableEq, Repr

/-- The image controller (R46 to R49): the stored entries of the load report; the command running, and whether PENDING
blocks it; the slots whose flash copies are under way; the TEST flag in force, that of the image active at the last package
start (R49); the MAKER_ID that the load report has been given (R31). -/
structure StrSt where
  report : List (List Byte) := []
  run : Option (Nat × Bool) := none
  copies : List Nat := []
  testFlag : Bool := false
  reportMaker : Nat := 0
  deriving DecidableEq, Repr

/-! ## Calendar and ageing (17) -/

/-- A voltage loop under way (R358, R361): the loop of a re-plan or an out-of-schedule raise, the steps made, the request
before the last step, whether that step lowered it, and whether an out-of-schedule raise has fallen due in a re-plan (R366). -/
structure VoltRun where
  plan : Bool
  steps : Nat
  before : Nat
  lowered : Bool
  due : Bool := false
  deriving DecidableEq, Repr

/-- A re-plan under way (R361): the tiles of its equalisation part, the tiles that write its record, the lanes whose trial has ended as (tile × 11 + slot) ×
128 + lane, and the receiver codes changed by tile. -/
structure PlanRun where
  tiles : List Nat
  recs : List Nat
  lanes : List Nat := []
  changes : Tbl Nat := []
  deriving DecidableEq, Repr

/-- The worst eye of a tile at the last re-plan (R356, R365): port code, lane, height, width. -/
structure EyeSt where
  port : Nat := 0
  lane : Nat := 0
  height : Nat := 0
  width : Nat := 0
  deriving DecidableEq, Repr

/-- The calendar (R350 to R354): time, place in the round of 32,768 ticks and the trim given in it, CAL_STATUS and CAL_TRIM,
the offset still to slew and the ticks of the slew, the last time a READ returned, the recorded power times, whether the
crystal stands still, its stop flag on VBAT, and whether the always-on domain has lost all power. -/
structure CalSt where
  sec : Nat := 0
  sub : Nat := 0
  round : Nat := 0
  given : Int := 0
  valid : Bool := false
  substitute : Bool := false
  following : Bool := false
  slewing : Bool := false
  trim : Int := 0
  slew : Int := 0
  slewTicks : Nat := 0
  lastRead : Nat := 0
  lost : Option (Nat × Nat) := none
  rise : Option (Nat × Nat) := none
  still : Bool := false
  stopFlag : Bool := false
  dead : Bool := false
  deriving DecidableEq, Repr

/-- Ageing (R355 to R367). Canary readings and baselines by tile × 64 + monitor, and the monitors that read out of range;
the voltage loop and the re-plan under way; the regulator's request step not yet acknowledged; raises not recorded and the
second of the last raise recorded, by tile; history records written since manufacture, by tile; worst eyes and lanes
low at the last re-plan, by tile, with the port codes of those lanes; ticks of an open maintenance window, by tile; equaliser codes by
(tile × 11 + slot) × 128 + lane. -/
structure AgeSt where
  now : Tbl Word := []
  base : Tbl Word := []
  bad : Tbl Unit := []
  volt : Option VoltRun := none
  plan : Option PlanRun := none
  raises : Tbl Nat := []
  lastRaise : Tbl (Option Nat) := []
  histSeq : Tbl Nat := []
  eyes : Tbl EyeSt := []
  lanesLow : Tbl Nat := []
  lowPorts : Tbl (List Nat) := []
  maintDue : Tbl Bool := []
  maintTicks : Tbl Nat := []
  eq : Tbl Int := []
  deriving DecidableEq, Repr

/-! ## The Gallery ring (18) -/

/-- A request of a remote mailbox (R376): operation, target, its frame's SEQ, offset, count, Headframe copy, data, and whether the
package serves it itself. -/
structure Rmt where
  op : Nat
  dest : Nat
  seq : Nat
  off : Nat
  count : Nat
  copy : Nat
  data : List Word
  isLocal : Bool
  deriving DecidableEq, Repr

/-- The Gallery ring (R370 to R384): the next SEQ, the frames this package sent last and the SEQs taken last from each source, newest
first; packages known to clash and packages lost; requests by mailbox; Headframe copies marked incomplete; the SECONDS of a valid TIME not
yet acted on; whether GAL_SYNC is due at the manager's next second. -/
structure GalSt where
  seq : Nat := 0
  sent : List (List Byte) := []
  taken : Tbl (List Nat) := []
  clash : Tbl Unit := []
  lost : Tbl Unit := []
  run : Tbl (Option Rmt) := []
  hfBad : Tbl Unit := []
  time : Option Nat := none
  syncDue : Bool := false
  deriving DecidableEq, Repr

/-! ## Power (20) -/

/-- The governors (R400, R401), by tile: estimates in units of 1/80 A, windows throttled without pause, windows of the present
millisecond and those of them throttled; the PMBus transaction to send again (R399). -/
structure PwrSt where
  est : Tbl Nat := []
  held : Tbl Nat := []
  win : Tbl Nat := []
  thr : Tbl Nat := []
  retry : Option Nat := none
  deriving DecidableEq, Repr

/-! ## The state -/

/-- The state of the package. `regs` is the register file, keyed by BAR0 address (R72); one not listed is at its reset value. `modes` is GLB_TILE_MODE by tile (R52). `outbox`, `fresh` and `ticks`
are the model's own (log entries 6, 7, 8). -/
structure State where
  part : Part := .il880
  regs : Tbl Word := []
  modes : Tbl Word := []
  core : CoreSt := {}
  bus : BusSt := {}
  mem : MemSt := {}
  evc : EvcSt := {}
  flt : FltSt := {}
  trc : TrcSt := {}
  swc : SwcSt := {}
  brg : BrgSt := {}
  lode : LodeSt := {}
  host : HostSt := {}
  wtt : WttSt := {}
  ins : InsSt := {}
  dma : DmaSt := {}
  otp : OtpSt := {}
  str : StrSt := {}
  cal : CalSt := {}
  age : AgeSt := {}
  gal : GalSt := {}
  pwr : PwrSt := {}
  outbox : List Out := []
  fresh : Nat := 0
  ticks : Nat := 0
  pending : List Instr := []
  deriving DecidableEq, Repr

/-- The tile count of a member (R2). -/
def Part.tiles : Part → Nat
  | .il280 => 2
  | .il480 => 4
  | .il880 => 8

/-- The machine right after power-up with RESET_N low (R57, R59): every tile OFF, GLB_RESET_CAUSE with POWER set, and
every register at its reset value. -/
def State.reset : State := {}

end Sys2Proof.Machine
end

