-- ==== Sys2Proof/Machine/Ops.lean ====
section
/-! DEFINITION. The named operations every family shares: registers and their fields, memories, the calendar's time
stamps, traces (R386 to R389), alarms (R391), event bits (R312) and edge sources (R313), fault records (R331, R340,
R390). -/

namespace Sys2Proof.Machine

open Sys2Proof

/-! ## Registers -/

/-- The BAR0 address of a register of tile `t` (R3). -/
abbrev key (t off : Nat) : Nat := t * 0x10000000 + off

/-- The stored value of a register: its reset value while none is listed (R78). -/
def rreg (s : State) (t off : Nat) : Word := Tbl.get (regReset t off) s.regs (key t off)

/-- Stores a register. -/
def wreg (s : State) (t off : Nat) (v : Word) : State :=
  { s with regs := Tbl.ins s.regs (key t off) v }

/-- Reads a field of a register. -/
def gf (s : State) (t off lo n : Nat) : Nat := fld (rreg s t off) lo n

/-- Writes a field of a register. -/
def sf (s : State) (t off lo n v : Nat) : State := wreg s t off (setFld (rreg s t off) lo n v)

/-- Counts a wrapping field up (R77). -/
def cf (s : State) (t off lo n : Nat) (k : Nat := 1) : State := wreg s t off (addFld (rreg s t off) lo n k)

/-- Counts a saturating field up. -/
def stf (s : State) (t off lo n : Nat) (k : Nat := 1) : State := wreg s t off (satFld (rreg s t off) lo n k)

/-- Offset of a register of LNK slot `n` (R139). -/
abbrev lnk (n o : Nat) : Nat := 0x2000000 + n * 0x100 + o

/-- Offset of an LTP register of slot `n` (R183). -/
abbrev ltp (n o : Nat) : Nat := 0x2001000 + n * 0x40 + o

/-- Offset of an SWC register of output port `p` (R206). -/
abbrev swcP (p o : Nat) : Nat := 0x3000100 + p * 0x20 + o

/-- Offset of an HPT register of link `k` of the tile (R117). -/
abbrev hpt (k o : Nat) : Nat := 0x1000000 + k * 0x100 + o

/-- Offset of a register of fault bank `b` (R348). -/
abbrev fltB (b o : Nat) : Nat := 0x8000000 + b * 0x100 + o

/-- A tile's state beside its registers. -/
def tileSt (s : State) (t : Nat) : TileSt := Tbl.get {} s.core.tiles t

/-- Replaces a tile's state. -/
def setTile (s : State) (t : Nat) (x : TileSt) : State :=
  { s with core := { s.core with tiles := Tbl.set {} s.core.tiles t x } }

/-- GLB_TILE_MODE.MODE, the tile's mode (R52): 0 OFF, 1 FIDDLEHEAD, 2 COMPOSE, 3 SERVICE, 4 RECOVERY, 5 TEST. -/
def tileMode (s : State) (t : Nat) : Nat := fld (Tbl.get 0 s.modes t) 0 4

/-- The mode a tile acts in: that of GLB_TILE_MODE, and none while RESET_N is low, which holds every tile in package reset (R66). -/
def mode (s : State) (t : Nat) : Nat := if s.core.resetN then tileMode s t else 0

/-- Sends something outside. -/
def emit (s : State) (o : Out) : State := { s with outbox := s.outbox ++ [o] }

/-- Fresh numbers for free values. -/
def tickFresh (s : State) (k : Nat := 1) : State := { s with fresh := s.fresh + k }

/-! ## Memories -/

namespace Mem

/-- A byte of a memory, `d` where no cell is listed. -/
def read (d : Byte) (m : List Host.Cell) (a : Nat) : Byte := Tbl.get d m a

/-- Stores a byte, keeping the canonical form. -/
def write (d : Byte) (m : List Host.Cell) (a : Nat) (b : Byte) : List Host.Cell := Tbl.set d m a b

/-- `n` bytes from an address up. -/
def readN (d : Byte) (m : List Host.Cell) (a : Nat) : Nat → List Byte
  | 0 => []
  | n + 1 => read d m a :: readN d m (a + 1) n

/-- The listed cells of a run of bytes. -/
def cells (d : Byte) (a : Nat) : List Byte → List Host.Cell
  | [] => []
  | b :: r => if b = d then cells d (a + 1) r else (a, b) :: cells d (a + 1) r

/-- Stores a run of bytes. -/
def writeN (d : Byte) (m : List Host.Cell) (a : Nat) (l : List Byte) : List Host.Cell :=
  m.filter (fun c => c.1 < a) ++ cells d a l ++ m.filter (fun c => a + l.length ≤ c.1)

/-- The canonical form of a memory. -/
def wf (d : Byte) (m : List Host.Cell) : Bool := Tbl.wf (fun _ => d) m

end Mem

/-- What a byte of MRAM that nothing has written reads as. DESIGN CHOICE, unsafe: log entry 5. -/
def mramDefault : Byte := 0

/-- What a byte of flash that nothing has written reads as: erased. DESIGN CHOICE, unsafe: log entry 5. -/
def flashDefault : Byte := 0xFF

/-- The memories stand in their canonical form: addresses rising, no cell equal to what an unlisted one reads as. -/
def Memory.wf (m : MemSt) : Bool := Mem.wf mramDefault m.mram && Mem.wf flashDefault m.flash

/-- The register file lists its addresses rising, each once. -/
def Registers.wf (r : Tbl Word) : Bool := Tbl.rising r

/-- `n` bytes of tile `t`'s MRAM. -/
def mramRead (s : State) (t a n : Nat) : List Byte := Mem.readN mramDefault s.mem.mram (t * 0x200000 + a) n

/-- Stores bytes in tile `t`'s MRAM. -/
def mramWrite (s : State) (t a : Nat) (l : List Byte) : State :=
  { s with mem := { s.mem with mram := Mem.writeN mramDefault s.mem.mram (t * 0x200000 + a) l } }

/-- `n` bytes of SPI flash. -/
def flashRead (s : State) (a n : Nat) : List Byte := Mem.readN flashDefault s.mem.flash a n

/-- Stores bytes in SPI flash. -/
def flashWrite (s : State) (a : Nat) (l : List Byte) : State :=
  { s with mem := { s.mem with flash := Mem.writeN flashDefault s.mem.flash a l } }

/-- Erases a run of SPI flash. -/
def flashErase (s : State) (a n : Nat) : State :=
  { s with mem := { s.mem with flash := s.mem.flash.filter (fun c => c.1 < a || a + n ≤ c.1) } }

/-! ## Alarms (R391) -/

/-- Sets a bit of TRC_EVENTS, which no trace ring records. -/
def trcEvent (s : State) (t b : Nat) : State := sf s t 0xD000004 b 1 1

/-- An alarm slot of a tile. -/
def alarmSlot (s : State) (t ty : Nat) : Alarm := Tbl.get {} s.trc.alarms (t * 256 + ty)

/-- Replaces an alarm slot. -/
def setAlarm (s : State) (t ty : Nat) (a : Alarm) : State :=
  { s with trc := { s.trc with alarms := Tbl.set {} s.trc.alarms (t * 256 + ty) a } }

/-- A raise of an alarm type (R391, R393). -/
def alarm (s : State) (t ty : Nat) (inst : Option Nat := none) : State :=
  let a := alarmSlot s t ty
  let now := s.cal.sec % 2 ^ 32
  if a.active then
    setAlarm s t ty { a with count := Nat.min 0xFFFFFFFF (a.count + 1), last := now,
                             inst := if inst.isSome then inst else a.inst }
  else trcEvent (setAlarm s t ty { active := true, count := 1, inst := inst, first := now, last := now }) t 0

/-! ## Trace rings (R386 to R388) -/

/-- Records a ring holds (R386). -/
def ringSize (b : Nat) : Nat :=
  match b with
  | 0 => 1024
  | 1 => 4096
  | 2 => 8192
  | 3 => 4096
  | 4 => 2048
  | 5 => 4096
  | 6 => 2048
  | 7 => 2048
  | 8 => 1024
  | 9 => 512
  | 10 => 512
  | 11 => 512
  | 12 => 512
  | _ => 1024

/-- Whether a ring's bucket holds a token (R388). -/
def hasToken (s : State) (t b : Nat) : Bool :=
  Tbl.get 0 s.trc.tokensUsed (t * 16 + b) + 32768 ≤ gf s t (0xD000100 + 8 * b) 0 13 * 32768

/-- Takes a token. -/
def takeToken (s : State) (t b : Nat) : State :=
  let used := Tbl.get 0 s.trc.tokensUsed (t * 16 + b) + 32768
  { s with trc := { s.trc with tokensUsed := Tbl.set 0 s.trc.tokensUsed (t * 16 + b) used } }

/-- Writes a record at a ring's NEXT index (R387). -/
def ringPut (s : State) (t b : Nat) (bytes : List Byte) : State :=
  let i := gf s t (0xD000104 + 8 * b) 0 13
  let s := { s with trc := { s.trc with
      recs := Tbl.set [] s.trc.recs ((t * 16 + b) * 8192 + i) bytes
      seq := Tbl.set 0 s.trc.seq (t * 16 + b) ((Tbl.get 0 s.trc.seq (t * 16 + b) + 1) % 2 ^ 32) } }
  sf s t (0xD000104 + 8 * b) 0 13 (if i + 1 = ringSize b then 0 else i + 1)

/-- The two bytes of a record that name an instance. -/
def instField (inst : Option Nat) : Nat :=
  match inst with
  | some i => i % 4096
  | none => 0x8000

/-- A trace record (R387); `extra` pads the records of ring 13. -/
def traceBytes (s : State) (t b kind sub sec : Nat) (inst : Option Nat) (data : List Byte) : List Byte :=
  leBytes 4 sub ++ leBytes 4 sec ++ [BitVec.ofNat 8 b, BitVec.ofNat 8 kind] ++ leBytes 2 (instField inst) ++
  leBytes 4 (Tbl.get 0 s.trc.seq (t * 16 + b)) ++ bytesAt data 0 16 ++
  List.replicate (if b = 13 then 32 else 0) 0

/-- Whether a ring is held (R388). -/
def ringHeld (s : State) (t b : Nat) : Bool := bit (rreg s t 0xD000000) b

/-- A ring's loss summary, once it has a token and HOLD is 0 (R388). -/
def traceSummary (s : State) (t b : Nat) : State :=
  let l := Tbl.get {} s.trc.lost (t * 16 + b)
  if l.count = 0 ∨ hasToken s t b = false ∨ ringHeld s t b then s else
  let s := takeToken s t b
  let s := ringPut s t b (traceBytes s t b 0xFF l.lastSub l.lastS none
    (leBytes 4 (Nat.min 0xFFFFFFFF l.count) ++ leBytes 4 l.firstSub ++ leBytes 4 l.firstS))
  let s := { s with trc := { s.trc with lost := Tbl.set {} s.trc.lost (t * 16 + b) {} } }
  alarm (trcEvent s t 1) t 112

/-- A record that was not written (R388). -/
def traceLose (s : State) (t b : Nat) : State :=
  let l := Tbl.get {} s.trc.lost (t * 16 + b)
  let sec := s.cal.sec % 2 ^ 32
  let l' : Loss := if l.count = 0 then ⟨1, 0, sec, s.cal.sub, sec, s.cal.sub⟩
    else { l with count := l.count + 1, lastS := sec, lastSub := s.cal.sub }
  cf { s with trc := { s.trc with lost := Tbl.set {} s.trc.lost (t * 16 + b) l' } } t (0xD000104 + 8 * b) 16 16

/-- A record generated on a ring under its token bucket (R388), from the bytes it will hold. -/
def traceGen (s : State) (t b : Nat) (bytes : State → List Byte) : State :=
  let s := traceSummary s t b
  if ringHeld s t b ∨ hasToken s t b = false then traceLose s t b
  else ringPut (takeToken s t b) t b (bytes s)

/-- A 32-byte record of a block's ring at the calendar's time; ring numbers above 12 record nothing. -/
def trace (s : State) (t b kind : Nat) (inst : Option Nat) (data : List Byte) : State :=
  if 12 < b then s else
  traceGen s t b (fun s => traceBytes s t b kind s.cal.sub (s.cal.sec % 2 ^ 32) inst data)

/-! ## Events -/

/-- The block's last-refusal or last-event register for an event bit, where the block has one (R387). -/
def lastReg (r b : Nat) : Option Nat :=
  match r, b with
  | 35, b => if b < 7 then some 0x4000010 else none
  | 36, _ => some 0x500000C
  | 37, 0 => some 0x5000214
  | 38, _ => some 0x6000008
  | _, _ => none

/-- DATA of an event's record (R387): byte 0 is the row of R312 where the block has several event registers, and bytes 4 to 7 what the
block's last-refusal or last-event register records (DESIGN CHOICE: the place of the block detail, log entry 68). -/
def eventData (s : State) (t r b : Nat) : List Byte :=
  let several := decide (r ≤ 33) || r == 36 || r == 37
  leBytes 4 (if several then r else 0) ++
  (match lastReg r b with
   | some off => wordBytes (rreg s t off)
   | none => [])

/-- A hardware setting of bit `b` of the event register in row `r` of R312, with its trace record (R387). -/
def evt (s : State) (t r b : Nat) (inst : Option Nat := none) : State :=
  match eventReg r with
  | some off => trace (sf s t off b 1 1) t (eventRing r) b inst (eventData s t r b)
  | none => s

/-- Offset of EVC_SRC{s}. -/
abbrev evcSrc (src : Nat) : Nat := 0x7020000 + 4 * src

/-- Notes that an instance's source becomes pending (R228): posted frames sent up to now go before its message. A source that was pending
and has had no message committed keeps what was noted. -/
def notePend (s : State) (t src : Nat) (anew : Bool) : State :=
  let k := t * 32768 + src
  let keep : Bool := match Tbl.find? s.evc.pendAt k with
    | some (_, _, done) => !anew && !done
    | none => false
  if 20480 ≤ src ∨ keep then s
  else { s with evc := { s.evc with pendAt := Tbl.ins s.evc.pendAt k (s.brg.serial, [], false) } }

/-- A hardware edge of a source: pending and ARRIVED set together, if the source is enabled (R310, R313); a controller held
in reset samples nothing (R52). -/
def edge (s : State) (t src : Nat) : State :=
  if gf s t (evcSrc src) 31 1 = 0 ∨ reservedSource src ∨ mode s t ≤ 1 ∨ (tileSt s t).fenced then s else
  let s := notePend s t src (gf s t (0x7000000 + 4 * (src / 32)) (src % 32) 1 == 0)
  let s := sf s t (0x7000000 + 4 * (src / 32)) (src % 32) 1 1
  { s with evc := { s.evc with arrived := Tbl.ins s.evc.arrived (t * 32768 + src) () } }

/-! ## Faults (R331, R340, R390) -/

/-- An instance's record. -/
def instOf (s : State) (i : Nat) : Inst := Tbl.get {} s.ins.recs i

/-- The class a cause acts as, 0 to 3 for A to D (R348). -/
def faultClass (s : State) (t b c : Nat) : Nat := gf s t (fltB b (0x20 + 4 * c)) 30 2

/-- The escalation time of a cause in µs (R348). -/
def escalation (s : State) (t b c : Nat) : Nat := gf s t (fltB b (0x20 + 4 * c)) 0 24

/-- A fault record's 32 bytes (R340). -/
def faultBytes (s : State) (t b c cls : Nat) (inst : Option Nat) (gen action detail sec sub : Nat) : List Byte :=
  leBytes 6 sec ++ [0, 0] ++ leBytes 4 sub ++
  [BitVec.ofNat 8 t, BitVec.ofNat 8 b, BitVec.ofNat 8 c, BitVec.ofNat 8 cls] ++ leBytes 2 (instField inst) ++
  [BitVec.ofNat 8 gen, BitVec.ofNat 8 (mode s t), BitVec.ofNat 8 action, 0] ++ leBytes 6 detail ++
  leBytes 4 (Tbl.get 0 s.flt.recSeq t)

/-- Writes a fault record into the tile's MRAM ring of 4,096 (R340). -/
def recordPut (s : State) (t : Nat) (bytes : List Byte) : State :=
  let n := Tbl.get 0 s.flt.recSeq t
  let s := mramWrite s t (0x1E0000 + 32 * (n % 4096)) bytes
  let s := { s with flt := { s.flt with recSeq := Tbl.set 0 s.flt.recSeq t ((n + 1) % 2 ^ 32) } }
  cf (sf s t 0x8000E00 0 12 ((n + 1) % 4096)) t 0x8000E00 16 16

/-- Whether the tile's fault-record bucket holds a token: BURST 64 (R390). -/
def faultToken (s : State) (t : Nat) : Bool := Tbl.get 0 s.flt.tokensUsed t + 32768 ≤ 64 * 32768

/-- A record under the bucket of R390, or past it when `bypass`; one that finds the bucket empty is counted lost. -/
def recordFaultRec (s : State) (t b c cls : Nat) (inst : Option Nat) (gen action detail : Nat)
    (bypass : Bool) : State :=
  if bypass then recordPut s t (faultBytes s t b c cls inst gen action detail s.cal.sec s.cal.sub)
  else if faultToken s t then
    let s := recordPut s t (faultBytes s t b c cls inst gen action detail s.cal.sec s.cal.sub)
    let used := Tbl.get 0 s.flt.tokensUsed t + 32768
    { s with flt := { s.flt with tokensUsed := Tbl.set 0 s.flt.tokensUsed t used } }
  else
    let l := Tbl.get {} s.flt.lost (t * 16 + b)
    let sec := s.cal.sec
    let l' : Loss := if l.count = 0 then ⟨1, c, sec, s.cal.sub, sec, s.cal.sub⟩
      else { l with count := l.count + 1, lastS := sec, lastSub := s.cal.sub }
    { s with flt := { s.flt with lost := Tbl.set {} s.flt.lost (t * 16 + b) l' } }

/-- Whether a tile records only: in FIDDLEHEAD or fenced (R336). -/
def recordsOnly (s : State) (t : Nat) : Bool := mode s t == 1 || (tileSt s t).fenced

/-- Recording, without the reaction of the class (R331): cause and new bits, FIRST and LAST, RECORDED, the MRAM record
and the trace record. -/
def recordBase (s : State) (t b c cls : Nat) (inst : Option Nat) (action detail : Nat) : State :=
  let gen := match inst with
    | some i => (instOf s i).gen
    | none => 0
  let first := gf s t (fltB b 0) 0 8 = 0
  let isNew := gf s t (fltB b 0) c 1 = 0
  let w := word (cls * 2 ^ 30 + b2n inst.isSome * 2 ^ 29 + c * 2 ^ 24 + gen * 2 ^ 12 + inst.getD 0)
  let s := sf (sf s t (fltB b 0) c 1 1) t (fltB b 4) c 1 1
  let s := wreg s t (fltB b 0x10) w
  let s := if first then wreg s t (fltB b 0xC) w else s
  let s := cf s t (fltB b 0x14) 16 16
  let s := recordFaultRec s t b c cls inst gen action detail (isNew || action == 1 || action == 2 || action == 3)
  trace s t b 0x80 inst (BitVec.ofNat 8 c :: 0 :: leBytes 6 detail)

/-! ## Posted frames and settlement (R228) -/

/-- A serial number for a frame. -/
def newSerial (s : State) : Nat × State :=
  (s.brg.serial, { s with brg := { s.brg with serial := s.brg.serial + 1 } })

/-- A posted frame reaches the point where the far protocol keeps its order, or ends: nothing waits for it any more. A
multicast frame does so when its last copy has. -/
def settle (s : State) (serial : Nat) : State :=
  { s with brg := { s.brg with
      posted := s.brg.posted.filterMap (fun r =>
        if r.serial = serial then (if r.left ≤ 1 then none else some { r with left := r.left - 1 }) else some r) } }

/-- Whether the part has an instance number (R2). -/
def instOk (s : State) (i : Nat) : Bool := decide (i < 512 * s.part.tiles)

end Sys2Proof.Machine
end

