-- ==== Sys2Proof/Machine/HostCfg.lean ====
section
/-! DEFINITION. The functions a host link presents and their configuration space (R95 to R99): routing, capability chain,
stored words, and the AER log (R108). The layouts inside the standard capabilities are the PCI Express base
specification's, PRESUMED by log entry 20. -/

namespace Sys2Proof.Machine

open Sys2Proof

/-! ## The link -/

/-- HPT_LINK_STATUS of a link, a field. -/
def hls (s : State) (h lo n : Nat) : Nat := gf s (h / 4) (hpt (h % 4) 0) lo n

/-- Writes a field of HPT_LINK_STATUS. -/
def setHls (s : State) (h lo n v : Nat) : State := sf s (h / 4) (hpt (h % 4) 0) lo n v

/-- Any TLP to send or taken brings a link in L1 back to L0 (R94). -/
def leaveL1 (s : State) (h : Nat) : State := if hls s h 24 4 = 6 then setHls s h 24 4 5 else s

/-- A key of link `h` in a table by link × 256 + number. -/
def ofLink (h k : Nat) : Bool := k / 256 == h

/-! ## Functions -/

/-- A function of a link: a physical function, or VF v (from 1) of one. -/
structure FnRef where
  pf : PfRec
  vf : Option Nat
  deriving DecidableEq, Repr

/-- The tile of a host link (R10). -/
abbrev linkTile (h : Nat) : Nat := h / 4

/-- Whether a bifurcation uses host link `k` of its tile (R10). -/
def linkUsed (bifc k : Nat) : Bool := if bifc = 0 then k == 0 else if bifc = 1 then k == 0 || k == 2 else decide (k < 4)

/-- Whether a host link exists under its port's bifurcation in force (R10). -/
def linkPresent (s : State) (h : Nat) : Bool :=
  decide (h < 4 * s.part.tiles) && linkUsed (Tbl.get 0 s.host.hostBif (h / 4)) (h % 4)

/-- The physical functions a link presents, in PF order. -/
def pfsOf (s : State) (h : Nat) : List PfRec := Tbl.get [] s.host.shape h

/-- Key of a function. -/
abbrev fnKey (h f : Nat) : Nat := h * 65536 + f

/-- First VF Offset of PF `p` (R96). -/
def firstVf (l : List PfRec) (p : Nat) : Nat :=
  (l.length - p) + ((l.take p).map PfRec.totalVfs).sum

/-- Which PF and VF index a function number names, from the records alone (R96). -/
def fnRefOf (l : List PfRec) (f : Nat) : Option FnRef :=
  match l[f]? with
  | some r => some ⟨r, none⟩
  | none =>
    let rec go (rs : List PfRec) (at0 : Nat) : Option FnRef :=
      match rs with
      | [] => none
      | r :: rest => if f < at0 + r.totalVfs then some ⟨r, some (f - at0 + 1)⟩ else go rest (at0 + r.totalVfs)
    go l l.length

/-- The BAR size a control byte gives, 0 where the BAR is absent (R34). -/
def barSize (b : Nat) : Nat := if 128 ≤ b then 2 ^ (b % 64) else 0

/-- Sizes of a function's BAR0, BAR2 and BAR4 (R95). -/
def fnBars (r : FnRef) : Nat × Nat × Nat :=
  match r.vf with
  | some _ => (0x20000, barSize r.pf.vfBar2, 0)
  | none => if r.pf.manager then (2 ^ 32, 0, 0) else (0x20000, barSize r.pf.bar2, barSize r.pf.bar4)

/-- The low bits of a 64-bit BAR: type and prefetchable (R95). -/
def barType (size : Nat) (pf : Bool) : Nat := if size = 0 then 0 else if pf then 0xC else 0x4

/-- Whether a BAR control byte marks the BAR prefetchable. -/
def barPf (b : Nat) : Bool := b / 64 % 2 == 1

/-- A capability's presence on a function, by offset (R95). -/
def capOn (l : List PfRec) (r : FnRef) (off : Nat) : Bool :=
  let pf0 := r.pf.pf == 0 && r.vf.isNone
  let isPf := r.vf.isNone
  match off with
  | 0x040 => true
  | 0x050 => true
  | 0x090 => true
  | 0x0A0 => isPf && r.pf.msi
  | 0x100 => true
  | 0x180 => true
  | 0x1A0 => isPf && decide (0 < r.pf.totalVfs)
  | 0x1F0 => isPf && (decide (1 < l.length) || l.any (fun x => decide (0 < x.totalVfs)))
  | 0x210 => !r.pf.manager
  | 0x480 => true
  | 0x700 => isPf && !r.pf.vsec.isEmpty
  | 0x200 => pf0
  | 0x220 => pf0
  | 0x260 => pf0
  | 0x280 => pf0
  | 0x300 => pf0
  | 0x380 => pf0
  | 0x400 => pf0
  | 0x4A0 => pf0
  | 0x4C0 => pf0
  | _ => false

/-- The offsets of the extended capability chain, in order (R95). -/
def extCaps : List Nat :=
  [0x100, 0x180, 0x1A0, 0x1F0, 0x200, 0x210, 0x220, 0x260, 0x280, 0x300, 0x380, 0x400, 0x480, 0x4A0, 0x4C0, 0x700]

/-- The capability ID and version of an extended capability. PRESUMED: log entry 20. -/
def extCapId (off : Nat) : Nat :=
  match off with
  | 0x100 => 0x20001
  | 0x180 => 0x1000E
  | 0x1A0 => 0x10010
  | 0x1F0 => 0x1000D
  | 0x200 => 0x10018
  | 0x210 => 0x1001B
  | 0x220 => 0x10019
  | 0x260 => 0x10025
  | 0x280 => 0x10026
  | 0x300 => 0x1002A
  | 0x380 => 0x10031
  | 0x400 => 0x10035
  | 0x480 => 0x1002F
  | 0x4A0 => 0x1002E
  | 0x4C0 => 0x10030
  | _ => 0x1000B

/-- The header of an extended capability, linked to the next one the function carries (R95). -/
def extHeader (l : List PfRec) (r : FnRef) (off : Nat) : Nat :=
  let next := ((extCaps.filter (fun o => off < o)).find? (fun o => capOn l r o)).getD 0
  extCapId off + next * 2 ^ 20

/-- Whether an offset is the status register of an IDE stream: the link stream's, or a selective stream's. PRESUMED: log entry 20. -/
def ideStatus (off : Nat) : Bool := off == 0x4D0 || (decide (0x4D4 ≤ off) && decide (off < 0x5D4) && (off - 0x4D4) % 32 == 8)

/-- The bits of an IDE register that software writes: the link stream's control, and each selective stream's control and associations.
PRESUMED: log entry 20. -/
def ideMask (off : Nat) : Nat :=
  if off = 0x4CC then 0xFF380001
  else if off < 0x4D4 ∨ 0x5D4 ≤ off then 0
  else match (off - 0x4D4) % 32 with
    | 4 => 0xFF380001
    | 12 => 0xFFFF00
    | 16 => 0xFFFF01
    | 20 => 0xFFFFFF01
    | 24 => 0xFFFFFFFF
    | 28 => 0xFFFFFFFF
    | _ => 0

/-- A configuration word as it stands after the function's reset (R95): Slot Clock Configuration reads 0 (R91). -/
def cfgReset (l : List PfRec) (r : FnRef) (maxRate : Nat) (dw : Nat) : Word :=
  let off := 4 * dw
  let isPf := r.vf.isNone
  let bars := fnBars r
  let multi := decide (1 < l.length)
  word <|
    if off = 0x00 then
      (if isPf then r.pf.vendor + r.pf.device * 65536 else 0xFFFF + 0xFFFF * 65536)
    else if off = 0x04 then 0x100000
    else if off = 0x08 then r.pf.revision + r.pf.classCode * 256
    else if off = 0x0C then (if multi && isPf then 0x800000 else 0)
    else if off = 0x10 then (if isPf then barType bars.1 false else 0)
    else if off = 0x18 then (if isPf then barType bars.2.1 (barPf r.pf.bar2) else 0)
    else if off = 0x20 then (if isPf then barType bars.2.2 (barPf r.pf.bar4) else 0)
    else if off = 0x2C then r.pf.subVendor + r.pf.subsystem * 65536
    else if off = 0x34 then 0x40
    else if off = 0x40 then 0x00035001
    else if off = 0x44 then 0x8
    else if off = 0x50 then 0x00029010 + (if isPf && r.pf.legacy then 0x100000 else 0)
    else if off = 0x54 then 0x10008022
    else if off = 0x58 then 0x2010
    else if off = 0x5C then (if maxRate = 0 then 1 else maxRate) + 0x10 * 16 + 0x800 + 0x18000 + 0x400000
    else if off = 0x74 then
      0x30017 + (if r.pf.manager then 0 else 0x700380) + (if r.pf.pf = 0 ∧ isPf then 0x800 else 0)
    else if off = 0x7C then (2 ^ Nat.max 1 maxRate - 1) * 2 + 0x80000000
    else if off = 0x80 then (if isPf then Nat.max 1 maxRate else 0)
    else if off = 0x90 then 0x0011 + (if capOn l r 0xA0 then 0xA000 else 0) + (if r.pf.manager then 63 * 65536 else 0)
    else if off = 0x94 then (if r.pf.manager then linkTile r.pf.link * 0x10000000 + 0x100000 else 0x10000)
    else if off = 0x98 then (if r.pf.manager then linkTile r.pf.link * 0x10000000 + 0x101000 else 0xC000)
    else if off = 0xA0 then (if capOn l r 0xA0 then 0x018A0005 else 0)
    else if extCaps.contains off then (if capOn l r off then extHeader l r off else 0)
    else if off = 0x108 then 0x00400000
    else if off = 0x10C then 0x00062030
    else if off = 0x114 then 0xE000
    else if off = 0x118 then 0xA0
    else if off = 0x184 then (if isPf && decide (r.pf.pf + 1 < l.length) then (r.pf.pf + 1) * 256 else 0)
    else if capOn l r 0x1A0 && off = 0x1A4 then 0x2
    else if capOn l r 0x1A0 && off = 0x1AC then r.pf.totalVfs + r.pf.totalVfs * 65536
    else if capOn l r 0x1A0 && off = 0x1B4 then firstVf l r.pf.pf + 65536
    else if capOn l r 0x1A0 && off = 0x1B8 then (r.pf.device + 1) % 65536 * 65536
    else if capOn l r 0x1A0 && off = 0x1BC then 0x553
    else if capOn l r 0x1A0 && off = 0x1C0 then 0x1
    else if capOn l r 0x1A0 && off = 0x1C4 then 0x4
    else if capOn l r 0x1A0 && off = 0x1CC then barType (barSize r.pf.vfBar2) (barPf r.pf.vfBar2)
    else if capOn l r 0x1F0 && off = 0x1F4 then 0x1C
    else if capOn l r 0x210 && off = 0x214 then 0x1400
    else if capOn l r 0x480 && off = 0x484 then (if isPf then 0xE else 0x6)
    else if capOn l r 0x4C0 && off = 0x4C4 then 0x70043
    else if capOn l r 0x4C0 && decide (0x4D4 ≤ off) && decide (off < 0x5D4) && (off - 0x4D4) % 32 == 0 then 1
    else if capOn l r 0x700 && decide (0x704 ≤ off) && decide (off < 0x704 + r.pf.vsec.length) then leAt r.pf.vsec (off - 0x704) 4
    else 0

/-- The bits of a configuration word that software writes; the ACS controls read back as written and act on nothing
(R109). PRESUMED: log entry 20. -/
def cfgMask (l : List PfRec) (r : FnRef) (dw : Nat) : Word :=
  let off := 4 * dw
  let isPf := r.vf.isNone
  let bars := fnBars r
  let barLo (size : Nat) : Nat := if size = 0 ∨ ¬ isPf then 0 else 2 ^ 32 - Nat.min (2 ^ 32) size
  let barHi (size : Nat) : Nat := if size = 0 ∨ ¬ isPf then 0 else 2 ^ 32 - Nat.max 1 (size / 2 ^ 32)
  let vfs := barSize r.pf.vfBar2
  word <|
    if off = 0x04 then (if isPf then 0x546 else 0x4)
    else if off = 0x0C then 0xFF
    else if off = 0x10 then barLo bars.1
    else if off = 0x14 then barHi bars.1
    else if off = 0x18 then barLo bars.2.1
    else if off = 0x1C then barHi bars.2.1
    else if off = 0x20 then barLo bars.2.2
    else if off = 0x24 then barHi bars.2.2
    else if off = 0x3C then (if isPf then 0xFF else 0)
    else if off = 0x44 then 0x3
    else if off = 0x58 then (if isPf then 0x7FFF else 0x7000)
    else if off = 0x60 then 0x1CB
    else if off = 0x78 then 0x141F
    else if off = 0x80 then 0xF
    else if off = 0x90 then 0xC0000000
    else if capOn l r 0xA0 && off = 0xA0 then 0x00710000
    else if capOn l r 0xA0 && off = 0xA4 then 0xFFFFFFFC
    else if capOn l r 0xA0 && off = 0xA8 then 0xFFFFFFFF
    else if capOn l r 0xA0 && off = 0xAC then 0xFFFF
    else if capOn l r 0xA0 && off = 0xB0 then 0xFFFFFFFF
    else if off = 0x108 then 0x77FFFFFF
    else if off = 0x10C then 0x77FFFFFF
    else if off = 0x114 then 0xFFFF
    else if off = 0x118 then 0x140
    else if off = 0x184 then 0
    else if capOn l r 0x1A0 && off = 0x1A8 then 0x19
    else if capOn l r 0x1A0 && off = 0x1B0 then 0xFFFF
    else if capOn l r 0x1A0 && off = 0x1C0 then 0xFFFFFFFF
    else if capOn l r 0x1A0 && off = 0x1C4 then 0xFFFE0000
    else if capOn l r 0x1A0 && off = 0x1C8 then 0xFFFFFFFF
    else if capOn l r 0x1A0 && off = 0x1CC then (if vfs = 0 then 0 else 2 ^ 32 - Nat.min (2 ^ 32) vfs)
    else if capOn l r 0x1A0 && off = 0x1D0 then (if vfs = 0 then 0 else 2 ^ 32 - Nat.max 1 (vfs / 2 ^ 32))
    else if capOn l r 0x1F0 && off = 0x1F4 then 0x1C0000
    else if capOn l r 0x200 && off = 0x204 then 0x1FFF1FFF
    else if capOn l r 0x210 && off = 0x214 then 0x10000
    else if capOn l r 0x480 && off = 0x488 then 0xC
    else if capOn l r 0x4C0 then ideMask off
    else 0

/-- The bits of a configuration word that writing 1 clears. PRESUMED: log entry 20. -/
def cfgW1c (dw : Nat) : Word :=
  match 4 * dw with
  | 0x04 => 0xF9000000
  | 0x58 => 0x000F0000
  | 0x104 => 0x77FFFFFF
  | 0x110 => 0xFFFF
  | _ => 0

/-- The instance bound to a function (R99). -/
def boundInst (s : State) (h f : Nat) : Option Nat := Tbl.get none s.host.bind (fnKey h f)

/-- A stored configuration word. -/
def cfgWord (s : State) (h f dw : Nat) : Word :=
  match fnRefOf (pfsOf s h) f with
  | some r => Tbl.get (cfgReset (pfsOf s h) r (Tbl.get 0 s.host.maxRate h) dw) s.host.cfg (fnKey h f * 1024 + dw)
  | none => 0

/-- Stores a configuration word. -/
def setCfg (s : State) (h f dw : Nat) (v : Word) : State :=
  match fnRefOf (pfsOf s h) f with
  | some r =>
    let d := cfgReset (pfsOf s h) r (Tbl.get 0 s.host.maxRate h) dw
    { s with host := { s.host with cfg := Tbl.set d s.host.cfg (fnKey h f * 1024 + dw) v } }
  | none => s

/-- A field of a function's configuration space at a byte offset. -/
def cfgF (s : State) (h f off lo n : Nat) : Nat := fld (cfgWord s h f (off / 4)) lo n

/-- Puts a function's configuration state back to reset, the DOE mailbox of PF 0 with it (R114). -/
def cfgClear (s : State) (h f : Nat) : State :=
  { s with host := { s.host with
      cfg := Tbl.keep (fun k => k / 1024 != fnKey h f) s.host.cfg
      doe := if f = 0 then Tbl.del s.host.doe h else s.host.doe } }

/-- Whether a function exists: a declared PF, or an enabled VF (R97). -/
def fnExists (s : State) (h f : Nat) : Bool :=
  match fnRefOf (pfsOf s h) f with
  | some ⟨_, none⟩ => true
  | some ⟨p, some v⟩ => cfgF s h p.pf 0x1A8 0 1 == 1 && decide (v ≤ cfgF s h p.pf 0x1B0 0 16)
  | none => false

/-- Whether a function is in D3hot, where it takes and issues no memory request. PRESUMED: log entry 20. -/
def d3hot (s : State) (h f : Nat) : Bool := cfgF s h f 0x44 0 2 == 3

/-- Bus Master Enable. -/
def bme (s : State) (h f : Nat) : Bool := cfgF s h f 0x04 2 1 == 1 && !d3hot s h f

/-- Memory Space Enable; for a VF, VF MSE of its PF. -/
def mse (s : State) (h f : Nat) : Bool :=
  match fnRefOf (pfsOf s h) f with
  | some ⟨_, none⟩ => cfgF s h f 0x04 1 1 == 1 && !d3hot s h f
  | some ⟨p, some _⟩ => cfgF s h p.pf 0x1A8 3 1 == 1 && !d3hot s h f
  | none => false

/-- The address a host has programmed into a function's BAR 0, 2 or 4. -/
def barBase (s : State) (h f bar : Nat) : Nat :=
  match fnRefOf (pfsOf s h) f with
  | some ⟨_, none⟩ =>
    let o := 0x10 + 4 * bar
    pair (cfgWord s h f (o / 4)) (cfgWord s h f (o / 4 + 1)) / 16 * 16
  | some ⟨p, some v⟩ =>
    let o := 0x1C4 + 4 * bar
    let size := if bar = 0 then 0x20000 else barSize p.vfBar2
    pair (cfgWord s h p.pf (o / 4)) (cfgWord s h p.pf (o / 4 + 1)) / 16 * 16 + (v - 1) * size
  | none => 0

/-- The size of a function's BAR 0, 2 or 4. -/
def barLen (s : State) (h f bar : Nat) : Nat :=
  match fnRefOf (pfsOf s h) f with
  | some r => let b := fnBars r; if bar = 0 then b.1 else if bar = 2 then b.2.1 else b.2.2
  | none => 0

/-- The functions of a link that exist now: the PFs and the enabled VFs. -/
def fnsOf (s : State) (h : Nat) : List Nat :=
  let l := pfsOf s h
  (List.range (l.length + (l.map PfRec.totalVfs).sum)).filter (fnExists s h)

/-- The manager function's link and tile, if the image names one (R34). -/
def managerLink (s : State) : Option Nat :=
  (List.range (4 * s.part.tiles)).find? (fun h => (pfsOf s h).any PfRec.manager)

/-- The routing ID of a function: the bus number the link has captured, and the function number (R96). -/
def routingId (s : State) (h f : Nat) : Nat := Tbl.get 0 s.host.bus h * 256 + f

/-- Max_Payload_Size of a link, that of its PF 0, at most 512 (R98). -/
def mpsOf (s : State) (h : Nat) : Nat := 128 * 2 ^ Nat.min 2 (cfgF s h 0 0x58 5 3)

/-- Max_Read_Request_Size of a function, at most 4,096 (R98). -/
def mrrsOf (s : State) (h f : Nat) : Nat := 128 * 2 ^ Nat.min 5 (cfgF s h f 0x58 12 3)

/-- The Read Completion Boundary of a link. -/
def rcbOf (s : State) (h : Nat) : Nat := if cfgF s h 0 0x60 3 1 = 1 then 128 else 64

/-- Sets bits of a configuration word. -/
def orCfg (s : State) (h f off m : Nat) : State := setCfg s h f (off / 4) (cfgWord s h f (off / 4) ||| word m)

/-- The First Error Pointer and the header log of an error that is the first unmasked one to be logged; what the log holds of the
TLP is open: log entry 7. -/
def headerLog (s : State) (h f b : Nat) : State :=
  if (cfgWord s h f (0x104 / 4) &&& ~~~(cfgWord s h f (0x108 / 4))) = 0 then
    let n := s.fresh
    let s := setCfg (tickFresh s 4) h f (0x118 / 4) (setFld (cfgWord s h f (0x118 / 4)) 0 5 b)
    (List.range 4).foldl (fun s k => setCfg s h f (0x11C / 4 + k) (Config.freeWord (n + k))) s
  else s

/-- An error message of a function leaves its link, which it brings out of L1 (R94). -/
def errorMsg (s : State) (h f : Nat) (kind : MsgKind) : State := emit (leaveL1 s h) (.msg h f kind 0)

/-- Logs an error in a function's AER capability: bit `b` of the uncorrectable status, and the function's Device Status. An advisory
error of non-fatal severity adds the Advisory Non-Fatal bit of the correctable status. The message follows the severity, where the
function's Device Control or SERR# enables it and its mask allows (R108); that of an Unsupported Request needs its reporting enabled. -/
def aerLog (s : State) (h f b : Nat) (advisory : Bool) : State :=
  if fnExists s h f = false then s else
  let masked := bit (cfgWord s h f (0x108 / 4)) b
  let fatal := bit (cfgWord s h f (0x10C / 4)) b
  let said (k : Nat) : Bool := cfgF s h f 0x58 k 1 == 1
  let reported := b != 20 || said 3
  let serr := cfgF s h f 0x04 8 1 == 1
  let s := orCfg (if masked then s else headerLog s h f b) h f 0x104 (2 ^ b)
  let s := if b = 20 then orCfg s h f 0x58 0x80000 else s
  if advisory ∧ ¬ fatal then
    let quiet := bit (cfgWord s h f (0x114 / 4)) 13
    let s := orCfg (orCfg s h f 0x58 0x10000) h f 0x110 0x2000
    if said 0 ∧ reported ∧ ¬ masked ∧ ¬ quiet then errorMsg s h f .errCor else s
  else if fatal then
    let s := orCfg s h f 0x58 0x40000
    if (said 2 ∨ serr) ∧ (reported ∨ serr) ∧ ¬ masked then errorMsg s h f .errFatal else s
  else
    let s := orCfg s h f 0x58 0x20000
    if (said 1 ∨ serr) ∧ (reported ∨ serr) ∧ ¬ masked then errorMsg s h f .errNonfatal else s

/-! ## IDE streams (R112) -/

/-- The IDE stream that a memory request on a link uses, if it uses one: the selective stream, from 1, that is enabled and whose address
association holds the address, else the link stream, 0, where that is enabled. PRESUMED: log entry 20. -/
def ideStream (s : State) (h a : Nat) : Option Nat :=
  let w (k o : Nat) : Word := cfgWord s h 0 ((0x4D4 + 32 * (k - 1) + o) / 4)
  let covers (k : Nat) : Bool :=
    let low := fld (w k 20) 8 12 + (w k 28).toNat * 2 ^ 12
    let high := fld (w k 20) 20 12 + (w k 24).toNat * 2 ^ 12
    bit (w k 4) 0 && bit (w k 20) 0 && decide (low ≤ a / 2 ^ 20) && decide (a / 2 ^ 20 ≤ high)
  match List.find? covers [1, 2, 3, 4, 5, 6, 7, 8] with
  | some k => some k
  | none => if cfgF s h 0 0x4CC 0 1 = 1 then some 0 else none

/-- Whether the IDE stream a request would use is out of the Secure state (R112). -/
def ideRefuses (s : State) (h a : Nat) : Bool :=
  match ideStream s h a with
  | some k => (Tbl.find? s.host.secure (h * 256 + k)).isNone || (Tbl.find? s.host.insecure (h * 256 + k)).isSome
  | none => false

/-- AER bit of a Completer Abort. -/
abbrev aerCA : Nat := 15

/-- AER bit of a Completion Timeout. -/
abbrev aerTimeout : Nat := 14

/-- AER bit of an Unexpected Completion. -/
abbrev aerUnexpected : Nat := 16

/-- AER bit of a Poisoned TLP Received. -/
abbrev aerPoison : Nat := 12

/-- AER bit of an Uncorrectable Internal Error. -/
abbrev aerInternal : Nat := 22

/-- AER bit of an IDE Check Failed. -/
abbrev aerIde : Nat := 28

/-- AER bit of an Unsupported Request. -/
abbrev aerUR : Nat := 20

end Sys2Proof.Machine
end

