-- ==== Sys2Proof/Machine/Image.lean ====
section
/-! DEFINITION. The structure image (02): its bytes read into records, clamped with the load report, and accepted or
rejected in the order of R46. -/

namespace Sys2Proof.Machine

open Sys2Proof

/-! ## Records (R33 to R40) -/

/-- A PORTS record, clamped (R33). -/
structure PortsRec where
  tile : Nat
  hostBif : Nat
  maxRate : Nat
  localBif : Nat
  localRate : Nat
  lodeId : List Nat
  deriving DecidableEq, Repr

/-- An EVCMAP record (R36): a source range, or a group's hold-off. -/
inductive EvcRec where
  | range (tile first last group prio flags glitch : Nat)
  | hold (tile group us : Nat)
  deriving DecidableEq, Repr

/-- A FAULT record, clamped (R39). -/
structure FaultRec where
  tile : Nat
  block : Nat
  cause : Nat
  cls : Nat
  us : Nat
  deriving DecidableEq, Repr

/-- What an image says, clamped. -/
structure Image where
  len : Nat
  seq : Nat
  secVer : Nat
  maker : Nat
  test : Bool
  ports : List PortsRec
  funcs : List PfRec
  pools : List (Nat × Nat × PoolRec)
  evc : List EvcRec
  switch : List (Nat × Nat × Nat)
  cut : Nat
  mcast : List (Nat × List Nat)
  faults : List FaultRec
  gallery : Option (Nat × Nat)
  deriving DecidableEq, Repr

/-- An entry of the load report (R51); `none` where the manual names no value for an entry's KIND. -/
structure Ent where
  kind : Nat
  sect : Nat
  rec_ : Option Nat := none
  field : Option Nat := none
  orig : Option Nat := none
  loaded : Option Nat := none
  deriving DecidableEq, Repr

/-- A clamping's entry. -/
abbrev clampEnt (sect rec_ field orig loaded : Nat) : Ent :=
  ⟨1, sect, some rec_, some field, some orig, some loaded⟩

/-- A value clamped, with its entry if it changed. -/
def clampTo (sect rec_ field orig loaded : Nat) : Nat × List Ent :=
  (loaded, if orig = loaded then [] else [clampEnt sect rec_ field orig loaded])

/-- Result codes (R47). -/
abbrev strBadHeader : Nat := 1
abbrev strBadSignature : Nat := 2
abbrev strKeyMismatch : Nat := 3
abbrev strBadCrc : Nat := 4
abbrev strBadStructure : Nat := 5
abbrev strRollback : Nat := 6
abbrev strWrongPart : Nat := 7

/-- Bytes of a slot (R44). -/
abbrev slotBytes : Nat := 1048576

/-- The greatest image a slot holds, and the signature block's length (R30, R41). -/
abbrev sigLen : Nat := 784

/-! ## Header and directory (R30, R31) -/

/-- A directory entry. -/
structure DirEnt where
  ty : Nat
  count : Nat
  off : Nat
  len : Nat
  crc : Nat
  deriving DecidableEq, Repr

/-- TYPE[14:0], the section kind; TYPE[15] is CRITICAL (R31). -/
def DirEnt.kind (d : DirEnt) : Nat := d.ty % 32768

/-- The directory of an image. -/
def dirOf (img : List Byte) : List DirEnt :=
  (List.range (leAt img 0x17 1)).map (fun k =>
    let o := 64 + 16 * k
    ⟨leAt img o 2, leAt img (o + 2) 2, leAt img (o + 4) 4, leAt img (o + 8) 4, leAt img (o + 12) 4⟩)

/-- Step 1 of R46: the header's fields and HDR_CRC, then the part. -/
def headerResult (img : List Byte) (tiles : Nat) : Option Nat :=
  let len := leAt img 8 4
  if leAt img 0 4 ≠ 0x4D5A5349 ∨ leAt img 4 2 ≠ 1 ∨ leAt img 6 2 ≠ 64 ∨ len % 16 ≠ 0 ∨ slotBytes < len ∨
      len < 64 + sigLen ∨ leAt img 0xC 4 + sigLen ≠ len ∨ leAt img 0x17 1 = 0 ∨ 32 < leAt img 0x17 1 ∨
      leAt img 0x3C 4 ≠ (crc32c (bytesAt img 0 60)).toNat then some strBadHeader
  else if leAt img 0x16 1 ≠ tiles then some strWrongPart
  else none

/-- The hash of a signature block's key (R41). -/
def keyHashOf (sig : List Byte) : BitVec 256 :=
  BitVec.ofNat 256 (beNat (sha256 (bytesAt sig 0x10 384 ++ beBytes 4 (leAt sig 8 4))))

/-- Whether a signature block signs a message (R41). -/
def sigOk (sig msg : List Byte) : Bool :=
  leAt sig 0 4 == 0x4C534947 && leAt sig 8 4 == 65537 && pssVerify (bytesAt sig 0x10 384) (bytesAt sig 0x190 384) msg

/-- Step 2: the signature and the key hash (R41, R42). A wrong SIG_MAGIC or PUB_EXP is a signature that does not verify, and a KEY_KIND
other than 1 a key that is not the enrolled one: no rule names their codes (DESIGN CHOICE: log entry 67). -/
def signatureResult (img : List Byte) (key : Option (BitVec 256)) : Option Nat :=
  let o := leAt img 0xC 4
  let sig := bytesAt img o sigLen
  if sigOk sig (img.take o) = false then some strBadSignature
  else if leAt sig 4 4 ≠ 1 ∨ key ≠ some (keyHashOf sig) then some strKeyMismatch
  else none

/-- The section kinds this part knows, TYPE[14:0], with the record size where it is fixed (R31, R32). -/
def sectionSize (kind : Nat) : Option (Option Nat) :=
  match kind with
  | 1 => some (some 32)
  | 2 => some (some 32)
  | 3 => some none
  | 4 => some (some 32)
  | 5 => some (some 16)
  | 6 => some (some 8)
  | 7 => some none
  | 8 => some (some 8)
  | 9 => some (some 8)
  | _ => none

/-- Whether two spans of the image share a byte; an empty one shares none. -/
def spansMeet (a n b m : Nat) : Bool := n != 0 && m != 0 && decide (a < b + m) && decide (b < a + n)

/-- Whether some two entries of a list meet a test. -/
def anyPair {α : Type} (p : α → α → Bool) : List α → Bool
  | [] => false
  | a :: r => r.any (p a) || anyPair p r

/-- The MCAST records of a section: group and member words; `none` where they do not fill it (R32, R38). -/
def mcastRecs : Nat → List Byte → Option (List (Nat × List Nat))
  | 0, l => if l.isEmpty then some [] else none
  | n + 1, l =>
    let k := leAt l 2 1
    let size := 8 + (2 * k + 3) / 4 * 4
    if l.length < size then none
    else (mcastRecs n (l.drop size)).map (fun r =>
      (leAt l 0 2, (List.range k).map (fun j => leAt l (8 + 2 * j) 2)) :: r)

/-- Step 4: the structure that R30 and R32 ask of the sections. -/
def structureResult (img : List Byte) (dir : List DirEnt) : Option Nat :=
  let sig := leAt img 0xC 4
  let bad := dir.any (fun d =>
      d.off % 16 != 0 || spansMeet d.off d.len 0 (64 + 16 * dir.length) || (d.len != 0 && decide (sig < d.off + d.len)) ||
      ((sectionSize d.kind).isNone && decide (32768 ≤ d.ty)) ||
      (match sectionSize d.kind with
       | some (some n) => d.len != d.count * n
       | some none => d.kind == 7 && (mcastRecs d.count (bytesAt img d.off d.len)).isNone
       | none => false)) ||
    anyPair (fun a b => a == b) (dir.map DirEnt.kind) || anyPair (fun a b => spansMeet a.off a.len b.off b.len) dir ||
    [1, 2, 4].any (fun k => !(dir.any (fun d => d.kind == k)))
  if bad then some strBadStructure else none

/-- The bytes of a section. -/
def sectionOf (img : List Byte) (dir : List DirEnt) (kind : Nat) : List Byte :=
  match dir.find? (fun d => d.kind == kind) with
  | some d => bytesAt img d.off d.len
  | none => []

/-- The records of a section of fixed record size, in order. -/
def recsOf : Nat → Nat → List Byte → List (List Byte)
  | 0, _, _ => []
  | k + 1, n, l => if l.isEmpty then [] else l.take n :: recsOf k n (l.drop n)

/-- The records of a section with their numbers. -/
def records (img : List Byte) (dir : List DirEnt) (kind n : Nat) : List (List Byte × Nat) :=
  let l := sectionOf img dir kind
  (recsOf (l.length / n) n l).zipIdx

/-! ## Clamping (R51) -/

/-- A LOCAL_RATE byte with each code 3 clamped to 2 (R33). -/
def clampRates (b : Nat) : Nat :=
  ((List.range 4).map (fun p => (if b / 4 ^ p % 4 = 3 then 2 else b / 4 ^ p % 4) * 4 ^ p)).sum

/-- A PORTS record with its entries: one for the LOCAL_RATE byte, whichever of its codes clamp, with the byte as the image has it and as
loaded (DESIGN CHOICE: log entry 67). -/
def readPorts (r : List Byte) (i : Nat) : PortsRec × List Ent :=
  let (bifc, e1) := clampTo 0x8001 i 1 (leAt r 1 1) (Nat.min 2 (leAt r 1 1))
  let (rate, e2) := clampTo 0x8001 i 2 (leAt r 2 1) (clamp 1 7 (leAt r 2 1))
  let (lr, e3) := clampTo 0x8001 i 4 (leAt r 4 1) (clampRates (leAt r 4 1))
  (⟨leAt r 0 1, bifc, rate, leAt r 3 1 % 16, lr, (List.range 8).map (fun k => leAt r (8 + 2 * k) 2)⟩, e1 ++ e2 ++ e3)

/-- A BAR control byte clamped (R34). -/
def clampBar (b : Nat) : Nat := if b < 128 then b else b / 64 * 64 + clamp 16 46 (b % 64)

/-- A FUNCTIONS record with its entries (R34); a BAR control byte's entry gives the whole byte (DESIGN CHOICE: log entry 67). -/
def readFunc (caps r : List Byte) (i : Nat) : PfRec × List Ent :=
  let (role, e1) := clampTo 0x8002 i 11 (leAt r 11 1) (Nat.min 1 (leAt r 11 1))
  let mgr := role == 1
  let skip (x : Nat × List Ent) : Nat × List Ent := if mgr then (0, []) else x
  let (vfs, e2) := skip (clampTo 0x8002 i 16 (leAt r 16 2) (Nat.min 2048 (leAt r 16 2)))
  let (b2, e3) := skip (clampTo 0x8002 i 19 (leAt r 19 1) (clampBar (leAt r 19 1)))
  let (b4, e4) := skip (clampTo 0x8002 i 20 (leAt r 20 1) (clampBar (leAt r 20 1)))
  let (vb, e5) := skip (clampTo 0x8002 i 21 (leAt r 21 1) (clampBar (leAt r 21 1)))
  let v := leAt r 24 2
  let (vlen, e6) := clampTo 0x8002 i 24 v (Nat.min 256 v / 4 * 4)
  let flags := leAt r 18 1
  ({ link := leAt r 0 1, pf := leAt r 1 1, manager := mgr, legacy := flags % 2 == 1, msi := flags / 2 % 2 == 1,
     totalVfs := vfs, vendor := leAt r 2 2, device := leAt r 4 2, subVendor := leAt r 6 2, subsystem := leAt r 8 2,
     revision := leAt r 10 1, classCode := leAt r 12 3, bar2 := b2, bar4 := b4, vfBar2 := vb,
     vsec := bytesAt caps (leAt r 22 2) vlen }, e1 ++ e2 ++ e3 ++ e4 ++ e5 ++ e6)

/-- What is left of a tile's capacity while its pools are clamped (R35). -/
structure Room where
  instances : Nat := 512
  queues : Nat := 16384
  wtt : Nat := 2097152
  windows : Nat := 8192
  targets : Nat := 1024
  vectors : Nat := 65536
  deriving DecidableEq, Repr

/-- A POOLS record clamped to what is left, with its entries (R35). -/
def readPool (r : List Byte) (i : Nat) (m : Room) : PoolRec × List Ent × Room :=
  let (a, e1) := clampTo 0x8004 i 2 (leAt r 2 2) (Nat.min m.instances (leAt r 2 2))
  let (b, e2) := clampTo 0x8004 i 4 (leAt r 4 4) (Nat.min m.queues (leAt r 4 4))
  let (c, e3) := clampTo 0x8004 i 8 (leAt r 8 4) (Nat.min m.wtt (leAt r 8 4))
  let (d, e4) := clampTo 0x8004 i 12 (leAt r 12 2) (Nat.min m.windows (leAt r 12 2))
  let (e, e5) := clampTo 0x8004 i 14 (leAt r 14 2) (Nat.min m.targets (leAt r 14 2))
  let (f, e6) := clampTo 0x8004 i 16 (leAt r 16 4) (Nat.min m.vectors (leAt r 16 4))
  let (g, e7) := clampTo 0x8004 i 20 (leAt r 20 4) (Nat.min 33553920 (leAt r 20 4))
  (⟨a, b, c, d, e, f, g, word (leAt r 24 4)⟩, e1 ++ e2 ++ e3 ++ e4 ++ e5 ++ e6 ++ e7,
   ⟨m.instances - a, m.queues - b, m.wtt - c, m.windows - d, m.targets - e, m.vectors - f⟩)

/-- The pools of a tile, in ascending POOL order (R35). -/
def readPools (recs : List (List Byte × Nat)) (t : Nat) : List (Nat × Nat × PoolRec) × List Ent :=
  let mine := (List.range 256).flatMap (fun p => recs.filter (fun r => leAt r.1 0 1 == t && leAt r.1 1 1 == p))
  let out := mine.foldl (fun (a : List (Nat × Nat × PoolRec) × List Ent × Room) r =>
    let (p, e, m) := readPool r.1 r.2 a.2.2
    (a.1 ++ [(t, leAt r.1 1 1, p)], a.2.1 ++ e, m)) ([], [], {})
  (out.1, out.2.1)

/-- An EVCMAP record with its entries (R36). -/
def readEvc (r : List Byte) (i : Nat) : EvcRec × List Ent :=
  if leAt r 0 1 = 0 then
    let (g, e) := clampTo 0x8005 i 9 (leAt r 9 1) (Nat.max 1 (leAt r 9 1))
    (.range (leAt r 1 1) (leAt r 2 2) (leAt r 4 2) (leAt r 6 1) (leAt r 7 1 % 16) (leAt r 8 1 % 8) g, e)
  else (.hold (leAt r 1 1) (leAt r 2 1) (leAt r 4 2), [])

/-- A SWITCH record with its entries: class, weight, age limit (R37). -/
def readSwitch (r : List Byte) (i : Nat) : (Nat × Nat × Nat) × List Ent :=
  let (w, e) := clampTo 0x8006 i 1 (leAt r 1 1) (Nat.max 1 (leAt r 1 1))
  ((leAt r 0 1, w, leAt r 2 2), e)

/-- The causes a FAULT record covers in its block (R39). -/
def causesOf (cause : Nat) : List Nat := if cause = 0xFF then List.range 8 else [cause]

/-- The fixed class of a cause, if it has one (R332). -/
def fixedClass (b c : Nat) : Option Nat :=
  match faultDefault b c with
  | some (cls, true, _) => some cls
  | _ => none

/-- A FAULT record with its entries, the refused overrides among them (R39). -/
def readFault (r : List Byte) (i : Nat) : FaultRec × List Ent :=
  let (cls, e1) := clampTo 0x8008 i 3 (leAt r 3 1) (Nat.min 3 (leAt r 3 1))
  let (us, e2) := clampTo 0x8008 i 4 (leAt r 4 4) (clamp 100 10000000 (leAt r 4 4))
  let b := leAt r 1 1
  let kept := (causesOf (leAt r 2 1)).filterMap (fun c =>
    match fixedClass b c with
    | some f => if f = cls then none else some ⟨4, 0x8008, some i, some 3, some (leAt r 3 1 + c * 256 + b * 65536), some f⟩
    | none => none)
  (⟨leAt r 0 1, b, leAt r 2 1, cls, us⟩, e1 ++ e2 ++ kept)

/-- Records read one after another, with all their entries. -/
def readAll {α : Type} (f : List Byte → Nat → α × List Ent) (l : List (List Byte × Nat)) : List α × List Ent :=
  (l.map (fun r => (f r.1 r.2).1), l.flatMap (fun r => (f r.1 r.2).2))

/-- The entries of the kinds in the directory's order, each with its section's TYPE. -/
def inDirOrder (dir : List DirEnt) (l : List (Nat × List Ent)) : List Ent :=
  dir.flatMap (fun d => (l.filter (fun x => x.1 == d.kind)).flatMap (fun x => x.2.map (fun e => { e with sect := d.ty })))

/-- Step 5: the records as clamped, and the entries (R51). -/
def readImage (img : List Byte) (dir : List DirEnt) (tiles : Nat) : Image × List Ent :=
  let (ports, e1) := readAll readPorts (records img dir 1 32)
  let (funcs, e2) := readAll (readFunc (sectionOf img dir 3)) (records img dir 2 32)
  let pr := records img dir 4 32
  let pools := (List.range tiles).map (readPools pr)
  let (evc, e5) := readAll readEvc (records img dir 5 16)
  let sw := records img dir 6 8
  let (switch, e6) := readAll readSwitch sw
  let (faults, e8) := readAll readFault (records img dir 8 8)
  let mc := match dir.find? (fun d => d.kind == 7) with
    | some d => (mcastRecs d.count (bytesAt img d.off d.len)).getD []
    | none => []
  let gal := (records img dir 9 8).head?.map (fun r =>
    clampTo 0x8009 0 0 (leAt r.1 0 1) (Nat.min 2 (leAt r.1 0 1)))
  let galId := leAt (sectionOf img dir 9) 1 1 / 128 * 128 + leAt (sectionOf img dir 9) 1 1 % 32
  ({ len := leAt img 8 4, seq := leAt img 0x10 4, secVer := leAt img 0x14 2, maker := leAt img 0x18 4, test := leAt img 0x1C 4 % 2 == 1,
     ports := ports, funcs := funcs, pools := pools.flatMap Prod.fst, evc := evc, switch := switch,
     cut := sw.foldl (fun a r => a ||| (leAt r.1 4 1 % 8)) 0,
     mcast := mc.map (fun g => (g.1, g.2.map (fun m => m % 64))), faults := faults,
     gallery := gal.map (fun x => (x.1, galId)) },
   inDirOrder dir [(1, e1), (2, e2), (4, pools.flatMap Prod.snd), (5, e5), (6, e6), (8, e8), (9, (gal.map Prod.snd).getD [])])

/-! ## Rejecting conditions (R33 to R40) -/

/-- Whether PORTS rejects the image. -/
def portsBad (x : Image) (tiles : Nat) : Bool := x.ports.map PortsRec.tile != List.range tiles

/-- Whether FUNCTIONS rejects the image; `raw` are its records' VSEC fields with CAPS' length. -/
def funcsBad (x : Image) (raw : List (List Byte × Nat)) (caps tiles : Nat) : Bool :=
  let f := x.funcs
  let pfs (h : Nat) : List Nat := (f.filter (fun r => r.link == h)).map PfRec.pf
  f.any (fun r =>
    decide (4 * tiles ≤ r.link) || decide (7 < r.pf) ||
    !((x.ports[r.link / 4]?).any (fun p => linkUsed p.hostBif (r.link % 4))) ||
    (r.manager && r.pf != 0) ||
    !((List.range r.pf).all (fun k => (pfs r.link).contains k))) ||
  anyPair (fun a b => a.link == b.link && a.pf == b.pf) f ||
  (f.filter PfRec.manager).length != 1 ||
  raw.any (fun r =>
    let n := Nat.min 256 (leAt r.1 24 2) / 4 * 4
    n != 0 && (leAt r.1 22 2 % 4 != 0 || decide (caps < leAt r.1 22 2 + n)))

/-- Whether POOLS rejects the image. -/
def poolsBad (raw : List (List Byte × Nat)) (tiles : Nat) : Bool :=
  raw.any (fun r => decide (tiles ≤ leAt r.1 0 1) || decide (15 < leAt r.1 1 1)) ||
  anyPair (fun a b => leAt a.1 0 2 == leAt b.1 0 2) raw

/-- Whether EVCMAP rejects the image. -/
def evcBad (raw : List (List Byte × Nat)) (tiles : Nat) : Bool :=
  raw.any (fun r => decide (1 < leAt r.1 0 1) || decide (tiles ≤ leAt r.1 1 1) ||
    (leAt r.1 0 1 == 0 && (decide (leAt r.1 4 2 < leAt r.1 2 2) || decide (32767 < leAt r.1 4 2))))

/-- Whether MCAST rejects the image. -/
def mcastBad (x : Image) (tiles : Nat) : Bool :=
  x.mcast.any (fun g => decide (4095 < g.1) || g.2.any (fun m =>
    decide (4 * tiles ≤ m % 32) || (m / 32 == 1 && !((x.ports[m % 32 / 4]?).any (fun p => p.localBif / 2 ^ (m % 4) % 2 == 1))))) ||
  anyPair (fun a b => a.1 == b.1) x.mcast

/-- Whether FAULT rejects the image. -/
def faultsBad (x : Image) (tiles : Nat) : Bool :=
  x.faults.any (fun r => (r.tile != 0xFF && decide (tiles ≤ r.tile)) || decide (13 < r.block))

/-- Step 6: the rejecting conditions, judged on the values as clamped. -/
def rulesResult (x : Image) (img : List Byte) (dir : List DirEnt) (tiles : Nat) : Option Nat :=
  let gal := (records img dir 9 8).length
  if portsBad x tiles || funcsBad x (records img dir 2 32) (sectionOf img dir 3).length tiles ||
     poolsBad (records img dir 4 32) tiles || evcBad (records img dir 5 16) tiles ||
     x.switch.any (fun r => decide (3 < r.1)) || mcastBad x tiles || faultsBad x tiles ||
     (dir.any (fun d => d.kind == 9) && gal != 1) then some strBadStructure
  else none

/-! ## Verification (R46) -/

/-- The entries of skipped sections of unknown kind (R32). -/
def skipped (dir : List DirEnt) : List Ent :=
  (dir.filter (fun d => (sectionSize d.kind).isNone)).map (fun d => { kind := 2, sect := d.ty })

/-- Takes an image through the steps of R46: its records or a result code, and the entries the load generates. -/
def verifyImage (img : List Byte) (tiles floor : Nat) (key : Option (BitVec 256)) : Except Nat Image × List Ent :=
  match headerResult img tiles with
  | some c => (.error c, [])
  | none =>
    match signatureResult img key with
    | some c => (.error c, [])
    | none =>
      let dir := dirOf img
      if dir.any (fun d => (crc32c (bytesAt img d.off d.len)).toNat != d.crc) then (.error strBadCrc, [])
      else
        match structureResult img dir with
        | some c => (.error c, [])
        | none =>
          let (x, ents) := readImage img dir tiles
          let ents := skipped dir ++ ents
          match rulesResult x img dir tiles with
          | some c => (.error c, ents)
          | none => if x.secVer < floor then (.error strRollback, ents) else (.ok x, ents)

/-- The bytes of an image that begins a run of memory: its header names its length, at most a slot's. -/
def imageBytes (read : Nat → List Byte) : List Byte := read (Nat.min slotBytes (Nat.max 64 (leAt (read 64) 8 4)))

/-! ## Slots (R44) -/

/-- Where a slot's image lies in MRAM: slot A in tile 0, slot B in tile 1, from offset 0. DESIGN CHOICE: log entry 5. -/
def slotRead (s : State) (slot n : Nat) : List Byte := mramRead s slot 0 n

/-- The image bytes in a slot. -/
def slotImage (s : State) (slot : Nat) : List Byte := imageBytes (slotRead s slot)

/-- Where a slot's flash copy lies. -/
abbrev flashSlot (slot : Nat) : Nat := 0x1000000 + slot * slotBytes

/-- The active slot, by the vote of the marker's copies (R44). -/
def activeSlot (s : State) : Nat :=
  match s.otp.marker with
  | [a, b, c] => if a = b ∨ a = c then a else if b = c then b else a
  | _ => 0

/-- The records of the image in a slot, without its checks: of an image that has passed them. -/
def slotRecords (s : State) (slot : Nat) : Image :=
  let img := slotImage s slot
  (readImage img (dirOf img) s.part.tiles).1

/-- The bytes of a report entry (R51); a field the manual gives no value is free (log entry 7), drawn from `n`. -/
def Ent.bytes (e : Ent) (n : Nat) : List Byte :=
  let g (k : Nat) (x : Option Nat) : Nat := x.getD (Config.freeWord (n + k)).toNat
  leBytes 1 e.kind ++ [0] ++ leBytes 2 e.sect ++ leBytes 2 (g 0 e.rec_) ++ leBytes 1 (g 1 e.field) ++ [0] ++
  leBytes 4 (g 2 e.orig) ++ leBytes 4 (g 3 e.loaded)

/-- Stores a load report: 1,024 entries, the rest only counted (R51), and the MAKER_ID of the image loaded, for which no entry has a
place (R31; DESIGN CHOICE: log entry 67). -/
def putReport (s : State) (l : List Ent) (maker : Nat) : State :=
  let n := s.fresh
  let s := tickFresh { s with str := { s.str with
    report := (l.take 1024).zipIdx.map (fun x => x.1.bytes (n + 4 * x.2))
    reportMaker := maker } } (4 * l.length)
  sf (wreg s 0 0xA000018 (word l.length)) 0 0xA000000 6 1 (b2n (decide (1024 < l.length)))

end Sys2Proof.Machine
end

