-- ==== Sys2Proof/Machine/Packet.lean ====
section
/-! DEFINITION. LTP packets (R162 to R170): type codes, header words, lengths, the bytes of a packet with its CRC, and the
reading of a packet from bytes. -/

namespace Sys2Proof.Machine

open Sys2Proof

/-- TYPE codes (R165). -/
def PType.code : PType → Nat
  | .wr => 0x10
  | .rd => 0x20
  | .atomic => 0x30
  | .lockBegin => 0x40
  | .lockEnd => 0x41
  | .event => 0x50
  | .notice => 0x51
  | .rsp => 0x60
  | .rspD => 0x61

/-- The CLASS a type travels in (R165): 0 Posted, 1 Request, 2 Response, 3 Control. -/
def PType.class : PType → Nat
  | .wr => 0
  | .rd => 1
  | .atomic => 1
  | .lockBegin => 3
  | .lockEnd => 3
  | .event => 0
  | .notice => 3
  | .rsp => 2
  | .rspD => 2

/-- The type a code names; `none` for an undefined type (R167). -/
def PType.ofCode (c : Nat) : Option PType :=
  match c with
  | 0x10 => some .wr
  | 0x20 => some .rd
  | 0x30 => some .atomic
  | 0x40 => some .lockBegin
  | 0x41 => some .lockEnd
  | 0x50 => some .event
  | 0x51 => some .notice
  | 0x60 => some .rsp
  | 0x61 => some .rspD
  | _ => none

/-- A LEN field as a byte count: 0 means 4,096 (R7). -/
def lenBytes (l : Nat) : Nat := if l = 0 then 4096 else l

/-- A byte count as a LEN field. -/
def lenField (n : Nat) : Nat := n % 4096

/-- D, the data bytes a packet of a type carries (R165). -/
def dataLen (ty : PType) (len opx : Nat) : Nat :=
  match ty with
  | .wr => lenBytes len
  | .atomic => if opx = 2 then 2 * len else len
  | .rspD => lenBytes len
  | .rd => 0
  | .lockBegin => 0
  | .lockEnd => 0
  | .event => 0
  | .notice => 0
  | .rsp => 0

/-- A length padded to a multiple of 16 (R144). -/
def pad16 (n : Nat) : Nat := (n + 15) / 16 * 16

/-- The padded length of a packet (R162). -/
def Pkt.padded (p : Pkt) : Nat := pad16 (20 + p.data.length)

/-- Credit units of 64 bytes a packet consumes (R152). -/
def Pkt.units (p : Pkt) : Nat := (p.padded + 63) / 64

/-- Cells of 256 bytes a frame with this packet occupies (R184). -/
def Pkt.cells (p : Pkt) : Nat := (p.padded + 32 + 255) / 256

/-- Whether a packet is a non-posted request, answered exactly once (R171). -/
def Pkt.isReq (p : Pkt) : Bool :=
  match p.ty with
  | .rd => true
  | .atomic => true
  | .lockBegin => true
  | .wr => false
  | .lockEnd => false
  | .event => false
  | .notice => false
  | .rsp => false
  | .rspD => false

/-- Whether a packet is a response. -/
def Pkt.isRsp (p : Pkt) : Bool :=
  match p.ty with
  | .rsp => true
  | .rspD => true
  | .rd => false
  | .atomic => false
  | .lockBegin => false
  | .wr => false
  | .lockEnd => false
  | .event => false
  | .notice => false

/-- Header word 0 (R163). -/
def Pkt.word0 (p : Pkt) : Nat :=
  p.ty.code + p.cls * 2 ^ 8 + p.tag * 2 ^ 10 + p.len * 2 ^ 22 + p.inst * 2 ^ 34 + p.gen * 2 ^ 46 + p.opx * 2 ^ 54 +
  b2n p.rlx * 2 ^ 57 + b2n p.ns * 2 ^ 58 + b2n p.ep * 2 ^ 59 + b2n p.glob * 2 ^ 60

/-- The header and data of a packet. -/
def Pkt.body (p : Pkt) : List Byte := leBytes 8 p.word0 ++ leBytes 8 p.addr ++ p.data

/-- The bytes of a packet on a link: header, data, CRC, padding (R162, R164). -/
def Pkt.bytes (p : Pkt) : List Byte :=
  let b := p.body
  bytesAt (b ++ leBytes 4 (crc32c b).toNat) 0 p.padded

/-- The fields of a header, with no data (R163). -/
def hdrOf (ty : PType) (l : List Byte) : Pkt :=
  let w := leAt l 0 8
  { ty := ty, cls := w / 2 ^ 8 % 4, tag := w / 2 ^ 10 % 4096, len := w / 2 ^ 22 % 4096, inst := w / 2 ^ 34 % 4096,
    gen := w / 2 ^ 46 % 256, opx := w / 2 ^ 54 % 8, rlx := w / 2 ^ 57 % 2 == 1, ns := w / 2 ^ 58 % 2 == 1,
    ep := w / 2 ^ 59 % 2 == 1, glob := w / 2 ^ 60 % 2 == 1, addr := leAt l 8 8 }

/-- The padded length of the packet that begins a list of bytes, from its header (R162). -/
def wireLen (ty : PType) (l : List Byte) : Nat :=
  let h := hdrOf ty l
  pad16 (20 + dataLen ty h.len h.opx)

/-- The packet a whole run of bytes holds, and whether its CRC passes (R164). -/
def readPkt (ty : PType) (l : List Byte) : Pkt × Bool :=
  let h := hdrOf ty l
  let d := dataLen ty h.len h.opx
  ({ h with data := bytesAt l 16 d }, leAt l (16 + d) 4 == (crc32c (bytesAt l 0 (16 + d))).toNat)

/-- Whether an access crosses a 4,096-byte boundary (R166). -/
def crosses4k (addr len : Nat) : Bool := decide (4096 < addr % 4096 + len)

/-- Whether a packet from a partner breaks a rule of chapter 08 (R167; an EVENT with OPX 3 to 7, R178): a wrong class, a reserved OPX, an illegal LEN, a
boundary crossing, a direction the type table forbids, an error status in an RSP_D (R170). -/
def malformedIn (p : Pkt) : Bool :=
  p.cls != p.ty.class ||
  match p.ty with
  | .wr => p.opx != 0 || crosses4k p.addr (lenBytes p.len)
  | .rd => p.opx != 0 || crosses4k p.addr (lenBytes p.len)
  | .atomic => true
  | .lockBegin => true
  | .lockEnd => true
  | .notice => true
  | .event => decide (3 ≤ p.opx)
  | .rsp => p.opx != 0
  | .rspD => p.opx != 0 || p.addr % 16 != 0

end Sys2Proof.Machine
end

