-- ==== Sys2Proof/Machine/Path.lean ====
section
/-! DEFINITION. Frames on their way: routes (R14 to R16; one path for one pair of ports and no steering around a link, R17,
R19, the manager's accesses too, R22; none leaves the package, R23), port states (R20, R52, R204) and ingress queues. -/

namespace Sys2Proof.Machine

open Sys2Proof

/-! ## Units of the part -/

/-- The LNK slots of a tile: eight sublinks and three tile links (R139). -/
abbrev slotCount : Nat := 11

/-- Key of a LNK slot. -/
abbrev slotKey (t n : Nat) : Nat := t * 11 + n

/-- A LNK slot beside its registers. -/
def linkSt (s : State) (t n : Nat) : LinkSt := Tbl.get {} s.lode.links (slotKey t n)

/-- Replaces a LNK slot. -/
def setLink (s : State) (t n : Nat) (x : LinkSt) : State :=
  { s with lode := { s.lode with links := Tbl.set {} s.lode.links (slotKey t n) x } }

/-- LNK_PHY_STATUS.STATE (R125). -/
def linkState (s : State) (t n : Nat) : Nat := gf s t (lnk n 0) 20 4

/-- Whether a slot has a link that has not been declared down: ACTIVE, CHANGE or RECOVER (R204). -/
def linkAlive (s : State) (t n : Nat) : Bool :=
  linkState s t n == 6 || linkState s t n == 7 || linkState s t n == 8

/-- The epoch of a slot (R155). -/
def linkEpoch (s : State) (t n : Nat) : Nat := gf s t (lnk n 0x40) 16 16

/-- Whether a local port is bifurcated into two sublinks (R11), as its slots show it: W of its first slot is 512. -/
def bifurcated (s : State) (t p : Nat) : Bool := gf s t (lnk (2 * p) 0x40) 0 11 == 512

/-- Whether the part and its bifurcation have the local port `l`, sublink `sub` (R212 order 9). -/
def localExists (s : State) (l sub : Nat) : Bool :=
  decide (l < 4 * s.part.tiles) && (sub == 0 || (sub == 1 && bifurcated s (l / 4) (l % 4)))

/-- The neighbour a tile link leads to (R14): slot 8 LEFT, 9 RIGHT, 10 ACROSS. -/
def neighbour (p : Part) (t n : Nat) : Nat :=
  match p, n with
  | .il280, _ => 1 - t
  | .il480, 8 => (t + 3) % 4
  | .il480, 9 => (t + 1) % 4
  | .il480, _ => (t + 2) % 4
  | .il880, 8 => (t + 7) % 8
  | .il880, 9 => (t + 1) % 8
  | .il880, _ => (t + 4) % 8

/-- The slot at the far end of a tile link (R14): RIGHT meets LEFT, ACROSS meets ACROSS. -/
def farSlot (n : Nat) : Nat :=
  match n with
  | 8 => 9
  | 9 => 8
  | n => n

/-- The tile link a frame leaves tile `s` by toward tile `d` (R15, R16). -/
def hop (p : Part) (src d : Nat) (inst : Option Nat) : Nat :=
  match p with
  | .il280 => match inst with
    | some i => 8 + i % 3
    | none => 8
  | .il480 => match (d + 4 - src) % 4 with
    | 1 => 9
    | 2 => 10
    | _ => 8
  | .il880 => match (d + 8 - src) % 8 with
    | 1 => 9
    | 2 => 9
    | 3 => 10
    | 4 => 10
    | 5 => 10
    | _ => 8

/-- The instance a frame belongs to, none with GLOBAL (R224). -/
def Frame.instOpt (f : Frame) : Option Nat := if f.pkt.glob then none else some f.pkt.inst

/-- Outputs of a tile: host links, local sublinks, tile links, ports 8 to 11. -/
abbrev outCount : Nat := 19

/-- The switch port of an output (R12). -/
def outPort (o : Nat) : Nat :=
  if o < 4 then 0 else if o < 12 then 1 + (o - 4) / 2 else if o < 15 then 5 + (o - 12) else 8 + (o - 15)

/-- The output a frame leaves tile `t` by (R13, R15). -/
def outOf (s : State) (t : Nat) (f : Frame) : Nat :=
  if f.dstTile = t then
    if f.dstPort = 0 then f.dstSub
    else if f.dstPort < 5 then 4 + 2 * (f.dstPort - 1) + f.dstSub
    else 15 + (Nat.min f.dstPort 11 - 8)
  else 12 + (hop s.part t f.dstTile f.instOpt - 8)

/-- Whether a host link is up: its Data Link Layer is up (R204: a host link is down until L0 again). -/
def hostUp (s : State) (h : Nat) : Bool := gf s (h / 4) (hpt (h % 4) 0) 31 1 == 1

/-- Whether an output's link is up (R204); ports 8 to 11 have none. -/
def outUp (s : State) (t o : Nat) : Bool :=
  if o < 4 then hostUp s (4 * t + o)
  else if o < 15 then linkAlive s t (o - 4)
  else true

/-- Whether the tile's own ports are closed as R20 says: before COMPOSE, fenced, or under a tile reset. -/
def portsClosed (s : State) (t : Nat) : Bool :=
  decide (mode s t ≤ 1) || (tileSt s t).fenced || (tileSt s t).resetting

/-- STR_STATUS.RECOVERY_SHAPE. -/
def recoveryShape (s : State) : Bool := gf s 0 0xA000000 3 1 == 1

/-- Whether the tile refuses instance traffic at every port (R52): COMPOSE, TEST, degraded RECOVERY. -/
def refusesInstances (s : State) (t : Nat) : Bool := mode s t != 3

/-- An instance's home tile (R4). -/
abbrev homeTile (i : Nat) : Nat := i / 512

/-- Whether an instance is live (R53, R114): its home tile and the tile of its link are in SERVICE, and its function
exists. -/
def live (s : State) (i : Nat) : Bool :=
  match (instOf s i).state, (instOf s i).fn with
  | .bound, some (h, f) => mode s (homeTile i) == 3 && mode s (linkTile h) == 3 && fnExists s h f
  | _, _ => false

/-! ## Ingress -/

/-- Key of an ingress queue. -/
abbrev ingKey (t p sub : Nat) : Nat := t * 64 + p * 4 + sub

/-- Hands a frame to a switch-core port of tile `t`, where FRAME_ARRIVAL takes it. -/
def sendIn (s : State) (t p sub : Nat) (f : Frame) : State :=
  { s with swc := { s.swc with ingress := Tbl.app s.swc.ingress (ingKey t p sub) [f] } }

/-- A frame enters by the port it comes from (R13): the ingress queue of its source link or sublink. -/
def enter (s : State) (f : Frame) : State := sendIn s f.srcTile f.srcPort f.srcSub f

/-- Whether a frame goes to its destination tile's window translation, which takes stored frames and is no switch port. -/
def Frame.toWtt (f : Frame) : Bool := f.dstPort == 12

/-- Whether a tile turns away a frame addressed to one of its own ports (R20): control space still answers in the recovery shape
(R46). -/
def turnsAway (s : State) (t : Nat) (f : Frame) : Bool :=
  match f.cargo with
  | .control _ => portsClosed s t && !recoveryShape s
  | _ => portsClosed s t && !(recoveryShape s && f.srcPort == 10)

/-- Whether a frame at a port of tile `t` is on its second hop there (R18): it came by a tile link and goes on by another, and is no host
request or LOCK_END that this tile, its home, has just sent on its way. -/
def Frame.secondHop (f : Frame) (t p : Nat) : Bool :=
  decide (5 ≤ p) && decide (p < 8) && f.dstTile != t &&
  !(f.srcPort == 0 && !f.pkt.glob && !f.pkt.isRsp && homeTile f.pkt.inst == t && decide (1 ≤ f.dstPort) && decide (f.dstPort < 5))

/-- The record of a posted frame on its way (R228). -/
def notePosted (s : State) (r : PostedRec) : State :=
  { s with brg := { s.brg with posted := s.brg.posted ++ [r] } }

/-- Free cells of the shared area become `n`; SHARED_LOW is set when they fall below 4,096 (R206). -/
def setShared (s : State) (t n : Nat) : State :=
  let old := gf s t 0x3000018 0 18
  let s := if n = old then s else sf s t 0x3000018 0 18 n
  if n < 4096 ∧ 4096 ≤ old then evt s t 34 1 else s

/-! ## Credits returned (R153) -/

/-- The count of a class. -/
def Cr4.get (c : Cr4) (k : Nat) : Nat :=
  match k with
  | 0 => c.p
  | 1 => c.q
  | 2 => c.r
  | _ => c.c

/-- Replaces the count of a class. -/
def Cr4.set (c : Cr4) (k v : Nat) : Cr4 :=
  match k with
  | 0 => { c with p := v }
  | 1 => { c with q := v }
  | 2 => { c with r := v }
  | _ => { c with c := v }

/-- Units of a packet leave this receiver's pool: the class's running total of returns grows (R153). -/
def creditReturn (s : State) (t n c u : Nat) : State :=
  let x := linkSt s t n
  setLink s t n { x with crRet := x.crRet.set c (x.crRet.get c + u) }

end Sys2Proof.Machine
end

