-- ==== Sys2Proof/Machine/Store.lean ====
section
/-! DEFINITION. What a switch core stores (09): the accounts (R186), stored frames and their references (R184, R202), the output
queues (R190), and the removal of frames from them. -/

namespace Sys2Proof.Machine

open Sys2Proof

/-- Key of an output queue (R190). -/
abbrev qKey (t o inp c : Nat) : Nat := ((t * 19 + o) * 12 + inp) * 4 + c

/-- Key of a stored frame. -/
abbrev frKey (t id : Nat) : Nat := t * 2 ^ 32 + id

/-- The pointers of a queue, head first. -/
def queueOf (s : State) (k : Nat) : List (Nat × Option (Nat × Nat)) := Tbl.get [] s.swc.queues k

/-- Replaces a queue. -/
def setQueue (s : State) (k : Nat) (l : List (Nat × Option (Nat × Nat))) : State :=
  { s with swc := { s.swc with queues := Tbl.set [] s.swc.queues k l } }

/-- A stored frame of a tile. -/
def storedOf (s : State) (t id : Nat) : Option Stored := Tbl.find? s.swc.frames (frKey t id)

/-- Replaces a stored frame. -/
def putStored (s : State) (t id : Nat) (x : Stored) : State :=
  { s with swc := { s.swc with frames := Tbl.ins s.swc.frames (frKey t id) x } }

/-- Takes a stored frame out. -/
def delStored (s : State) (t id : Nat) : State :=
  { s with swc := { s.swc with frames := Tbl.del s.swc.frames (frKey t id) } }

/-- The register field that counts an account's use: offset, lowest bit, width; and its size (R186, R206). -/
def acctField (a : Acct) : Option (Nat × Nat × Nat × Nat) :=
  match a with
  | .transit => some (0x300001C, 0, 14, 8192)
  | .host => some (0x3000028, 0, 12, 2048)
  | .cls 0 => some (0x3000020, 0, 16, 4096)
  | .cls 1 => some (0x3000020, 16, 16, 4096)
  | .cls 2 => some (0x3000024, 0, 16, 16384)
  | .cls _ => some (0x3000024, 16, 16, 1024)
  | .pool => none
  | .shared => none

/-- Free cells of an account. -/
def acctFree (s : State) (t : Nat) (a : Acct) : Nat :=
  match a with
  | .shared => gf s t 0x3000018 0 18
  | .pool => 2 ^ 20
  | _ => match acctField a with
    | some (o, lo, n, size) => size - gf s t o lo n
    | none => 0

/-- Charges cells to an account; SHARED_LOW is set when the shared area falls below 4,096 free cells (R206). -/
def charge (s : State) (t : Nat) (a : Acct) (n : Nat) : State :=
  match a with
  | .pool => s
  | .shared => setShared s t (gf s t 0x3000018 0 18 - n)
  | _ => match acctField a with
    | some (o, lo, w, _) => sf s t o lo w (gf s t o lo w + n)
    | none => s

/-- Returns the cells of a stored frame to their account; a frame that leaves a Lode receive pool returns its credit
units (R153, R188). -/
def uncharge (s : State) (t : Nat) (x : Stored) : State :=
  match x.acct with
  | .pool => match x.f.credit with
    | some (k, c, u) => creditReturn s (k / 11) (k % 11) c u
    | none => s
  | .shared => sf s t 0x3000018 0 18 (gf s t 0x3000018 0 18 + x.cells)
  | _ => match acctField x.acct with
    | some (o, lo, w, _) => sf s t o lo w (gf s t o lo w - x.cells)
    | none => s

/-- A reference to a stored frame is released; the last one frees its cells (R202). -/
def dropRef (s : State) (t id : Nat) : State :=
  match storedOf s t id with
  | none => s
  | some x =>
    if x.refs ≤ 1 then
      let s := uncharge (delStored s t id) t x
      if x.f.mc.isSome then sf s t 0x300002C 0 18 (gf s t 0x300002C 0 18 - x.cells) else s
    else putStored s t id { x with refs := x.refs - 1 }

/-- SWC_P_QUEUED of an output's port changes by a frame's cells. -/
def queued (s : State) (t o : Nat) (up : Bool) (cells : Nat) : State :=
  let q := gf s t (swcP (outPort o) 8) 0 18
  sf s t (swcP (outPort o) 8) 0 18 (if up then q + cells else q - cells)

/-- Whether a pointer is that of a NOTICE. -/
def noticePtr (s : State) (t : Nat) (p : Nat × Option (Nat × Nat)) : Bool :=
  (storedOf s t p.1).any (fun x => x.f.pkt.ty == .notice)

/-- Puts a pointer at the end of a queue; a NOTICE passes every frame of its queue but earlier NOTICEs (R225). -/
def enqueue (s : State) (t o inp c : Nat) (ptr : Nat × Option (Nat × Nat)) (cells : Nat) : State :=
  let q := queueOf s (qKey t o inp c)
  let q' := if noticePtr s t ptr then q.takeWhile (noticePtr s t) ++ ptr :: q.dropWhile (noticePtr s t) else q ++ [ptr]
  queued (setQueue s (qKey t o inp c) q') t o true cells

/-- Takes the head pointer off a queue: the next head is not urgent until it has waited its own time (R192, R205). -/
def popHead (s : State) (t o inp c : Nat) : State :=
  let k := qKey t o inp c
  match queueOf s k with
  | [] => s
  | p :: rest =>
    let cells := match storedOf s t p.1 with
      | some x => x.cells
      | none => 0
    let s := queued (setQueue s k rest) t o false cells
    { s with swc := { s.swc with urgent := s.swc.urgent.filter (fun u => u != k) } }

/-- Removes the frames that a test picks from every queue of a tile, with their cells. -/
def purge (s : State) (t : Nat) (p : Stored → Bool) : State :=
  let gone := s.swc.frames.filter (fun e => e.1 / 2 ^ 32 == t && p e.2)
  gone.foldl (fun s e =>
    let id := e.1 % 2 ^ 32
    let ks := s.swc.queues.filter (fun q => q.1 / 48 / 19 == t && q.2.any (fun x => x.1 == id))
    let s := ks.foldl (fun s q =>
      queued (setQueue s q.1 ((queueOf s q.1).filter (fun x => x.1 != id))) t (q.1 / 48 % 19) false e.2.cells) s
    let s := uncharge (delStored s t id) t e.2
    if e.2.f.mc.isSome then sf s t 0x300002C 0 18 (gf s t 0x300002C 0 18 - e.2.cells) else s) s

end Sys2Proof.Machine
end

