-- ==== Sys2Proof/Machine/Answer.lean ====
section
/-! DEFINITION. Answers to issuers (R156, R230, R231, R233), the holds of frames across paths (R228), and the end of a discarded
frame. -/

namespace Sys2Proof.Machine

open Sys2Proof

/-! ## Holds (R228) -/

/-- Whether two held items lie on one path in one class, so that the later may not pass the earlier (R224). -/
def sameHold (a b : Held1) : Bool :=
  match a, b with
  | .frame t _ f, .frame u _ g =>
    t == u && f.instOpt == g.instOpt && f.srcTile == g.srcTile && f.srcPort == g.srcPort && f.srcSub == g.srcSub &&
    f.dstTile == g.dstTile && f.dstPort == g.dstPort && f.dstSub == g.dstSub && f.pkt.cls == g.pkt.cls
  | .event t n _, .event u m _ => t == u && n == m
  | .vector i _, .vector j _ => i == j
  | .request t _ _ i l, .request u _ _ j m => t == u && i == j && l == m
  | .frame _ _ _, _ => false
  | .event _ _ _, _ => false
  | .vector _ _, _ => false
  | .request _ _ _ _ _, _ => false

/-- Keeps an item until the posted frames it waits for have settled, or have left where that is enough (R224, R228). -/
def startHold (s : State) (waits : List Nat) (item : Held1) (sentOk : Bool := false) : State :=
  let h : Hold := ⟨s.brg.nextHold, waits, item, sentOk⟩
  { s with brg := { s.brg with holds := s.brg.holds ++ [h], nextHold := s.brg.nextHold + 1 } }

/-- A frame enters by its port at once, or is held behind what it waits for and what is held before it on its path. -/
def enterAfter (s : State) (waits : List Nat) (sentOk : Bool) (f : Frame) : State :=
  let item : Held1 := .frame f.srcTile f.srcPort f
  if waits.isEmpty ∧ s.brg.holds.any (fun h => sameHold h.item item) = false then enter s f
  else startHold s waits item sentOk

/-- The posted writes of an instance from a host link that are still to leave by a local slot, or that no resolution has yet given
their way (R224). -/
def postedToSlot (s : State) (i link k : Nat) : List Nat :=
  (s.brg.posted.filter (fun r => r.inst == i && r.fromHost == some link && !r.sent &&
    (!r.resolved || r.toSlot == some k))).map PostedRec.serial

/-- A posted frame has left by its Lode link. -/
def markSent (s : State) (serial : Nat) : State :=
  { s with brg := { s.brg with posted := s.brg.posted.map (fun r => if r.serial = serial then { r with sent := true } else r) } }

/-! ## Answers -/

/-- The completion status a host sees for an LTP status (R231). -/
def hostStatus (st : Nat) : Nat := if st = 0 then 0 else if st = 1 then 1 else 4

/-- The completions of a read's data at the Read Completion Boundary and Max_Payload_Size, in ascending address order
(R230); `fuel` bounds the number of pieces. -/
def splitCpl (mps rcb : Nat) : Nat → Nat → List Byte → List (List Byte)
  | 0, _, l => [l]
  | fuel + 1, a, l =>
    if l.length ≤ mps then [l]
    else
      let n := (a + mps) / rcb * rcb - a
      l.take n :: splitCpl mps rcb fuel (a + n) (l.drop n)

/-- The pieces of a transfer, none longer than a size (R98, R233), as offset and length; `fuel` bounds
their number. -/
def splitRead (size : Nat) : Nat → Nat → Nat → List (Nat × Nat)
  | 0, _, _ => []
  | fuel + 1, off, len =>
    if len = 0 then [] else (off, Nat.min size len) :: splitRead size fuel (off + Nat.min size len) (len - Nat.min size len)

/-- Notes that an issuer's request has crossed a Lode link (R155). -/
def noteCross (s : State) (iss : Issuer) (l : Nat × Nat) : State :=
  match iss with
  | .nobody => s
  | .dmaWr _ _ => s
  | .inbound _ _ => { s with brg := { s.brg with crossed := s.brg.crossed ++ [(iss, l)] } }
  | .dmaTag _ _ => { s with brg := { s.brg with crossed := s.brg.crossed ++ [(iss, l)] } }
  | .held _ _ _ _ => { s with brg := { s.brg with crossed := s.brg.crossed ++ [(iss, l)] } }
  | .stream _ _ => { s with brg := { s.brg with crossed := s.brg.crossed ++ [(iss, l)] } }
  | .lock _ _ => { s with brg := { s.brg with crossed := s.brg.crossed ++ [(iss, l)] } }

/-- A read ends: a FENCE waits for it no more (R221). -/
def unfence (s : State) (iss : Issuer) : State :=
  { s with wtt := { s.wtt with run := s.wtt.run.map (fun e =>
      (e.1, e.2.map (fun r => { r with reads := r.reads.filter (fun i => i != iss) }))) } }

/-- An issuer that waits no more drops its record. -/
def uncross (s : State) (iss : Issuer) : State :=
  let s := unfence s iss
  { s with brg := { s.brg with crossed := s.brg.crossed.filter (fun e => e.1 != iss) } }

/-- Completes a host request and frees its inbound entry (R230, R231, R108); Relaxed Ordering and No Snoop come from the response
frame (R226). -/
def completeInb (s : State) (t e status : Nat) (data : List Byte) (ep : Bool) (rlx ns : Bool := false) : State :=
  match Tbl.get none s.host.inb (t * 1024 + e) with
  | none => s
  | some b =>
    let s := uncross s (.inbound t e)
    let s := { s with host := { s.host with inb := Tbl.set none s.host.inb (t * 1024 + e) none } }
    let st := hostStatus status
    if st = 0 then
      (splitCpl (mpsOf s b.link) (rcbOf s b.link) 64 b.addr data).foldl
        (fun s d => emit s (.cpl b.link b.rid b.tag 0 d ep rlx ns)) s
    else
      aerLog (emit s (.cpl b.link b.rid b.tag st [] false rlx ns)) b.link b.fn aerCA true

/-- The held-read slots of a local slot: 64 on an x8 port, 32 on a sublink (R174). -/
def heldSlots (s : State) (t n : Nat) : Nat := if bifurcated s t (n / 2) then 32 else 64

/-- A held read in a slot. -/
def heldRd (s : State) (t n k : Nat) : Option HeldRd := Tbl.get none s.lode.held ((t * 8 + n) * 64 + k)

/-- Puts a held read in a slot, or frees it. -/
def setHeld (s : State) (t n k : Nat) (x : Option HeldRd) : State :=
  let s := if x.isNone then unfence s (.held t n k 0) else s
  { s with lode := { s.lode with held := Tbl.set none s.lode.held ((t * 8 + n) * 64 + k) x } }

/-- The slots in use on a local slot. -/
def heldUse (s : State) (t n : Nat) : Nat :=
  ((List.range 64).filter (fun k => (heldRd s t n k).isSome)).length

/-- LTP_HELD after a change of the slots in use (R183). -/
def heldCount (s : State) (t n : Nat) : State :=
  let u := heldUse s t n
  let s := sf s t (ltp n 4) 0 7 u
  sf s t (ltp n 4) 16 7 (Nat.max u (gf s t (ltp n 4) 16 7))

/-- The response the device sends a partner for one of its requests (R169, R170): it echoes INSTANCE, GEN, GLOBAL, TAG
and RLX. -/
def rspPkt (p : Pkt) (status : Nat) (data : List Byte) (ep : Bool) : Pkt :=
  { ty := if status = 0 then .rspD else .rsp, cls := 2, tag := p.tag, len := if status = 0 then p.len else 0,
    inst := p.inst, gen := p.gen, rlx := p.rlx, ns := p.ns, ep := ep && status == 0, glob := p.glob, addr := status,
    data := if status = 0 then data else [] }

/-- The issuer part that names a held-read slot's own response. -/
abbrev ownRsp : Nat := 64

/-- The response frame toward the partner on a local slot from a switch port of a tile, for the read in held-read slot `k` or for
a request that has none. -/
def rspFrame (serial srcTile srcPort srcSub t n : Nat) (p : Pkt) (epoch status : Nat) (data : List Byte) (ep : Bool)
    (k : Option Nat) : Frame :=
  { serial := serial, pkt := rspPkt p status data ep, srcTile := srcTile, srcPort := srcPort, srcSub := srcSub, dstTile := t,
    dstPort := 1 + n / 2, dstSub := n % 2, links := [(slotKey t n, epoch)],
    issuer := match k with
      | some k => .held t n k ownRsp
      | none => .nobody }

/-- Notes the response of a held read that is now on its way (R174). -/
def heldSent (s : State) (t n : Nat) (k : Option Nat) (serial : Nat) : State :=
  match k with
  | none => s
  | some k => match heldRd s t n k with
    | some h => setHeld s t n k (some { h with rsp := some serial })
    | none => s

/-- The device's own answer to the partner on a local slot leaves by that slot's port (R171). -/
def rspOwn (s : State) (t n : Nat) (p : Pkt) (epoch status : Nat) (data : List Byte) (k : Option Nat) : State :=
  let (id, s) := newSerial s
  enter (heldSent s t n k id) (rspFrame id t (1 + n / 2) (n % 2) t n p epoch status data false k)

/-- A held-read slot is given back (R174). -/
def heldFree (s : State) (t n k : Nat) : State := heldCount (setHeld s t n k none) t n

/-- The status of a held read whose host reads have ended (R233): the first row of the table that applies. -/
def heldStatus (parts : List HeldPart) : Nat :=
  let has (st : Nat) : Bool := parts.any (fun p => p.status == some st)
  if has 3 then 3 else if has 4 then 4 else if has 2 then 2 else if has 1 then 1
  else (parts.filterMap (fun p => match p.status with | some 0 => none | x => x)).headD 0

/-- Answers the partner once every host read of a held read has ended (R233), from the host port of the link that the reads went
to, behind the earlier writes of its path where RLX is clear (R224, R228). -/
def heldFinish (s : State) (t n k : Nat) : State :=
  match heldRd s t n k with
  | none => s
  | some h =>
    if h.rsp.isNone && h.parts.all (fun p => p.status.isSome) then
      let st := heldStatus h.parts
      if h.pkt.glob then rspOwn s t n h.pkt h.epoch st (h.parts.flatMap HeldPart.data) (some k) else
      let waits := if h.pkt.rlx then [] else postedToSlot s h.pkt.inst h.link (slotKey t n)
      let (id, s) := newSerial s
      enterAfter (heldSent s t n (some k) id) waits true
        (rspFrame id (linkTile h.link) 0 (h.link % 4) t n h.pkt h.epoch st (h.parts.flatMap HeldPart.data) (h.parts.any HeldPart.ep)
          (some k))
    else s

/-- A held read whose response is lost on its way inside the package is answered anew, for its RD is answered exactly once (R171). -/
def heldAgain (s : State) (t n k status : Nat) : State :=
  match heldRd s t n k with
  | some h => if h.rsp.isSome then rspOwn s t n h.pkt h.epoch status [] (some k) else s
  | none => s

/-- One host read of a held read ends (R233). -/
def heldPartEnd (s : State) (t n k part status : Nat) (data : List Byte) (ep : Bool) : State :=
  match heldRd s t n k with
  | none => s
  | some h =>
    if part = ownRsp ∨ (h.pkt.glob ∧ h.rsp.isSome) then heldAgain s t n k status else
    let ps := h.parts.zipIdx.map (fun (p, i) =>
      if i = part then { p with status := some status, data := data, ep := ep } else p)
    heldFinish (setHeld s t n k (some { h with parts := ps })) t n k

/-- Puts host requests whose resolution stands back at the front of a tile's resolution queue. -/
def requeue (s : State) (t : Nat) (l : List (Nat × Hit)) : State :=
  let q := l.map (fun x => (x.1, some x.2)) ++ Tbl.get [] s.host.resolve t
  { s with host := { s.host with resolve := Tbl.set [] s.host.resolve t q } }

/-- A prefetch stream of a tile. -/
def streamOf (s : State) (t k : Nat) : Option Stream := Tbl.get none s.wtt.streams (t * 256 + k)

/-- Shared-area cells the data of a stream occupies (R217): whole cells of 256 bytes for each block that has arrived. -/
def Stream.cells (x : Stream) : Nat :=
  (x.parts.map (fun p => if p.data.isSome then (p.len + 255) / 256 else 0)).sum

/-- Replaces a prefetch stream, its cells with it. -/
def setStream (s : State) (t k : Nat) (x : Option Stream) : State :=
  let was := ((streamOf s t k).map Stream.cells).getD 0
  let now := (x.map Stream.cells).getD 0
  let s := setShared s t (gf s t 0x3000018 0 18 + was - now)
  { s with wtt := { s.wtt with streams := Tbl.set none s.wtt.streams (t * 256 + k) x } }

/-- Discards a stream: its data is counted once if any of it went undelivered, and reads that waited for it are issued
normally (R217 step 4). -/
def dropStream (s : State) (t k : Nat) : State :=
  match streamOf s t k with
  | none => s
  | some x =>
    let s := setStream s t k none
    let s := if x.parts.any (fun p => p.data.isSome && p.len != 0) then cf s t 0x4000018 16 16 else s
    requeue s t x.waiters

/-- The answer to one RD of a stream (R217), named by its serial × 256 + stream: data joins the stream and the reads
waiting for it are tried again; any error status discards it. -/
def streamEnd (s : State) (t name status : Nat) (data : List Byte) (ep : Bool) : State :=
  let k := name % 256
  let s := { s with wtt := { s.wtt with ahead := s.wtt.ahead.filter (fun a => a.1 != name / 256) } }
  match streamOf s t k with
  | none => s
  | some x =>
    if x.parts.any (fun p => p.id == name / 256) then
      if status ≠ 0 then dropStream s t k
      else
        let ps := x.parts.map (fun p => if p.id = name / 256 then { p with data := some data, ep := ep } else p)
        requeue (setStream s t k (some { x with parts := ps, waiters := [] })) t x.waiters
    else s

/-- A lock's state on a local slot. -/
def lockSt (s : State) (t n : Nat) : LockSt := Tbl.get {} s.lode.locks (t * 8 + n)

/-- Replaces a lock's state. -/
def setLock (s : State) (t n : Nat) (x : LockSt) : State :=
  { s with lode := { s.lode with locks := Tbl.set {} s.lode.locks (t * 8 + n) x } }

/-- A LOCK_BEGIN that is refused, lost, late or aged (R236): the locked read leaves its queue and completes with Completer Abort,
and no lock is taken. -/
def lockRefused (s : State) (t n : Nat) : State :=
  let l := lockSt s t n
  match l.begun with
  | none => s
  | some f =>
    let s := setLock s t n { l with begun := none, sent := false, wait := l.wait.filter (fun g => g.serial != f.serial) }
    let s := wreg (cf s t (ltp n 0x24) 0 16) t (ltp n 0xC) 0
    let s := purge s t (fun x => x.f.serial == f.serial)
    match f.issuer with
    | .inbound t' e => completeInb s t' e 2 [] false
    | _ => s

/-- Locked reads that stop waiting for a local slot leave its queues, and with one of them a LOCK_BEGIN that has not been sent. -/
def cancelLocked (s : State) (t n : Nat) (gone : Frame → Bool) : State :=
  let l := lockSt s t n
  let s := (l.wait.filter gone).foldl (fun s f => purge s t (fun x => x.f.serial == f.serial)) s
  let begun := !l.sent && l.begun.any gone
  let s := if begun then purge s t (fun x => x.f.issuer == .lock t n) else s
  setLock s t n { l with wait := l.wait.filter (fun f => !gone f), begun := if begun then none else l.begun }

/-- LOCK_END enters from the management port of the tile whose local slot is locked. -/
def sendLockEnd (s : State) (t n : Nat) : State :=
  match (lockSt s t n).holder with
  | none => s
  | some (i, _) =>
    let (k, s) := newSerial s
    sendIn s t 10 0
      { serial := k, pkt := { ty := .lockEnd, cls := 3, inst := i, gen := (instOf s i).gen },
        srcTile := t, srcPort := 10, dstTile := t, dstPort := 1 + n / 2, dstSub := n % 2 }

/-- Every lock of a function ends where it is held (R113, R238): LOCK_END is sent, and the refusals of R238 end. -/
def endLocks (s : State) (h f : Nat) : State :=
  s.lode.locks.foldl (fun s e =>
    let t := e.1 / 8
    let n := e.1 % 8
    let l := lockSt s t n
    let s := setLock s t n { l with ended := l.ended.filter (fun x => x != fnKey h f) }
    match l.holder with
    | some (_, g) => if g = fnKey h f then sendLockEnd s t n else s
    | none => s) s

/-- A LOCK_END or an Unlock that is lost on its way to a port still ends the lock there (R113). -/
def endMarker (s : State) (f : Frame) : State :=
  match f.cargo with
  | .unlock h g => endLocks s h g
  | _ => if f.pkt.ty = .lockEnd then sendLockEnd s f.dstTile (2 * (f.dstPort - 1) + f.dstSub) else s

/-- Gives an issuer the answer to its request (R156, R231, R233): a host completion, read data or an error for a DMA
read, the settlement of a DMA write, the end of a held read's part, a read-ahead's data, a refused lock (R236). An
issuer that no longer waits takes nothing. -/
def answer (s : State) (iss : Issuer) (status : Nat) (data : List Byte) (ep : Bool) : State :=
  let s := uncross s iss
  match iss with
  | .nobody => s
  | .inbound t e => completeInb s t e status data ep
  | .dmaTag t tag =>
    { s with dma := { s.dma with dataIn := Tbl.app s.dma.dataIn t [⟨tag, status, data, ep⟩] } }
  | .dmaWr t w =>
    { s with dma := { s.dma with settles := Tbl.app s.dma.settles t [(w, status)] } }
  | .held t n k part => heldPartEnd s t n k part status data ep
  | .stream t k => streamEnd s t k status data ep
  | .lock t n => lockRefused s t n

/-- The end of a response that is discarded on its way: one lost with a link leaves its issuer LINK_LOST (R156, R171; DEDUCED, log
entry 62); one discarded otherwise gives back its held-read slot. -/
def endRsp (s : State) (f : Frame) (status : Nat) : State :=
  match f.issuer with
  | .held t n k part =>
    if part = ownRsp ∧ (heldRd s t n k).any (fun h => h.rsp == some f.serial) then
      (if status = 3 then heldAgain s t n k 3 else heldFree s t n k)
    else s
  | .inbound t e => if status = 3 then completeInb s t e 3 [] false else s
  | .dmaTag t g => if status = 3 then answer s (.dmaTag t g) 3 [] false else s
  | _ => s

/-- The end of a frame that is discarded (R156, R198, R204): nothing waits for a posted frame any more; a non-posted
request is answered with `status`, and so is a DMA write's issuer; a locked read waits for its port no more. -/
def endFrame (s : State) (f : Frame) (status : Nat) : State :=
  let s := settle s f.serial
  if f.pkt.isReq then
    let n := 2 * (f.dstPort - 1) + f.dstSub
    let s := if f.locked.isSome then
        let l := lockSt s f.dstTile n
        setLock s f.dstTile n { l with wait := l.wait.filter (fun g => g.serial != f.serial) }
      else s
    answer s f.issuer status [] false
  else if f.pkt.isRsp then endRsp s f status
  else match f.issuer with
    | .dmaWr t w => answer s (.dmaWr t w) status [] false
    | _ => endMarker s f

/-- Whether every Lode link a frame has crossed is still in the epoch of the crossing (R157). -/
def epochsCurrent (s : State) (l : List (Nat × Nat)) : Bool :=
  l.all (fun x => linkEpoch s (x.1 / 11) (x.1 % 11) == x.2)

end Sys2Proof.Machine
end

