-- ==== Sys2Proof/Machine/Evc.lean ====
section
/-! DEFINITION. The event controller (15; what R323's handler reads and writes): pending, mask and lost bits, routes, eligibility, the delivery engine, DONE, mode
changes, and the meanings of its commands. -/

namespace Sys2Proof.Machine

open Sys2Proof

/-! ## Sources -/

/-- Whether a source may become pending (R310). -/
def srcEnabled (s : State) (t src : Nat) : Bool := gf s t (evcSrc src) 31 1 == 1 && !reservedSource src

/-- Whether a source is a level source (R310; pins as the image gives). -/
def srcLevel (s : State) (t src : Nat) : Bool := gf s t (evcSrc src) 30 1 == 1

/-- Whether the cause of a level source stands (R310). -/
def levelCause (s : State) (t src : Nat) : Bool :=
  if src < 16384 then false
  else if src < 20480 then
    let i := (src - 16384) / 8
    let b := (src - 16384) % 8
    decide (b < 6) && bit (instOf s (t * 512 + i)).events b
  else if src < 22528 then (Tbl.find? s.evc.lines (t * 2048 + (src - 20480))).isSome
  else if src < 22592 then
    (Tbl.get false s.evc.pins (t * 64 + (src - 22528))) != (gf s t (evcSrc src) 29 1 == 1)
  else if src < 24576 then false
  else if src < 26624 then
    match eventReg ((src - 24576) / 32) with
    | some off => bit (rreg s t off) ((src - 24576) % 32)
    | none => false
  else if src < 26638 then rreg s t (fltB (src - 26624) 4) != 0
  else false

/-- A source's pending bit (R310, R313). -/
def pendBit (s : State) (t src : Nat) : Bool :=
  srcEnabled s t src &&
  (if srcLevel s t src then levelCause s t src else bit (rreg s t (0x7000000 + 4 * (src / 32))) (src % 32))

/-- A source's mask bit. -/
def maskBit (s : State) (t src : Nat) : Bool := bit (rreg s t (0x7001000 + 4 * (src / 32))) (src % 32)

/-- A source's lost bit. -/
def lostBit (s : State) (t src : Nat) : Bool := bit (rreg s t (0x7002000 + 4 * (src / 32))) (src % 32)

/-- Whether a source is active: enabled, unmasked, and pending or lost. -/
def srcActive (s : State) (t src : Nat) : Bool :=
  srcEnabled s t src && !maskBit s t src && (pendBit s t src || lostBit s t src)

/-- A word made of 32 bits. -/
def packBits (f : Nat → Bool) : Word := word (((List.range 32).map (fun b => b2n (f b) * 2 ^ b)).sum)

/-- A pending word as a read presents it (R313). -/
def pendWord (s : State) (t w : Nat) : Word := packBits (fun b => pendBit s t (32 * w + b))

/-- The instance of the tile that holds a source: its queue or its events (R310). -/
def srcOwner (s : State) (t src : Nat) : Option Nat :=
  if src < 16384 then
    (List.find? (fun (e : Nat × Inst) => e.1 / 512 == t && e.2.state != .free &&
      decide (e.2.qBase ≤ src) && decide (src < e.2.qBase + e.2.qCount)) s.ins.recs).map Prod.fst
  else if src < 20480 then
    let i := t * 512 + (src - 16384) / 8
    if (instOf s i).state = .free then none else some i
  else none

/-- The instance of the tile that owns a target (R314). -/
def tgtOwner (s : State) (t x : Nat) : Option Nat :=
  (List.find? (fun (e : Nat × Inst) => e.1 / 512 == t && e.2.state != .free &&
    decide (e.2.etBase ≤ x) && decide (x < e.2.etBase + e.2.etCount)) s.ins.recs).map Prod.fst

/-- Offset of a target's register: 0 CFG, 4 STATE, 8 DONE, 12 LAST. -/
abbrev tgtReg (x o : Nat) : Nat := 0x7040000 + 16 * x + o

/-- A target's kind (R314): HOST where an instance owns it. -/
def tgtKind (s : State) (t x : Nat) : Nat :=
  if (tgtOwner s t x).isSome then 1 else gf s t (tgtReg x 0) 29 3

/-- The target a source causes messages at, if any (R315). -/
def srcTarget (s : State) (t src : Nat) : Option Nat :=
  let r := gf s t (evcSrc src) 0 11
  if 1024 ≤ r then none
  else if src < 20480 then (if (tgtOwner s t r).isSome && tgtOwner s t r == srcOwner s t src then some r else none)
  else if (tgtOwner s t r).isSome || tgtKind s t r == 0 then none
  else some r

/-- Whether a source's group is held (R316). -/
def groupHeld (s : State) (t src : Nat) : Bool := gf s t (0x7044000 + 4 * gf s t (evcSrc src) 16 8) 31 1 == 1

/-- A source's PRIORITY. -/
def srcPri (s : State) (t src : Nat) : Nat := gf s t (evcSrc src) 24 4

/-- Puts a number in a rising list. -/
def insNat (n : Nat) : List Nat → List Nat
  | [] => [n]
  | a :: r => if n < a then n :: a :: r else if n = a then a :: r else a :: insNat n r

/-- The bits set in a word, as source numbers from `base`. -/
def wordSrcs (base : Nat) (w : Word) : List Nat := (List.range 32).filterMap (fun b =>
  if bit w b then some (base + b) else none)

/-- The sources of a tile that may be active: those with a stored pending or lost bit, and the level sources whose
cause stands. -/
def candidates (s : State) (t : Nat) : List Nat :=
  let stored := s.regs.flatMap (fun e =>
    let o := e.1 - key t 0x7000000
    if key t 0x7000000 ≤ e.1 ∧ o < 0x1000 then wordSrcs (8 * o) e.2
    else if key t 0x7000000 ≤ e.1 ∧ 0x2000 ≤ o ∧ o < 0x3000 then wordSrcs (8 * (o - 0x2000)) e.2
    else [])
  let insts := s.ins.recs.flatMap (fun e =>
    if e.1 / 512 = t then wordSrcs (16384 + 8 * (e.1 % 512)) (e.2.events &&& 0x3F) else [])
  let lines := s.evc.lines.filterMap (fun e => if e.1 / 2048 = t then some (20480 + e.1 % 2048) else none)
  let pins := (List.range 64).map (22528 + ·)
  let blocks := (List.range 43).flatMap (fun r =>
    match eventReg r with
    | some off => wordSrcs (24576 + 32 * r) (rreg s t off)
    | none => [])
  let faults := (List.range 14).map (26624 + ·)
  ((stored ++ insts ++ lines ++ pins ++ blocks ++ faults).foldl (fun l n => insNat n l) []).filter
    (fun src => srcActive s t src)

/-- Sources eligible for some target, with that target, in rising order. -/
def eligibles (s : State) (t : Nat) : List (Nat × Nat) :=
  (candidates s t).filterMap (fun src =>
    match srcTarget s t src with
    | some x => if groupHeld s t src then none else some (src, x)
    | none => none)

/-! ## Targets -/

/-- Messages in service at a target. -/
def svcOf (s : State) (t x : Nat) : List Svc := Tbl.get [] s.evc.svc (t * 1024 + x)

/-- Replaces the messages in service at a target, with BUSY, LEVEL and IN_SERVICE of EVC_TGT_STATE. -/
def setSvc (s : State) (t x : Nat) (prio : Bool) (l : List Svc) : State :=
  let s := { s with evc := { s.evc with svc := Tbl.set [] s.evc.svc (t * 1024 + x) l } }
  let s := sf s t (tgtReg x 4) 23 1 (b2n (!prio && !l.isEmpty))
  let lv := if prio then l.map Svc.level else []
  let s := sf s t (tgtReg x 4) 16 4 (lv.foldl Nat.max 0)
  sf s t (tgtReg x 4) 0 16 ((lv.foldl (fun a n => if a / 2 ^ n % 2 = 1 then a else a + 2 ^ n) 0))

/-- Whether the tile's arbitration is priority (R52, R317): fixed in SERVICE only. -/
def prioMode (s : State) (t : Nat) : Bool := mode s t != 3

/-- Whether a LOCAL target's port is up. -/
def tgtPortUp (s : State) (t x : Nat) : Bool :=
  if tgtKind s t x = 2 then
    let l := gf s t (tgtReg x 0) 12 5
    linkAlive s (l / 4) (2 * (l % 4) + gf s t (tgtReg x 0) 11 1)
  else true

/-- The level in service at a target, counted from 1, 0 with nothing in service. -/
def svcLevel (s : State) (t x : Nat) : Nat := ((svcOf s t x).map (fun v => v.level + 1)).foldl Nat.max 0

/-- Whether a source qualifies at its target under priority arbitration. -/
def qualifies (s : State) (t src x : Nat) : Bool :=
  decide (gf s t (tgtReg x 0) 20 4 < srcPri s t src) && decide (svcLevel s t x < srcPri s t src + 1)

/-- Whether a target may receive, given the eligible sources. -/
def mayReceive (s : State) (t : Nat) (el : List (Nat × Nat)) (x : Nat) : Bool :=
  tgtKind s t x != 0 && tgtPortUp s t x &&
  (if prioMode s t then el.any (fun e => e.2 == x && qualifies s t e.1 x) else (svcOf s t x).isEmpty)

/-- The source of highest priority in a list, the lowest number first among equals. -/
def bestPri (s : State) (t : Nat) : List (Nat × Nat) → Option (Nat × Nat)
  | [] => none
  | e :: r =>
    match bestPri s t r with
    | none => some e
    | some b => if srcPri s t b.1 ≤ srcPri s t e.1 then some e else some b

/-- Whether a target has been eligible for longer than URGENCY (R317), by the crystal ticks. -/
def tgtUrgent (s : State) (t x : Nat) : Bool :=
  match Tbl.get none s.evc.since (t * 1024 + x) with
  | some k => decide (gf s t 0x7045000 0 10 * 32768 < (s.ticks - k) * 1000000)
  | none => false

/-- The tick since which a target has been eligible. -/
def tgtSince (s : State) (t x : Nat) : Nat := (Tbl.get none s.evc.since (t * 1024 + x)).getD 0

/-- The urgent target chosen first: the one urgent longest, then the lower number (R317 step 1). -/
def firstUrgent (s : State) (t : Nat) : List Nat → Option Nat
  | [] => none
  | x :: r =>
    match firstUrgent s t r with
    | none => some x
    | some y => if tgtSince s t y < tgtSince s t x then some y
                else if tgtSince s t x < tgtSince s t y then some x else some (Nat.min x y)

/-- The selection of R317: the source and target chosen, and whether by urgency. While targets are owed their message
of R324, THRESHOLD does not apply and only they are considered. -/
def select (s : State) (t : Nat) : Option (Nat × Nat × Bool) :=
  let el := eligibles s t
  let owed := el.filter (fun e => (Tbl.find? s.evc.resync (t * 1024 + e.2)).isSome && tgtPortUp s t e.2)
  if ¬ owed.isEmpty then
    (if prioMode s t then bestPri s t owed else owed.head?).map (fun e => (e.1, e.2, false))
  else
    let ok := el.filter (fun e => mayReceive s t el e.2 && (!prioMode s t || qualifies s t e.1 e.2))
    let urg := ((ok.map Prod.snd).foldl (fun l n => insNat n l) []).filter (fun x => tgtUrgent s t x)
    match firstUrgent s t urg with
    | some x =>
      let mine := ok.filter (fun e => e.2 == x)
      (if prioMode s t then bestPri s t mine else mine.head?).map (fun e => (e.1, e.2, true))
    | none => (if prioMode s t then bestPri s t ok else ok.head?).map (fun e => (e.1, e.2, false))

/-! ## What clearing a cause does -/

/-- A level source that has deasserted since its commit has vanished (R321). -/
def vanishTarget (s : State) (k : Nat) : State :=
  let t := k / 1024
  let x := k % 1024
  let l := svcOf s t x
  let gone (v : Svc) : Bool := !v.vanished && srcLevel s t v.src && !levelCause s t v.src
  if l.any gone then
    let n := (l.filter gone).length
    let s' := { s with evc := { s.evc with svc := Tbl.set [] s.evc.svc k (l.map (fun v =>
      if gone v then { v with vanished := true } else v)) } }
    let s' := cf s' t 0x7045004 16 16 n
    if l.any (fun v => gone v && v.seq == gf s t (tgtReg x 4) 24 8) then sf s' t (tgtReg x 4) 22 1 1 else s'
  else s

/-- Brings the controller of a tile up to date after a source may have cleared: vanished messages (R321), and the
targets that have stopped or begun to be eligible (R317). -/
def evcRefresh (s : State) (t : Nat) : State :=
  let s := (s.evc.svc.filter (fun e => e.1 / 1024 == t)).foldl (fun s e => vanishTarget s e.1) s
  let now := ((eligibles s t).map Prod.snd).foldl (fun l n => insNat n l) []
  let kept := s.evc.since.filter (fun e => e.1 / 1024 != t || now.contains (e.1 % 1024))
  { s with evc := { s.evc with since := now.foldl (fun tb x =>
      if (Tbl.find? tb (t * 1024 + x)).isSome then tb else Tbl.ins tb (t * 1024 + x) (some s.ticks)) kept } }

/-! ## Commit and carriage -/

/-- The posted frames of an instance that its home tile has sent toward a host link and that are not yet on it
(R228). -/
def postedToHost (s : State) (i : Nat) (h : Option Nat) : List Nat :=
  (s.brg.posted.filter (fun r => r.inst == i && r.home == homeTile i && r.toHost.isSome &&
    (h.isNone || r.toHost == h))).map PostedRec.serial

/-- The posted frames that a message of a source waits for (R228): those that the instance's home tile had sent toward its host link when
the source became pending, and the completion entries that have set it. -/
def vectorWaits (s : State) (i t src : Nat) : List Nat :=
  let (upTo, entries) := match Tbl.find? s.evc.pendAt (t * 32768 + src) with
    | some (n, l, _) => (n, l)
    | none => (0, [])
  let h := (instOf s i).fn.map Prod.fst
  (s.brg.posted.filter (fun r => r.inst == i && r.home == homeTile i && r.toHost.isSome && (h.isNone || r.toHost == h) &&
    (decide (r.serial < upTo) || entries.contains r.serial))).map PostedRec.serial

/-- Hands the message of an instance's source to MSIX_SEND, behind the holds of R228. -/
def sendVector (s : State) (i v t src : Nat) : State :=
  let waits := vectorWaits s i t src
  let s := { s with evc := { s.evc with pendAt := s.evc.pendAt.map (fun e =>
    if e.1 = t * 32768 + src then (e.1, e.2.1, e.2.2.1, true) else e) } }
  if waits.isEmpty ∧ s.brg.holds.any (fun h => sameHold h.item (.vector i v)) = false then
    { s with evc := { s.evc with vecDue := s.evc.vecDue ++ [(i, v)] } }
  else startHold s waits (.vector i v)

/-- A message that the PBA holds is to be tried again (R106). -/
def retryVec (s : State) (i v : Nat) : State :=
  if s.evc.vecRetry.contains (i, v) then s else { s with evc := { s.evc with vecRetry := s.evc.vecRetry ++ [(i, v)] } }

/-- The number under which MSIX_SEND names the manager function in place of an instance. -/
abbrev managerInst : Nat := 4096

/-- Carries a committed message by its target's kind (R319). -/
def carry (s : State) (t x src : Nat) : State :=
  match tgtKind s t x with
  | 1 =>
    match tgtOwner s t x with
    | some i =>
      let v := gf s t (tgtReg x 0) 0 11
      if (instOf s i).vCount ≤ v then cf s t 0x704500C 0 16 else sendVector s i v t src
    | none => s
  | 2 =>
    let l := gf s t (tgtReg x 0) 12 5
    let (k, s) := newSerial s
    sendIn s t 10 0 { serial := k, pkt := { ty := .event, opx := 3, glob := true, addr := x + t * 65536 },
                      srcTile := t, srcPort := 10, dstTile := l / 4, dstPort := 1 + l % 4,
                      dstSub := gf s t (tgtReg x 0) 11 1 }
  | 3 => { s with evc := { s.evc with hfDue := Tbl.app s.evc.hfDue t [x * 256 + gf s t (tgtReg x 4) 24 8] } }
  | 4 => { s with evc := { s.evc with vecDue := s.evc.vecDue ++ [(managerInst, gf s t (tgtReg x 0) 0 6)] } }
  | _ => s

/-- The commit of a message (R318): SEQ, LAST, service, the group's hold-off, and the message on its way. -/
def commit (s : State) (t src x : Nat) (urgent : Bool) : State :=
  let seq := (gf s t (tgtReg x 4) 24 8 + 1) % 256
  let prio := prioMode s t
  let s := sf (sf s t (tgtReg x 4) 24 8 seq) t (tgtReg x 4) 22 1 0
  let s := wreg s t (tgtReg x 12) (word src)
  let lv := if prio then srcPri s t src else 0
  let s := setSvc s t x prio (svcOf s t x ++ [⟨lv, seq, src, false⟩])
  let g := 0x7044000 + 4 * gf s t (evcSrc src) 16 8
  let s := if gf s t g 0 16 = 0 then s else sf s t g 31 1 1
  let s := { s with evc := { s.evc with resync := Tbl.del s.evc.resync (t * 1024 + x) } }
  let s := if urgent then cf s t 0x704500C 16 16 else s
  carry s t x src

/-- One turn of the delivery engine (R317, R318). The engine stands still while the controller is held in reset or its
tile is fenced (R52, R337). -/
def evcDeliver (s : State) (t : Nat) : State :=
  if mode s t ≤ 1 ∨ (tileSt s t).fenced then s else
  let s := evcRefresh s t
  match select s t with
  | some (src, x, u) => commit s t src x u
  | none => { s with evc := { s.evc with resync := Tbl.keep (fun k => k / 1024 != t) s.evc.resync } }

/-- DONE written to a target (R320). -/
def targetDone (s : State) (t x : Nat) (check : Bool) (seq : Nat) : State :=
  let l := svcOf s t x
  let prio := prioMode s t
  if l.isEmpty then cf s t 0x7045008 0 16
  else if check then
    if l.any (fun v => v.seq == seq) then setSvc s t x prio (l.filter (fun v => v.seq != seq))
    else cf s t 0x7045008 16 16
  else if prio then
    let top := (l.map Svc.level).foldl Nat.max 0
    setSvc s t x prio (l.filter (fun v => v.level != top))
  else setSvc s t x prio []

/-- Returns every target of a tile to idle. -/
def idleTargets (s : State) (t : Nat) (p : Nat → Bool) : State :=
  (s.evc.svc.filter (fun e => e.1 / 1024 == t && p (e.1 % 1024))).foldl
    (fun s e => setSvc s t (e.1 % 1024) true []) s

/-- A mode change's edge (R324): bits kept, targets idled, hold-offs stopped, EVC_CTRL.PRIORITY_MODE by the new mode,
and one message owed to each target that has an eligible source. -/
def evcModeChange (s : State) (t : Nat) : State :=
  let s := idleTargets s t (fun _ => true)
  let s := (List.range 256).foldl (fun s g =>
    if gf s t (0x7044000 + 4 * g) 31 1 = 1 then sf s t (0x7044000 + 4 * g) 31 1 0 else s) s
  let s := sf s t 0x7045000 31 1 (b2n (prioMode s t && decide (1 < mode s t)))
  let xs := (eligibles s t).map Prod.snd
  { s with evc := { s.evc with resync := xs.foldl (fun tb x => Tbl.ins tb (t * 1024 + x) ()) s.evc.resync } }

/-- Clears a tile's controller (R58, R66): every register of the block, the flags and the targets in service. Pins and
lines keep their levels. -/
def evcClear (s : State) (t : Nat) : State :=
  { s with
    regs := Tbl.keep (fun k => !(key t 0x7000000 ≤ k && k < key t 0x8000000)) s.regs
    evc := { s.evc with
      arrived := Tbl.keep (fun k => k / 32768 != t) s.evc.arrived
      pendAt := Tbl.keep (fun k => k / 32768 != t) s.evc.pendAt
      svc := Tbl.keep (fun k => k / 1024 != t) s.evc.svc
      since := Tbl.keep (fun k => k / 1024 != t) s.evc.since
      resync := Tbl.keep (fun k => k / 1024 != t) s.evc.resync
      lines := Tbl.keep (fun k => k / 2048 != t) s.evc.lines
      hfDue := Tbl.del s.evc.hfDue t } }

/-! ## Plain words -/

/-- Whether the write of an instance's bit is ignored because it is RESETTING (R325). -/
def srcLocked (s : State) (t src : Nat) : Bool :=
  match srcOwner s t src with
  | some i => (instOf s i).resetting
  | none => false

/-- A bit of a write that its byte enables let through. -/
def enabledBit (be : BitVec 4) (b : Nat) : Bool := be.getLsbD (b / 8)

/-- A write's effect on one pending bit (R313). -/
def pendWriteBit (s : State) (t src : Nat) (v : Bool) : State :=
  if srcEnabled s t src = false ∨ srcLevel s t src ∨ srcLocked s t src then s
  else if v then
    sf (notePend s t src (!pendBit s t src)) t (0x7000000 + 4 * (src / 32)) (src % 32) 1 1
  else
    let s' := sf s t (0x7000000 + 4 * (src / 32)) (src % 32) 1 0
    if (Tbl.find? s.evc.arrived (t * 32768 + src)).isSome then
      let s' := { s' with evc := { s'.evc with arrived := Tbl.del s'.evc.arrived (t * 32768 + src) } }
      cf (sf s' t (0x7002000 + 4 * (src / 32)) (src % 32) 1 1) t 0x7045004 0 16
    else s'

/-- A write to a pending word (R313, R322). -/
def pendWrite (s : State) (t w : Nat) (be : BitVec 4) (v : Word) : State :=
  evcRefresh ((List.range 32).foldl (fun s b =>
    if enabledBit be b then pendWriteBit s t (32 * w + b) (bit v b) else s) s) t

/-- A read of a pending word: what it presents, and ARRIVED cleared for it (R313). -/
def pendRead (s : State) (t w : Nat) : State :=
  { s with evc := { s.evc with arrived := Tbl.keep (fun k => k / 32 != t * 1024 + w) s.evc.arrived } }

/-- A write to a mask word: plain RW, but for the bits of an instance being reset. -/
def maskWrite (s : State) (t w : Nat) (be : BitVec 4) (v : Word) : State :=
  let old := rreg s t (0x7001000 + 4 * w)
  let lock := packBits (fun b => srcLocked s t (32 * w + b))
  evcRefresh (wreg s t (0x7001000 + 4 * w) ((old &&& lock) ||| (mergeBytes old be v &&& ~~~lock))) t

/-- A write to a lost word: W1C, but for the bits of an instance being reset. -/
def lostWrite (s : State) (t w : Nat) (be : BitVec 4) (v : Word) : State :=
  let old := rreg s t (0x7002000 + 4 * w)
  let lock := packBits (fun b => srcLocked s t (32 * w + b))
  evcRefresh (wreg s t (0x7002000 + 4 * w) (old &&& ~~~(v &&& beMask be &&& ~~~lock))) t

/-- A write of a source's ROUTE (R315): an instance's source goes only to its own instance's targets. -/
def routeWrite (s : State) (t src route : Nat) : State :=
  if src < 20480 ∧ route < 1024 ∧
      ¬ ((tgtOwner s t route).isSome ∧ tgtOwner s t route = srcOwner s t src) then s
  else if srcLocked s t src then s
  else evcRefresh (sf s t (evcSrc src) 0 11 route) t

/-- A write of a target's configuration (R314, R328): KIND is fixed on an owned target, codes above 4 clamp to 4, and a
written 1 leaves an unowned target's KIND. -/
def tgtCfgWrite (s : State) (t x : Nat) (be : BitVec 4) (v : Word) : State :=
  let old := rreg s t (tgtReg x 0)
  let m := mergeBytes old be v
  let owner := tgtOwner s t x
  match owner with
  | some i => if (instOf s i).resetting then s
      else evcRefresh (wreg s t (tgtReg x 0) (setFld (m &&& 0x00F1FFFF#32) 29 3 (fld old 29 3))) t
  | none =>
    let k := fld m 29 3
    let k' := if k = 1 then fld old 29 3 else Nat.min 4 k
    let m' := if k' = 4 then setFld m 6 5 0 else m
    evcRefresh (wreg s t (tgtReg x 0) (setFld (m' &&& 0x00F1FFFF#32) 29 3 k')) t

/-- Whether DONE and other writes to a target are ignored because its instance is RESETTING (R325). -/
def tgtLocked (s : State) (t x : Nat) : Bool :=
  match tgtOwner s t x with
  | some i => (instOf s i).resetting
  | none => false

/-- Sets an instance's EVC state at CREATE and at step 5 of its reset (R325). -/
def evcInstInit (s : State) (i : Nat) : State :=
  let t := homeTile i
  let r := instOf s i
  let srcs := (List.range r.qCount).map (r.qBase + ·) ++ (List.range 8).map (16384 + 8 * (i % 512) + ·)
  let s := srcs.foldl (fun s src =>
    let s := sf s t (0x7000000 + 4 * (src / 32)) (src % 32) 1 0
    let s := sf s t (0x7002000 + 4 * (src / 32)) (src % 32) 1 0
    let s := sf s t (0x7001000 + 4 * (src / 32)) (src % 32) 1 1
    let s := sf s t (evcSrc src) 0 11 (if r.etCount = 0 then 2047 else r.etBase)
    { s with evc := { s.evc with arrived := Tbl.del s.evc.arrived (t * 32768 + src), pendAt := Tbl.del s.evc.pendAt (t * 32768 + src) } }) s
  let s := (List.range r.etCount).foldl (fun s e =>
    let x := r.etBase + e
    let s := sf (sf s t (tgtReg x 0) 20 4 0) t (tgtReg x 0) 0 11 e
    setSvc s t x true []) s
  evcRefresh s t

/-! ## Meanings -/

/-- The outcome of a meaning. -/
abbrev Res := Host.Outcome State Fault Refusal

/-- A command that names tile `t`: it runs where the part has the tile (R2). -/
def onTile (s : State) (t : Nat) (k : State) : Res :=
  if t < s.part.tiles then .next k else .fault .noSuchUnit

/-- A command that names a unit the part has when `b` holds. -/
def onUnit (b : Bool) (k : State) : Res := if b then .next k else .fault .noSuchUnit

/-- What a block of a tile does of itself: nothing while the tile is fenced (R337), but for GLB, FLT, TRC and the tile-link paths, which
do not ask. -/
def unfenced (s : State) (t : Nat) (k : State) : State := if (tileSt s t).fenced then s else k

/-- EVENT_PIN_CHANGE (R311, R313): the filtered level of a pin changes; a pin that is an edge source pends at a change
from inactive to active. A controller held in reset samples nothing (R327). -/
def execEventPinChange (t p : Nat) (level : Bool) (s : State) : Res :=
  onUnit (decide (t < s.part.tiles ∧ p < 64)) <|
    let old := Tbl.get false s.evc.pins (t * 64 + p)
    let low := gf s t (evcSrc (22528 + p)) 29 1 == 1
    let s1 := { s with evc := { s.evc with pins := Tbl.set false s.evc.pins (t * 64 + p) level } }
    let s1 := sf s1 t (0x7046000 + 4 * p) 31 1 (b2n level)
    if s.core.scanned then s
    else if mode s t ≤ 1 ∨ (tileSt s t).fenced then s1
    else if srcLevel s t (22528 + p) then evcRefresh s1 t
    else if old == low && level != low then edge s1 t (22528 + p) else s1

/-- EVC_DELIVERY (R317, R318). -/
def execEvcDelivery (t : Nat) (s : State) : Res := onTile s t (evcDeliver s t)

/-- HOLDOFF_EXPIRY (R316). -/
def execHoldoffExpiry (t g : Nat) (s : State) : Res :=
  onUnit (decide (t < s.part.tiles ∧ g < 256)) (unfenced s t (evcRefresh (sf s t (0x7044000 + 4 * g) 31 1 0) t))

end Sys2Proof.Machine
end

