-- ==== Sys2Proof/Machine/Lode.lean ====
section
/-! DEFINITION. The link layer's parts that the switch core and the receiver share (07): credits (R152 to R154), the start
of an epoch (R147), the flit header (R140), packing (R144) and the reading of packets from flits (R145). -/

namespace Sys2Proof.Machine

open Sys2Proof

/-! ## Credits -/

/-- Units reserved for each class (R152). -/
abbrev reserveUnits : Nat := 72

/-- The window W of a slot, in flits (R148). -/
def windowOf (s : State) (t n : Nat) : Nat := gf s t (lnk n 0x40) 0 11

/-- Units left in the shared count for sending. -/
def crShared (s : State) (t n : Nat) : Nat := gf s t (lnk n 0x58) 0 14

/-- Units left in a class's reserve for sending. -/
def crRsv (s : State) (t n c : Nat) : Nat := gf s t (lnk n 0x5C) (8 * c) 8

/-- Whether a slot has the credit for a packet of class `c` using `u` units (R154). -/
def hasCredit (s : State) (t n c u : Nat) : Bool := decide (u ≤ crShared s t n) || decide (u ≤ crRsv s t n c)

/-- Takes the credit of a packet: from the shared count when it holds enough, else from the class's reserve (R154). -/
def takeCredit (s : State) (t n c u : Nat) : State :=
  if u ≤ crShared s t n then sf s t (lnk n 0x58) 0 14 (crShared s t n - u)
  else sf s t (lnk n 0x5C) (8 * c) 8 (crRsv s t n c - u)

/-- The greatest receive pool of a slot (R161): 2,048 units, 1,024 on a sublink slot. -/
def poolMax (s : State) (t n : Nat) : Nat := if n < 8 ∧ bifurcated s t (n / 2) then 1024 else 2048

/-- The receive pool in force on a slot: its greatest size until an epoch brings LNK_CREDIT_POOL in (R161, R186). -/
def poolNow (s : State) (t n : Nat) : Nat := ((linkSt s t n).pool).getD (poolMax s t n)

/-- The start of an epoch (R147, R153): sequence numbers, buffers, credits and timers begin afresh; the pool takes the
size of LNK_CREDIT_POOL and is counted as returned, the reserves in their classes and the shared remainder in the
Posted class (DESIGN CHOICE: R153 allows any class, log entry 17); the shared area follows the pool (R186). -/
def startEpoch (s : State) (t n : Nat) : State :=
  let x := linkSt s t n
  let pool := gf s t (lnk n 0x54) 0 14
  let free := gf s t 0x3000018 0 18 + poolNow s t n - pool
  let s := sf s t 0x3000018 0 18 free
  let s := wreg s t (lnk n 0x44) (word 4095)
  let s := wreg s t (lnk n 0x48) 0
  let s := wreg s t (lnk n 0x58) 0
  let s := wreg s t (lnk n 0x5C) 0
  let s := wreg s t (lnk n 0x7C) 0
  setLink s t n { x with
    replay := [], resend := [], pausing := false, paused := false, pauseDue := false, cut := none, reorder := [], seen := none, named := [],
    nakHeld := false, began := false, part := [], crHeld := {}, crSent := none, crTurn := 0,
    crRet := ⟨reserveUnits + (pool - 288), reserveUnits, reserveUnits, reserveUnits⟩, pool := some pool,
    badRun := 0, change := none, locklossRun := false }

/-! ## The flit -/

/-- The 64-bit header of a flit (R140). -/
structure FlitHdr where
  seq : Nat
  ack : Nat
  nak : Option Nat
  first : Nat
  idle : Bool
  pause : Bool
  replay : Bool
  crClass : Nat
  abort : Bool
  crTotal : Nat
  epoch : Nat
  deriving DecidableEq, Repr

/-- The bytes of a flit header. -/
def FlitHdr.bytes (h : FlitHdr) : List Byte :=
  leBytes 8 (h.seq + h.ack * 2 ^ 12 + (h.nak.getD 0) * 2 ^ 24 + h.first * 2 ^ 36 + b2n h.idle * 2 ^ 40 +
    b2n h.nak.isSome * 2 ^ 41 + b2n h.pause * 2 ^ 42 + b2n h.replay * 2 ^ 43 + h.crClass * 2 ^ 44 +
    b2n h.abort * 2 ^ 46 + h.crTotal * 2 ^ 48 + h.epoch * 2 ^ 60)

/-- Reads a flit header. -/
def flitHdr (l : List Byte) : FlitHdr :=
  let w := leAt l 0 8
  { seq := w % 4096, ack := w / 2 ^ 12 % 4096,
    nak := if w / 2 ^ 41 % 2 = 1 then some (w / 2 ^ 24 % 4096) else none,
    first := w / 2 ^ 36 % 16, idle := w / 2 ^ 40 % 2 == 1, pause := w / 2 ^ 42 % 2 == 1,
    replay := w / 2 ^ 43 % 2 == 1, crClass := w / 2 ^ 44 % 4, abort := w / 2 ^ 46 % 2 == 1,
    crTotal := w / 2 ^ 48 % 4096, epoch := w / 2 ^ 60 % 16 }

/-- A whole flit: header, payload of 240 bytes, CRC-64 (R140, R141). -/
def flitBytes (h : FlitHdr) (payload : List Byte) : List Byte :=
  let b := h.bytes ++ bytesAt payload 0 240
  b ++ leBytes 8 (crc64 b).toNat

/-- Whether a flit's CRC passes (R141). -/
def flitOk (l : List Byte) : Bool :=
  l.length == 256 && leAt l 248 8 == (crc64 (l.take 248)).toNat

/-! ## Packing (R144) -/

/-- What packing one flit has come to: the slots filled, FIRST, ABORT, what it holds of which frames. -/
structure Packed where
  slots : List Byte := []
  first : Nat := 15
  abort : Bool := false
  segs : List Seg := []
  deriving DecidableEq, Repr

/-- A LINK packet: 16 bytes holding one link-management message (R144). -/
def linkPkt (msg : List Byte) : List Byte := [1, 0, 0, 0, 0, 0, 0, 0] ++ bytesAt msg 0 8

/-- Whether a packet has arrived far enough to go on for `k` slots (R194): a packet whose rest will not come whole sends nothing more
until it is aborted (R195). -/
def TxJob.ready (j : TxJob) (k : Nat) : Bool :=
  j.abort || (!j.f.bad && decide (Nat.min j.rest.length (16 * k) + j.f.lack ≤ j.rest.length))

/-- The frame of a packet with `n` more of its bytes in a flit. -/
def addSeg (l : List Seg) (f : Frame) (n : Nat) (first last : Bool) : List Seg :=
  match l.getLast? with
  | some g => if g.f.serial = f.serial ∧ g.last = false then l.dropLast ++ [{ g with bytes := g.bytes + n, last := last }]
              else l ++ [⟨f, n, first, last⟩]
  | none => [⟨f, n, first, last⟩]

/-- Packs waiting LINK messages and packets into `k` further slots: a packet begun goes on, LINK packets go ahead of
every packet waiting, an aborted packet's flit is padded after it (R144, R146), and a packet cut through begins only with bytes
enough for the flit (R194). -/
def packGo : Nat → Packed → List (List Byte) → List TxJob → Packed × List (List Byte) × List TxJob
  | 0, a, ms, js => (a, ms, js)
  | k + 1, a, ms, js =>
    let here := a.slots.length / 16
    match js, ms with
    | j :: rest, ms =>
      if j.started then
        let left := j.rest.drop 16
        let a := { a with slots := a.slots ++ j.rest.take 16, segs := addSeg a.segs j.f 16 false left.isEmpty }
        if left.isEmpty then
          if j.abort then ({ a with abort := true }, ms, rest) else packGo k a ms rest
        else packGo k a ms ({ j with rest := left } :: rest)
      else match ms with
        | m :: ms' =>
          packGo k { a with slots := a.slots ++ linkPkt m, first := if a.first = 15 then here else a.first } ms'
            (j :: rest)
        | [] =>
          if j.ready (k + 1) then
            packGo k { a with slots := a.slots ++ j.rest.take 16, first := if a.first = 15 then here else a.first,
                              segs := addSeg a.segs j.f 16 true false } []
              ({ j with started := true, rest := j.rest.drop 16 } :: rest)
          else (a, [], js)
    | [], m :: ms' =>
      packGo k { a with slots := a.slots ++ linkPkt m, first := if a.first = 15 then here else a.first } ms' []
    | [], [] => (a, [], [])

/-- Whether a transmitter has something for a data flit now: a packet cut through that waits for its bytes holds the output (R194). -/
def canPack (ms : List (List Byte)) (js : List TxJob) : Bool :=
  match js with
  | j :: _ => j.ready 15 || (!j.started && !ms.isEmpty)
  | [] => !ms.isEmpty

/-! ## Reading packets (R144, R145) -/

/-- What reading one flit's payload has come to: the slots at which packets begin, the packets ended, the bytes of the
packet that goes on, whether an undefined type was met. -/
structure Unpacked where
  starts : List Nat := []
  ended : List (List Byte) := []
  cur : List Byte := []
  undefined : Bool := false
  deriving DecidableEq, Repr

/-- Reads the slots of a payload from slot `i` on. -/
def unpackGo : Nat → Nat → List Byte → Unpacked → Unpacked
  | 0, _, _, a => a
  | k + 1, i, l, a =>
    let b := l.take 16
    if a.cur.isEmpty then
      let ty := (b.headD 0).toNat
      if ty = 0 then a
      else if ty = 1 then
        unpackGo k (i + 1) (l.drop 16) { a with starts := a.starts ++ [i], ended := a.ended ++ [b] }
      else match PType.ofCode ty with
        | none => { a with starts := a.starts ++ [i], undefined := true }
        | some _ => unpackGo k (i + 1) (l.drop 16) { a with starts := a.starts ++ [i], cur := b }
    else
      let c := a.cur ++ b
      match PType.ofCode ((c.headD 0).toNat) with
      | none => { a with undefined := true }
      | some ty =>
        if wireLen ty c ≤ c.length then
          unpackGo k (i + 1) (l.drop 16) { a with ended := a.ended ++ [c], cur := [] }
        else unpackGo k (i + 1) (l.drop 16) { a with cur := c }

/-- Whether FIRST disagrees with the slots at which packets begin (R145). -/
def firstWrong (first : Nat) (starts : List Nat) : Bool :=
  if first = 15 then !starts.isEmpty else !starts.contains first

/-! ## Missing flits (R150) -/

/-- Distance of a sequence number from another, modulo 4,096 (R147). -/
def seqDist (a b : Nat) : Nat := (a + 4096 - b) % 4096

/-- NEXT of a slot's receiver. -/
def rxNext (s : State) (t n : Nat) : Nat := gf s t (lnk n 0x48) 16 12

/-- The flits a receiver is missing, lowest first (R150 rule 2). -/
def missing (s : State) (t n : Nat) : List Nat :=
  let x := linkSt s t n
  match x.seen with
  | none => []
  | some hi =>
    let next := rxNext s t n
    let d := seqDist hi next
    if windowOf s t n ≤ d then []
    else ((List.range (d + 1)).map (fun k => (next + k) % 4096)).filter
      (fun q => !(x.reorder.any (fun f => f.seq == q)))

/-- A sequence number counts as seen (R150 rule 2). -/
def markSeen (s : State) (t n q : Nat) : State :=
  let x := linkSt s t n
  let next := rxNext s t n
  let w := windowOf s t n
  let newer := match x.seen with
    | none => decide (seqDist q next < w)
    | some hi => decide (seqDist q next < w) && (decide (w ≤ seqDist hi next) || decide (seqDist hi next < seqDist q next))
  if newer then setLink s t n { x with seen := some q } else s

end Sys2Proof.Machine
end

