-- ==== Sys2Proof/Machine/SwcBase.lean ====
section
/-! DEFINITION. The discard of queued frames (09): its report to the tailings log, and what an output does when it goes down
(R204). -/

namespace Sys2Proof.Machine

open Sys2Proof

/-- What an issuer is told when a pointer's frame is discarded: a unicast frame ends with `status`; a multicast pointer
only releases its share of the posted write. -/
def endPointer (s : State) (f : Frame) (status : Nat) : State :=
  if f.mc.isSome then settle s f.serial else endFrame s f status

/-- Discards the head of a queue: its reference is released (R198, R202, R204). -/
def discardHead (s : State) (t o inp c status : Nat) : State :=
  match queueOf s (qKey t o inp c) with
  | [] => s
  | p :: _ =>
    match storedOf s t p.1 with
    | none => popHead s t o inp c
    | some x => endPointer (dropRef (popHead s t o inp c) t p.1) x.f status

/-- Four bytes of a value the manual leaves open. -/
def freeBytes (s : State) (n : Nat) : List Byte :=
  (List.range n).flatMap (fun k => wordBytes (Config.freeWord (s.fresh + k)))

/-- A frame offered to the tailings log (R389): 1 AGED, 2 ABORTED, 3 ABORT_RX, 4 DOWN. It is counted, raises
FRAMES_DISCARDED, and one in RATIO is sampled. The layout of the frame record is not given: its bytes are free values
(log entry 7). `first`: an uncorrectable error in the first cell, whose bytes read as zeros. -/
def offer (s : State) (t reason port : Nat) (f : Frame) (first : Bool := false) : State :=
  let s := cf s t (if reason ≤ 2 then 0xD000010 else 0xD000014) (if reason % 2 = 1 then 16 else 0) 16
  let s := alarm s t 114
  let n := Tbl.get 0 s.trc.offered t + 1
  let sampled := gf s t 0xD000008 0 16 ≤ n
  let s := { s with trc := { s.trc with offered := Tbl.set 0 s.trc.offered t (if sampled then 0 else n) } }
  if sampled then
    let rec32 := freeBytes s 8
    let s := tickFresh s 8
    traceGen s t 13 (fun s =>
      leBytes 4 s.cal.sub ++ leBytes 4 (s.cal.sec % 2 ^ 32) ++
      [13, BitVec.ofNat 8 reason, BitVec.ofNat 8 port, 0] ++ leBytes 4 (Tbl.get 0 s.trc.seq (t * 16 + 13)) ++
      (if first then List.replicate 16 0 else bytesAt f.pkt.body 0 16) ++ rec32)
  else s

/-- Discards one pointer of a queue, wherever it stands: its reference is released. -/
def discardPtr (s : State) (t o inp c : Nat) (p : Nat × Option (Nat × Nat)) (status : Nat) : State :=
  let k := qKey t o inp c
  match storedOf s t p.1 with
  | none => setQueue s k ((queueOf s k).erase p)
  | some x =>
    let s := queued (setQueue s k ((queueOf s k).erase p)) t o false x.cells
    let s := { s with swc := { s.swc with urgent := s.swc.urgent.filter (fun u => u != k) } }
    endPointer (dropRef s t p.1) x.f status

/-- Whether a locked read waits at the output of a local slot: it waits through a link-down for the link to return (R242). -/
def waitsLock (o : Nat) (f : Frame) : Bool := decide (4 ≤ o) && decide (o < 12) && f.locked.isSome

/-- Discards every frame queued for an output, counting each with `count` and offering it to the tailings log (R204); a response to a
host link that has gone down is late as well (R115). -/
def flushOutput (s : State) (t o status : Nat) (count : State → State) : State :=
  let ks := (s.swc.queues.filter (fun e => e.1 / 48 == t * 19 + o))
  ks.foldl (fun s e => e.2.foldl (fun s p =>
    match storedOf s t p.1 with
    | some x =>
      if waitsLock o x.f then s
      else
        let s := if o < 4 ∧ x.f.pkt.isRsp then cf s t (hpt o 0x18) 16 16 else s
        discardPtr (offer (count s) t 4 (outPort o) x.f) t o (e.1 / 4 % 12) (e.1 % 4) p status
    | none => discardPtr s t o (e.1 / 4 % 12) (e.1 % 4) p status) s) s

/-- Changes the record of the frame `serial` wherever in tile `t` it stands: at a port, stored, at a transmitter, or on its way into
a DMA engine. -/
def mapFrame (s : State) (t serial : Nat) (g : Frame → Frame) : State :=
  let one (f : Frame) : Frame := if f.serial = serial then g f else f
  let here (k : Nat) (e : Nat × List Frame) : Nat × List Frame := if e.1 / k = t then (e.1, e.2.map one) else e
  { s with
    swc := { s.swc with
      ingress := s.swc.ingress.map (here 64)
      waiting := s.swc.waiting.map (here 12)
      into := s.swc.into.map (here 1)
      frames := s.swc.frames.map (fun e => if e.1 / 2 ^ 32 = t then (e.1, { e.2 with f := one e.2.f }) else e) }
    lode := { s.lode with
      links := s.lode.links.map (fun e =>
        if e.1 / slotCount = t then (e.1, { e.2 with txq := e.2.txq.map (fun j => { j with f := one j.f }) }) else e) } }

/-- A frame on its way that is lost with a link: nothing waits for a posted one any more, and a DMA write learns it
(R156, R269). The issuers of requests are answered by the records of R155. -/
def lostFrame (s : State) (serial : Nat) (iss : Issuer) : State :=
  let s := settle s serial
  match iss with
  | .dmaWr t w => answer s (.dmaWr t w) 3 [] false
  | _ => s

/-- A frame that is lost with a link, wherever it stands. -/
def lostWhole (s : State) (f : Frame) : State := endMarker (lostFrame s f.serial f.issuer) f

/-- Counts a frame discarded in SWC_P_DISC0.DOWN of a switch port. -/
def discDown (s : State) (t p : Nat) : State := cf s t (swcP p 0) 0 16

end Sys2Proof.Machine
end

