-- ==== Sys2Proof/Machine/Flit.lean ====
section
/-! DEFINITION. Flits on their way out (07): the reverse-path fields (R143, R150, R153), resends and data flits (R142, R144, R151), and
the DOWN message of an end that declares by command (R137). -/

namespace Sys2Proof.Machine

open Sys2Proof

/-- Row of a slot's LNK_PHY_EVENTS in the table of R312. -/
abbrev phyRow (n : Nat) : Nat := 4 + n

/-- Row of a slot's LNK_LL_EVENTS. -/
abbrev llRow (n : Nat) : Nat := 15 + n

/-- Row of a slot's LTP_EVENTS. -/
abbrev ltpRow (n : Nat) : Nat := 26 + n

/-- The class whose credit total a header carries: the next in turn whose total has changed since it was sent (R153). Where none has
changed it is the class whose turn it is (DESIGN CHOICE: R153 names none, log entry 63). -/
def creditClass (x : LinkSt) : Nat :=
  let sent := x.crSent.getD {}
  (((List.range 4).map (fun k => (x.crTurn + k) % 4)).find? (fun c => x.crRet.get c != sent.get c)).getD x.crTurn

/-- The missing flit a header names: the lowest not named since its timer last ran out (R150). -/
def nakNow (s : State) (t n : Nat) : Option Nat :=
  let x := linkSt s t n
  if x.nakHeld then none else (missing s t n).find? (fun q => !x.named.contains q)

/-- The reverse-path fields of a header, and the link once they are sent (R143). -/
def reverse (s : State) (t n : Nat) (h : FlitHdr) : FlitHdr × State :=
  let x := linkSt s t n
  let c := creditClass x
  let nak := nakNow s t n
  let sent := (x.crSent.getD {}).set c (x.crRet.get c)
  let named := match nak with
    | some q => x.named ++ [q]
    | none => x.named
  let s' := setLink s t n { x with crSent := some sent, crTurn := (c + 1) % 4, named := named, pausing := false,
                                   paused := x.paused || x.pausing }
  let s' := if nak.isSome then cf s' t (lnk n 0x60) 16 16 else s'
  ({ h with ack := (rxNext s t n + 4095) % 4096, nak := nak, pause := x.pausing, crClass := c,
            crTotal := x.crRet.get c % 4096, epoch := linkEpoch s t n % 16 }, s')

/-- A header with nothing but its sequence number. -/
def seqHdr (seq : Nat) : FlitHdr :=
  { seq := seq, ack := 0, nak := none, first := 15, idle := false, pause := false, replay := false, crClass := 0,
    abort := false, crTotal := 0, epoch := 0 }

/-- Sends a flit with the reverse-path fields of now. -/
def putFlit (s : State) (t n : Nat) (h : FlitHdr) (payload : List Byte) : State :=
  let (h, s) := reverse s t n h
  emit s (.flit t n (flitBytes h payload))

/-- The next sequence number to assign. -/
def nextSeq (s : State) (t n : Nat) : Nat := gf s t (lnk n 0x44) 16 12

/-- A resend of a held flit (R143, R151). -/
def sendResend (s : State) (t n : Nat) (f : Flit) (why : Nat) : State :=
  let x := linkSt s t n
  let s := setLink s t n { x with resend := x.resend.drop 1 }
  let s := if why = 1 then cf s t (lnk n 0x64) 16 16 else if why = 2 then cf s t (lnk n 0x64) 0 16 else s
  putFlit (evt s t (llRow n) 0) t n { seqHdr f.seq with first := f.first, abort := f.abort, replay := true } f.payload

/-- A new data flit (R142, R144): with it are kept the frames whose tails it holds; on a tile link what it holds of frames goes with
it. -/
def sendData (s : State) (t n : Nat) : State :=
  let x := linkSt s t n
  let seq := nextSeq s t n
  let (a, ms, js) := packGo 15 {} x.msgs x.txq
  let tails := (a.segs.filter Seg.last).map (fun g => (g.f.serial, if a.abort ∧ a.segs.getLast? = some g then .nobody else g.f.issuer))
  let f : Flit := { seq := seq, first := a.first, abort := a.abort, payload := bytesAt a.slots 0 240, tails := tails }
  let s := setLink s t n { x with msgs := ms, txq := js, replay := x.replay ++ [f] }
  let s := if 8 ≤ n ∧ ¬ a.segs.isEmpty then
      { s with lode := { s.lode with wire := Tbl.ins s.lode.wire (slotKey t n * 4096 + seq) a.segs } }
    else s
  let s := sf s t (lnk n 0x44) 16 12 (seq + 1)
  putFlit s t n { seqHdr seq with first := a.first, abort := a.abort } f.payload

/-- The resend a transmitter owes next: the flit and why. -/
def nextResend (x : LinkSt) : Option (Flit × Nat) :=
  x.resend.findSome? (fun r => (x.replay.find? (fun f => f.seq == r.1)).map (fun f => (f, r.2)))

/-- Sends what goes before a LINK packet that waits, and it: resends first, then the rest of a packet begun, within the window
(R144, R148, R151). `fuel` bounds the flits. -/
def sendLinkMsgs (s : State) (t n : Nat) : Nat → State
  | 0 => s
  | fuel + 1 =>
    let x := linkSt s t n
    if x.msgs.isEmpty then s
    else match nextResend x with
      | some (f, why) =>
        sendLinkMsgs (sendResend (setLink s t n { x with resend := x.resend.dropWhile (fun r => r.1 != f.seq) }) t n f why) t n fuel
      | none =>
        if canPack x.msgs x.txq && decide (x.replay.length < windowOf s t n) then sendLinkMsgs (sendData s t n) t n fuel else s

/-- The DOWN message an end sends before it declares the link down by command, if its transmitter is still able to (R137): it goes as
any LINK packet does, ahead of the messages waiting. REQ_NUM and TARGET are 0 (DESIGN CHOICE: R132 gives them no value for KIND 4, log
entry 63). -/
def sendDown (s : State) (t n : Nat) : State :=
  if linkState s t n ≠ 6 then s else
  let msg : List Byte := [4, 0] ++ leBytes 2 (gf s t (lnk n 0xC) 16 16) ++ [0, 0, 0, 0]
  let x := linkSt s t n
  sendLinkMsgs (setLink s t n { x with msgs := [msg] }) t n (x.resend.length + 20)

end Sys2Proof.Machine
end

