-- ==== Sys2Proof/Machine/LinkDown.lean ====
section
/-! DEFINITION. The declaration of link-down (R137, R155, R156; back to DETECT and full training, R138): everything that acts at its edge, but for the fault a
protocol error or a tile link's loss raises. -/

namespace Sys2Proof.Machine

open Sys2Proof

/-- An end of an open or running change (R132, R133): BUSY and CHANGE clear, LAST_RESULT says how it ended. -/
def endChange (s : State) (t n result : Nat) : State :=
  let x := linkSt s t n
  let s := setLink s t n { x with change := none }
  let s := sf (sf s t (lnk n 0) 30 1 0) t (lnk n 0) 8 4 result
  sf s t (lnk n 4) 0 1 0

/-- Sets a slot's STATE and UP (R125, R139). -/
def setLinkState (s : State) (t n st : Nat) : State :=
  sf (sf s t (lnk n 0) 20 4 st) t (lnk n 0) 31 1 (b2n (st == 6 || st == 7))

/-- Every outstanding request of the device on a local slot is answered with LINK_LOST and counted; quarantined tags are
free in the new epoch (R156, R172). The tags are remembered, so that an answer that comes in the new epoch is late (R181). -/
def loseTags (s : State) (t n : Nat) : State :=
  if 8 ≤ n then s else
  let mine := s.lode.tags.filter (fun e => e.1 / 4096 == t * 8 + n)
  let olds := s.lode.quar.filter (fun e => e.1 / 4096 == t * 8 + n)
  let s := { s with lode := { s.lode with
    tags := Tbl.keep (fun k => k / 4096 != t * 8 + n) s.lode.tags
    quar := Tbl.keep (fun k => k / 4096 != t * 8 + n) s.lode.quar
    past := (mine.filter (fun e => e.2.isSome)).foldl (fun p e => Tbl.ins p e.1 ()) (olds.foldl (fun p e => Tbl.ins p e.1 ()) s.lode.past) } }
  let s := wreg s t (ltp n 8) 0
  mine.foldl (fun s e =>
    match e.2 with
    | some r => answer (cf s t (lnk n 0x6C) 16 16) r.issuer 3 [] false
    | none => s) s

/-- Every issuer whose request crossed the link in the epoch that ends is answered with LINK_LOST (R156). -/
def loseCrossed (s : State) (t n e : Nat) : State :=
  let mine := s.brg.crossed.filter (fun c => c.2 == (slotKey t n, e))
  mine.foldl (fun s c => answer (cf s t (lnk n 0x6C) 16 16) c.1 3 [] false) s

/-- The frames that the link holds itself are flushed: packets begun or waiting, the replay buffer, the reorder buffer and
a packet partly reassembled, each counted in LNK_DOWN_LOST.FLUSHED (R156). -/
def flushLink (s : State) (t n : Nat) : State :=
  let x := linkSt s t n
  let k := slotKey t n
  let s := x.txq.foldl (fun s j => lostWhole (cf s t (lnk n 0x6C) 0 16) j.f) s
  let onWire := (s.lode.wire.filter (fun e => e.1 / 4096 == k)).flatMap (fun e => e.2.filter Seg.last)
  let s := { s with lode := { s.lode with wire := Tbl.keep (fun w => w / 4096 != k) s.lode.wire } }
  let tails := x.replay.flatMap Flit.tails
  let s := cf s t (lnk n 0x6C) 0 16 tails.length
  let s := if 8 ≤ n then onWire.foldl (fun s g => lostWhole s g.f) s
    else tails.foldl (fun s e => lostFrame s e.1 e.2) s
  let s := match x.cut with
    | some serial => mapFrame s t serial (fun f => { f with bad := true })
    | none => s
  cf s t (lnk n 0x6C) 0 16 (x.reorder.length + if x.part.isEmpty then 0 else 1)

/-- What has come in over the link and not yet moved onward goes with its receive pool (R204): packets taken, frames at
the switch-core port, frames stored under the pool's account. -/
def dropPool (s : State) (t n : Nat) : State :=
  let k := slotKey t n
  let ik := if n < 8 then ingKey t (1 + n / 2) (n % 2) else ingKey t (5 + (n - 8)) 0
  let waiting := Tbl.get [] s.swc.ingress ik
  let stored := s.swc.frames.filter (fun e => e.1 / 2 ^ 32 == t && e.2.acct == .pool &&
    (match e.2.f.credit with
     | some (c, _, _) => c == k
     | none => false))
  let s := { s with swc := { s.swc with ingress := Tbl.set [] s.swc.ingress ik [] } }
  let from_ (h : Hold) : Option Frame := match h.item with
    | .frame _ _ f => if f.credit.any (fun c => c.1 == k) then some f else none
    | .event _ _ _ => none
    | .vector _ _ => none
    | .request _ _ _ _ _ => none
  let waiting := waiting ++ s.brg.holds.filterMap from_
  let s := { s with brg := { s.brg with holds := s.brg.holds.filter (fun h => (from_ h).isNone) } }
  let s := waiting.foldl (fun s f => lostWhole s f) s
  let s := stored.foldl (fun s e => lostWhole s e.2.f) s
  purge s t (fun x => x.acct == .pool &&
    (match x.f.credit with
     | some (c, _, _) => c == k
     | none => false))

/-- Targets of the package whose messages go to a local slot return to idle (R319). -/
def idleLocal (s : State) (t n : Nat) : State :=
  (List.range s.part.tiles).foldl (fun s u => idleTargets s u (fun x =>
    tgtKind s u x == 2 && gf s u (tgtReg x 0) 12 5 == 4 * t + n / 2 && gf s u (tgtReg x 0) 11 1 == n % 2)) s

/-- What the declaration ends at a local port beside its link: held-read slots (R181), the lock (R180, R238), the level
lines (R177), events held there (R177). -/
def loseLocal (s : State) (t n : Nat) : State :=
  if 8 ≤ n then s else
  let s := { s with lode := { s.lode with held := Tbl.keep (fun k => k / 64 != t * 8 + n) s.lode.held } }
  let s := heldCount s t n
  let l := lockSt s t n
  let ended := match l.holder with
    | some (_, f) => l.ended ++ [f]
    | none => l.ended
  let s := wreg (setLock s t n { l with holder := none, ended := ended }) t (ltp n 0xC) 0
  let s := { s with evc := { s.evc with lines := Tbl.keep (fun k => k / 256 != t * 8 + n) s.evc.lines } }
  let mine (h : Hold) : Bool :=
    match h.item with
    | .event t' n' _ => t' == t && n' == n
    | .request _ _ _ _ _ => false
    | .frame _ _ _ => false
    | .vector _ _ => false
  let held := s.brg.holds.filter mine
  let s := { s with brg := { s.brg with holds := s.brg.holds.filter (fun h => !mine h) } }
  let s := cf s t (lnk n 0x6C) 0 16 held.length
  idleLocal (evcRefresh s t) t n

/-- Read tags of the DMA quarantined for a local port are free in its new epoch (R268). -/
def freeDmaQuarantine (s : State) (t n : Nat) : State :=
  let gone (e : Nat × Option DTag) : Bool :=
    match e.2 with
    | some g => g.quar && g.slot == some (slotKey t n)
    | none => false
  let mine := s.dma.tags.filter gone
  let s := { s with dma := { s.dma with tags := s.dma.tags.filter (fun e => !gone e) } }
  mine.foldl (fun s e =>
    let u := e.1 / 4096
    let q := gf s u 0x5000208 16 13
    let i := gf s u 0x5000208 0 13
    sf (sf s u 0x5000208 16 13 (q - 1)) u 0x5000208 0 13 (i - 1)) s

/-- The quarantine of a DMA read tag ends: its late response has been discarded, or its time has passed (R268, R68). -/
def endQuarantine (s : State) (iss : Issuer) : State :=
  match iss with
  | .dmaTag u g =>
    match Tbl.get none s.dma.tags (u * 4096 + g) with
    | some x =>
      if x.quar then
        let s := { s with dma := { s.dma with tags := Tbl.set none s.dma.tags (u * 4096 + g) none } }
        let q := gf s u 0x5000208 16 13
        let i := gf s u 0x5000208 0 13
        sf (sf s u 0x5000208 16 13 (q - 1)) u 0x5000208 0 13 (i - 1)
      else s
    | none => s
  | _ => s

/-- A declaration of link-down (R137, R156); `held` holds the link in DISABLED. -/
def linkDown (s : State) (t n : Nat) (held : Bool) : State :=
  let e := linkEpoch s t n
  let wasBusy := gf s t (lnk n 0) 30 1 = 1
  let s := sf s t (lnk n 0x40) 16 16 (e + 1)
  let s := evt (cf s t (lnk n 0x1C) 16 16) t (phyRow n) 2
  let s := setLinkState s t n (if held ∨ gf s t (lnk n 4) 2 1 = 1 then 0 else 1)
  let s := sf s t (lnk n 0) 12 8 0
  let s := loseCrossed (loseTags s t n) t n e
  let s := flushOutput s t (4 + n) 3 (fun s => cf s t (lnk n 0x6C) 0 16)
  let s := dropPool (flushLink s t n) t n
  let s := freeDmaQuarantine (loseLocal s t n) t n
  let s := if wasBusy then endChange s t n 5 else s
  let x := linkSt s t n
  let s := setLink s t n { rateDrop := x.rateDrop, reqNum := x.reqNum, pool := x.pool, coef := x.coef, precodeAsk := x.precodeAsk }
  let s := wreg (wreg s t (lnk n 0x44) (word 4095)) t (lnk n 0x48) 0
  wreg (wreg (wreg s t (lnk n 0x58) 0) t (lnk n 0x5C) 0) t (lnk n 0x7C) 0

end Sys2Proof.Machine
end

