-- ==== Sys2Proof/Machine/InsBase.lean ====
section
/-! DEFINITION. Mailboxes (R83, R84), and what the instance unit offers to other units: events and notices (R179, R308,
R309), and the dirty log (R300 to R305). -/

namespace Sys2Proof.Machine

open Sys2Proof

/-! ## Mailboxes -/

/-- MB_INDEX of the mailbox at offset `mb`. -/
def mbIndex (s : State) (t mb : Nat) : Nat := (rreg s t (mb + 4)).toNat

/-- MB_DATA{k}. -/
def mbData (s : State) (t mb k : Nat) : Word := rreg s t (mb + 0x10 + 4 * k)

/-- How a running command ends: MAILBOX_COMMAND_END shows it (R84). -/
def mbEnd (s : State) (t mb : Nat) (e : MbEnd) : State :=
  { s with bus := { s.bus with mb := Tbl.set .running s.bus.mb (key t mb) e } }

/-- A write of MB_CTRL with an OP: accepted only while BUSY is 0; it sets BUSY, clears VALID and counts SEQ (R84). -/
def mbCmd (s : State) (t mb op : Nat) (k : State → State) : State :=
  if gf s t mb 30 1 = 1 then s else
  let s := sf (sf (sf s t mb 31 1 0) t mb 30 1 1) t mb 24 4 op
  k (mbEnd (cf s t mb 16 8) t mb .running)

/-- The end of the command running in a mailbox, with its data (R84). -/
def mbFinish (s : State) (t mb : Nat) : State :=
  if gf s t mb 30 1 = 0 then s else
  match Tbl.get .running s.bus.mb (key t mb) with
  | .running => s
  | .ok data =>
    let s := mbEnd s t mb .running
    let s := data.zipIdx.foldl (fun s d => wreg s t (mb + 0x10 + 4 * d.2) d.1) s
    sf (sf (sf s t mb 28 2 0) t mb 30 1 0) t mb 31 1 1
  | .fails c => sf (sf (mbEnd s t mb .running) t mb 28 2 c) t mb 30 1 0

/-- RESULT code BAD_INDEX. -/
abbrev badIndex : MbEnd := .fails 1

/-- RESULT code REFUSED. -/
abbrev refusedMb : MbEnd := .fails 2

/-! ## Instances -/

/-- Replaces an instance's record. -/
def setInst (s : State) (i : Nat) (r : Inst) : State :=
  { s with ins := { s.ins with recs := Tbl.set {} s.ins.recs i r } }

/-- Sets a bit of the home tile's INS_EVENTS, naming the instance (R309). -/
def insEvent (s : State) (i b : Nat) : State :=
  let t := homeTile i
  evt (wreg s t 0x6000008 (word ((b + 1) * 2 ^ 28 + i))) t 38 b (some i)

/-- Sets a bit of an instance's INST_EVENTS (R308), a level source of its home tile. -/
def instEvent (s : State) (i b : Nat) : State :=
  let r := instOf s i
  let s := if bit r.events b then s else notePend s (homeTile i) (16384 + 8 * (i % 512) + b) true
  evcRefresh (setInst s i { r with events := setFld r.events b 1 1 }) (homeTile i)

/-- Sends a NOTICE for an instance on every local port and sublink that is up, in ascending order, from its home tile
(R179, R292). -/
def notice (s : State) (i opx : Nat) : State :=
  (List.range (8 * s.part.tiles)).foldl (fun s j =>
    if linkAlive s (j / 8) (j % 8) then
      let (k, s) := newSerial s
      sendIn s (homeTile i) 10 0
        { serial := k, pkt := { ty := .notice, cls := 3, inst := i, gen := (instOf s i).gen, opx := opx },
          srcTile := homeTile i, srcPort := 10, dstTile := j / 8, dstPort := 1 + j % 8 / 2, dstSub := j % 2 }
    else s) s

/-- The host link an instance is bound to. -/
def instLink (s : State) (i : Nat) : Option Nat :=
  match (instOf s i).state with
  | .bound => (instOf s i).fn.map Prod.fst
  | .free => none
  | .unbound => none

/-! ## The dirty log (R300 to R305) -/

/-- An instance's log. -/
def logOf (s : State) (i : Nat) : DirtyLog := Tbl.get {} s.ins.logs i

/-- Replaces an instance's log. -/
def setLog (s : State) (i : Nat) (l : DirtyLog) : State :=
  { s with ins := { s.ins with logs := Tbl.set {} s.ins.logs i l } }

/-- Entries of the ring, 2^LOG2. -/
def DirtyLog.size (l : DirtyLog) : Nat := 2 ^ fld l.cfg 8 5

/-- LOG_STATE.TAIL. -/
def DirtyLog.tail (l : DirtyLog) : Nat := fld l.state 0 20

/-- Slots free for entries, those already decided counted as taken (R303). -/
def DirtyLog.free (l : DirtyLog) : Nat := (l.head + 2 * l.size - 1 - l.tail) % l.size - l.due.length

/-- A round is lost: OVERFLOW (bit 30) or WRITE_ERROR (bit 29) is set, and no more entries are made (R301, R303); a round is counted
once. -/
def logLose (s : State) (i b : Nat) : State :=
  let l := logOf s i
  let s' := insEvent (instEvent (setLog s i { l with state := setBit l.state b true }) i 5) i 6
  if bit l.state 30 || bit l.state 29 then s' else cf s' (homeTile i) 0x6000010 16 16

/-- A posted write toward a host, recorded as the home tile sends it (R300, R302, R303). -/
def logWrite (s : State) (i addr : Nat) (p : Bool) (serial : Nat) : State :=
  let l := logOf s i
  let t := homeTile i
  if bit l.cfg 0 = false ∨ bit l.state 30 ∨ bit l.state 29 then s
  else
    let f := Tbl.get [] s.ins.filter t
    let page := addr / 4096
    if ¬ p ∧ f.contains (i, l.round, page) then s
    else if l.free = 0 then logLose s i 30
    else
      let s := setLog s i { l with due := l.due ++ [(page, p, serial)] }
      if p then s
      else if 65536 ≤ f.length then cf s t 0x6000010 0 16
      else
        let s := { s with ins := { s.ins with filter := Tbl.set [] s.ins.filter t (f ++ [(i, l.round, page)]) } }
        sf s t 0x600000C 0 17 (f.length + 1)

/-- Bytes of entries written from `tail` on with a PHASE. -/
def logBytes (phase : Bool) (es : List (Nat × Bool × Nat)) : List Byte :=
  es.flatMap (fun e => leBytes 8 (e.1 * 4096 + 2 * b2n e.2.1 + b2n phase))

/-- Writes the first `n` decided entries at TAIL, which lie in one 64-byte block, together: one posted write through the bound function's
physical function (R301). -/
def logPut (s : State) (i n : Nat) : State :=
  let l := logOf s i
  let es := l.due.take n
  let phase := bit l.state 28
  let tail := l.tail
  let next := if tail + es.length = l.size then 0 else tail + es.length
  let st := setBit (setFld l.state 0 20 next) 28 (if next = 0 then !phase else phase)
  let s := setLog s i { l with state := st, due := l.due.drop n, clearEnts := l.clearEnts - es.length }
  match instLink s i with
  | none => s
  | some h =>
    let (k, s) := newSerial s
    sendIn s (homeTile i) 10 0
      { serial := k,
        pkt := { ty := .wr, len := lenField (8 * es.length), inst := i, gen := (instOf s i).gen, addr := pair l.ringLo l.ringHi + 8 * tail,
                 data := logBytes phase es },
        srcTile := homeTile i, srcPort := 10, dstTile := linkTile h, dstPort := 0, dstSub := h % 4, asPf := true }

/-- Entries that fit from TAIL to the end of its 64-byte block. -/
def DirtyLog.room (l : DirtyLog) : Nat := 8 - l.tail % 8

/-- Writes the decided entries whose writes are on their host link, oldest first, as many as lie in one 64-byte block (R301). -/
def logDrain (s : State) (i : Nat) : State :=
  let l := logOf s i
  let ready := (l.due.takeWhile (fun e => !(s.brg.posted.any (fun r => r.serial == e.2.2)))).length
  let n := Nat.min ready l.room
  if n = 0 then s else logPut s i n

/-- Writes every decided entry, block by block; `fuel` bounds the blocks. -/
def logFlush (s : State) (i : Nat) : Nat → State
  | 0 => s
  | fuel + 1 =>
    let l := logOf s i
    if l.due.isEmpty then s else logFlush (logPut s i l.room) i fuel

/-- The log ends (R305): every decided entry is written, and EN clears. -/
def logEnd (s : State) (i : Nat) : State :=
  let s := logFlush s i (logOf s i).due.length
  let l := logOf s i
  setLog s i { l with cfg := setBit l.cfg 0 false }

/-- CLEAR accepted (R304): the round changes, OVERFLOW and WRITE_ERROR clear, and the writes and entries decided before
are waited for. -/
def logClear (s : State) (i : Nat) (mb : Option Nat) : State :=
  let l := logOf s i
  let lost := bit l.state 30 || bit l.state 29 || (bit l.state 31 && l.lost)
  let st := setBit (setBit (setBit l.state 30 false) 29 false) 31 true
  let waits := postedToHost s i none
  setLog s i { l with state := st, round := l.round + 1, clearWaits := waits, clearEnts := l.due.length, lost := lost,
                      newAt := (l.tail + l.due.length) % l.size, clearMb := if mb.isSome then mb else l.clearMb }

end Sys2Proof.Machine
end

