-- ==== Sys2Proof/Machine/DmaBase.lean ====
section
/-! DEFINITION. DMA queues (12; the instance's numbers R244, the kinds R245, what meets on a queue R262): contexts, descriptors, the completion ring, queue commands, and what other units ask of a
queue. -/

namespace Sys2Proof.Machine

open Sys2Proof

/-- The first of the numbers below `n` that is not used, tried from `a` on. -/
def firstFree (used : Nat → Bool) (n : Nat) : Nat → Nat → Option Nat
  | 0, _ => none
  | k + 1, a => if used (a % n) then firstFree used n k (a + 1) else some (a % n)

/-! ## Contexts (R246) -/

/-- Key of a queue. -/
abbrev qcKey (t q : Nat) : Nat := t * 16384 + q

/-- Reset value of context word `n`. -/
def qReset (n : Nat) : Word :=
  match n with
  | 0 => 0x00010000
  | 4 => 0x00010404
  | 7 => 0x80000000
  | 12 => 1
  | _ => 0

/-- A context word. -/
def qw (s : State) (t q n : Nat) : Word := Tbl.get (qReset n) s.dma.qctx (qcKey t q * 16 + n)

/-- Stores a context word. -/
def setQw (s : State) (t q n : Nat) (v : Word) : State :=
  { s with dma := { s.dma with qctx := Tbl.set (qReset n) s.dma.qctx (qcKey t q * 16 + n) v } }

/-- A field of a context word. -/
def qf (s : State) (t q n lo w : Nat) : Nat := fld (qw s t q n) lo w

/-- Writes a field of a context word. -/
def setQf (s : State) (t q n lo w v : Nat) : State := setQw s t q n (setFld (qw s t q n) lo w v)

/-- Q_STATE.STATE: 0 DISABLED, 1 RUNNING, 2 HALTED, 3 RESETTING. -/
def qState (s : State) (t q : Nat) : Nat := qf s t q 0 28 4

/-- Q_STATE.HEAD. -/
def qHead (s : State) (t q : Nat) : Nat := qf s t q 0 0 16

/-- TAIL. -/
def qTail (s : State) (t q : Nat) : Nat := qf s t q 1 16 16

/-- Q_CFG.KIND: 0 host-ring, 1 local-ring, 2 inline. -/
def qKind (s : State) (t q : Nat) : Nat := qf s t q 4 30 2

/-- Entries of the ring or store. -/
def qSize (s : State) (t q : Nat) : Nat := 2 ^ qf s t q 4 0 5

/-- Entries of the completion ring. -/
def cplSize (s : State) (t q : Nat) : Nat := 2 ^ qf s t q 4 8 5

/-- The ring's address. -/
def ringAddr (s : State) (t q : Nat) : Nat := pair (qw s t q 2) (qw s t q 3)

/-- The completion ring's address. -/
def cplAddr (s : State) (t q : Nat) : Nat := pair (qw s t q 5) (qw s t q 6)

/-- Q_CFG clamped as a whole (R246, R87). -/
def clampQCfg (w : Word) : Word :=
  let k := Nat.min 2 (fld w 30 2)
  let poll := if fld w 16 8 = 0 then 1 else fld w 16 8
  word (k * 2 ^ 30 + fld w 29 1 * 2 ^ 29 + poll * 2 ^ 16 + clamp 4 16 (fld w 8 5) * 2 ^ 8 +
    clamp 4 (if k = 2 then 8 else 16) (fld w 0 5))

/-- The aperture: first local address and the address past its end, clamped to 2^48 (R246). -/
def aperture (s : State) (t q : Nat) : Nat × Nat :=
  let b := (qw s t q 14).toNat * 65536
  (b, Nat.min (2 ^ 48) (b + qf s t q 15 0 24 * 65536))

/-- Whether a span lies wholly inside the aperture. -/
def inAperture (s : State) (t q a n : Nat) : Bool :=
  let p := aperture s t q
  decide (p.1 ≤ a) && decide (a + n ≤ p.2)

/-- The instance that holds a tile queue. -/
def qOwner (s : State) (t q : Nat) : Option Nat := srcOwner s t q

/-- A queue's engine state. -/
def eng (s : State) (t q : Nat) : QEng := Tbl.get {} s.dma.eng (qcKey t q)

/-- Replaces a queue's engine state. -/
def setEng (s : State) (t q : Nat) (e : QEng) : State :=
  { s with dma := { s.dma with eng := Tbl.set {} s.dma.eng (qcKey t q) e } }

/-! ## Descriptors (R254) -/

/-- Source element width in bytes. -/
def Desc.sw (d : Desc) : Nat := 2 ^ fld d.ctrl 24 2

/-- Destination element width in bytes. -/
def Desc.dw (d : Desc) : Nat := 2 ^ fld d.ctrl 22 2

/-- Whether a descriptor is a marker (R257). -/
def Desc.marker (d : Desc) : Bool := d.len == 0

/-- Whether a descriptor writes a completion entry. -/
def Desc.wantsEntry (d : Desc) : Bool := d.marker || bit d.ctrl 30

/-- Reads a descriptor's 32 bytes. -/
def readDesc (idx : Nat) (b : List Byte) : Desc :=
  { ctrl := word (leAt b 0 4), len := leAt b 4 4, src := leAt b 8 8, dst := leAt b 16 8, cookie := leAt b 24 2, idx := idx }

/-- Converts one element, given as its little-endian number, from `sw` to `dw` bytes (R255). -/
def convert (sw dw : Nat) (isSigned sat : Bool) (v : Nat) : Nat :=
  if dw = sw then v
  else if sw < dw then if isSigned then unsigned (8 * dw) (signed (8 * sw) v) else v
  else if !sat then v % 2 ^ (8 * dw)
  else if isSigned then
    let x := signed (8 * sw) v
    let top : Int := (2 ^ (8 * dw - 1) : Nat)
    unsigned (8 * dw) (if top ≤ x then top - 1 else if x < -top then -top else x)
  else Nat.min (2 ^ (8 * dw) - 1) v

/-! ## Staging (R264, R265) -/

/-- Data blocks a read of `n` bytes reserves. -/
abbrev blocks (n : Nat) : Nat := (n + 255) / 256

/-- Source bytes of a started descriptor that the write engine has consumed: those of every element of which a
destination byte has been written. -/
def Run.consumed (r : Run) : Nat := (r.wroteTo + r.d.dw - 1) / r.d.dw * r.d.sw

/-- Data blocks a queue holds. -/
def QEng.blocks (e : QEng) : Nat :=
  (e.runs.map (fun r => (r.reads.map (fun x => Machine.blocks (x.off + x.len - Nat.max x.off r.consumed))).sum)).sum

/-- Descriptor slots a queue holds: of descriptors not yet completed, and those that a fetch under way will fill. -/
def QEng.slots (e : QEng) : Nat := e.fetched.length + e.fetchN + e.runs.length + b2n e.halted.isSome

/-- Data blocks and descriptor slots in use in a tile. -/
def stageUse (s : State) (t : Nat) : Nat × Nat :=
  let es := s.dma.eng.filter (fun e => e.1 / 16384 == t)
  ((es.map (fun e => e.2.blocks)).sum, (es.map (fun e => e.2.slots)).sum)

/-- DMA_STAGE_USE after a change. -/
def stageRefresh (s : State) (t : Nat) : State :=
  let u := stageUse s t
  sf (sf s t 0x500020C 0 15 u.1) t 0x500020C 16 16 u.2

/-! ## Completion ring (R259, R260) -/

/-- Entries reserved and not yet written. -/
def QEng.reserved (e : QEng) : Nat :=
  (e.runs.filter Run.entry).length +
  (match e.skipped with
   | some (_, true) => 1
   | some (_, false) => 0
   | none => 0) +
  (match e.halted with
   | some (r, _) => b2n r.entry
   | none => 0)

/-- Free entries of the completion ring. -/
def cplFree (s : State) (t q : Nat) : Nat :=
  let n := cplSize s t q
  (qf s t q 8 0 16 + 2 * n - 1 - qf s t q 7 0 16) % n - (eng s t q).reserved

/-- The lowest part of the aperture's port as a frame's destination. -/
def apDest (s : State) (t q : Nat) : Nat × Nat × Nat :=
  let l := qf s t q 15 27 5
  (l / 4, 1 + l % 4, qf s t q 15 26 1)

/-- A number for a write on its way, with the write's record (R269). -/
def newWrite (s : State) (t : Nat) (w : DWr) : Nat × State :=
  (s.dma.nextW, { s with dma := { s.dma with
      writes := Tbl.set none s.dma.writes (t * 2 ^ 32 + s.dma.nextW) (some w), nextW := s.dma.nextW + 1 } })

/-- Sends a write of a queue from the write engine (R256): to the aperture's port, or to the bound host link, where it is
recorded in the dirty log (R300). A write of an unbound instance settles at once as R101 refuses it. -/
def dmaSendWrite (s : State) (t q i : Nat) (w : DWr) (data : List Byte) (rlx ns ep : Bool) : State × Nat :=
  let (n, s) := newWrite s t w
  let (k, s) := newSerial s
  let g := (instOf s i).gen
  let p : Pkt := { ty := .wr, len := lenField data.length, inst := i, gen := g, rlx := rlx, ns := ns, ep := ep, addr := w.addr,
                   data := data }
  if w.islocal then
    let d := apDest s t q
    let s := notePosted s { serial := k, inst := i, fromSlot := none, toHost := none,
                            toSlot := some (slotKey d.1 (2 * (d.2.1 - 1) + d.2.2)), mc := false, fromHost := none, home := t }
    (enter s { serial := k, pkt := p, srcTile := t, srcPort := 9, dstTile := d.1, dstPort := d.2.1, dstSub := d.2.2,
               issuer := .dmaWr t n }, n)
  else match instLink s i with
    | some h =>
      let pasid := if qf s t q 13 31 1 = 1 then some (qf s t q 13 0 20) else none
      let s := notePosted s { serial := k, inst := i, fromSlot := none, toHost := some h, toSlot := none, mc := false,
                              fromHost := none, home := t }
      let s := logWrite s i w.addr pasid.isSome k
      (enter s { serial := k, pkt := p, srcTile := t, srcPort := 9, dstTile := linkTile h, dstPort := 0,
                 dstSub := h % 4, issuer := .dmaWr t n, pasid := pasid }, n)
    | none => (answer s (.dmaWr t n) 5 [] false, n)

/-- Writes a completion entry at CPL_TAIL, which advances, PHASE toggling at the wrap (R258, R259); with IRQ the queue's
source becomes pending. -/
def cplWrite (s : State) (t q i : Nat) (e : CplEnt) : State :=
  let tail := qf s t q 7 0 16
  let phase := qf s t q 7 31 1
  let data := leBytes 4 (phase * 2 ^ 31 + e.status * 2 ^ 24 + e.idx) ++ leBytes 4 e.cookie ++ leBytes 4 e.elements ++
    leBytes 4 ((instOf s i).gen * 2 ^ 24 + q)
  let islocal := qf s t q 4 29 1 = 1
  let next := if tail + 1 = cplSize s t q then 0 else tail + 1
  let s := setQw s t q 7 (word ((if next = 0 then 1 - phase else phase) * 2 ^ 31 + next))
  let r := dmaSendWrite s t q i ⟨q, true, cplAddr s t q + 16 * tail, e.idx, decide islocal⟩ data false false false
  let noted (s : State) : State := { s with evc := { s.evc with pendAt := s.evc.pendAt.map (fun x =>
    if x.1 = t * 32768 + q then (x.1, x.2.1, x.2.2.1 ++ [r.1.brg.serial - 1], x.2.2.2) else x) } }
  if e.irq then noted (edge r.1 t q) else r.1

/-! ## Queue commands (R247, R248, R280) -/

/-- Whether ENABLE finds the configuration bad (R247). -/
def badConfig (s : State) (t q : Nat) : Bool :=
  (qKind s t q == 1 && (qf s t q 15 0 24 == 0 || !inAperture s t q (ringAddr s t q) (qSize s t q * 32))) ||
  (qf s t q 4 29 1 == 1 && !inAperture s t q (cplAddr s t q) (cplSize s t q * 16))

/-- Releases a queue's inline reservation (R252): the one its last ENABLE made, which BIND's disabling keeps with its store. -/
def releaseInline (s : State) (t q : Nat) : State :=
  let e := eng s t q
  if e.held = 0 then s else setEng (sf s t 0x5000004 0 15 (gf s t 0x5000004 0 15 - e.held)) t q { e with held := 0 }

/-- HEAD after one more descriptor, EXP_PHASE toggling at a wrap (R251). -/
def advanceHead (s : State) (t q : Nat) : State :=
  let next := if qHead s t q + 1 = qSize s t q then 0 else qHead s t q + 1
  let s := setQf s t q 0 0 16 next
  if next = 0 ∧ qKind s t q = 1 then setQf s t q 0 16 1 (1 - qf s t q 0 16 1) else s

/-- Drops the fetched descriptors of a queue, with a fetch under way, and moves HEAD, with EXP_PHASE, back to the first of them (R288,
R296); one that has failed its aperture check is checked again when it is next to start. -/
def dropFetched (s : State) (t q : Nat) : State :=
  let e := eng s t q
  let failed := if e.failed.any (fun h => h.cause == 2) then none else e.failed
  let s := setEng s t q { e with fetched := [], fetch := [], fetchN := 0, failed := failed }
  match e.fetched with
  | [] => stageRefresh s t
  | d :: _ =>
    let back := decide (qHead s t q ≤ d.idx)
    let s := setQf s t q 0 0 16 d.idx
    let s := if back ∧ qKind s t q = 1 then setQf s t q 0 16 1 (1 - qf s t q 0 16 1) else s
    stageRefresh s t

/-- SKIP's entry for descriptor `d` with `k` elements written (R280); CPL_WAIT is set where no entry is free. -/
def skipEntry (s : State) (t q : Nat) (d : Desc) (k : Nat) (reserved : Bool) : State :=
  let free := reserved || decide (0 < cplFree s t q)
  let e := eng s t q
  let s := setEng s t q { e with skipped := some (⟨d.idx, d.cookie, 1, k, bit d.ctrl 29⟩, free), halted := none }
  if free then s else setQf s t q 0 18 1 1

/-- Returns started descriptors to the unstarted ones, in order, their entries unreserved. -/
def unstart (e : QEng) (rs : List Run) : QEng := { e with fetched := rs.map Run.d ++ e.fetched }

/-- Returns the descriptors of an inline queue to its store, HEAD moved back to the first. -/
def restore (s : State) (t q : Nat) (rs : List Run) : State :=
  if qKind s t q = 2 then
    match rs with
    | [] => s
    | r :: _ =>
      let bytes (d : Desc) : List Byte := leBytes 4 d.ctrl.toNat ++ leBytes 4 d.len ++ leBytes 8 d.src ++ leBytes 8 d.dst ++
        leBytes 2 d.cookie ++ [0, 0, 0, 0, 0, 0]
      let e := eng s t q
      let s := setEng s t q { e with store := rs.foldl (fun tb x => Tbl.ins tb x.d.idx (bytes x.d)) e.store }
      setQf s t q 0 0 16 r.d.idx
  else setEng s t q (unstart (eng s t q) rs)

/-- RESUME of a halted queue, by its cause (R280): after APERTURE H is checked again at its start, else H goes on from its failing element, and is still poisoned where data before that
element was (R281). -/
def queueResume (s : State) (t q : Nat) : State :=
  let e := eng s t q
  let s := setQf s t q 0 28 4 1
  match e.halted with
  | some (r, k) =>
    if qf s t q 11 28 4 = 2 then restore (setEng s t q { e with halted := none }) t q [r]
    else
    let bad := r.bad || r.reads.any (fun x => x.bad && decide (x.off < k * r.d.sw))
    let r' := { r with first := k, readTo := k * r.d.sw, reads := [], wroteTo := k * r.d.dw, writes := [], bad := bad }
    setEng s t q { e with runs := r' :: e.runs, halted := none }
  | none => s

/-- The next descriptor to start: the first fetched, or of an inline queue the one in its store at HEAD. -/
def nextDesc (s : State) (t q : Nat) : Option Desc :=
  let e := eng s t q
  if qKind s t q = 2 then
    if qHead s t q = qTail s t q then none
    else (Tbl.find? e.store (qHead s t q)).map (fun b => readDesc (qHead s t q) b)
  else e.fetched.head?

/-- Takes the next descriptor out of its place. -/
def dropNext (s : State) (t q : Nat) : State :=
  let e := eng s t q
  if qKind s t q = 2 then advanceHead (setEng s t q { e with store := Tbl.del e.store (qHead s t q) }) t q
  else setEng s t q { e with fetched := e.fetched.drop 1 }

/-- SKIP of a halted queue, by its cause (R280). -/
def queueSkip (s : State) (t q : Nat) : State :=
  let e := eng s t q
  let cause := qf s t q 11 28 4
  let s := setQf s t q 0 28 4 1
  match e.halted with
  | some (r, k) => skipEntry s t q r.d k r.entry
  | none => if cause = 3 then advanceHead s t q else s

/-- A queue command (R247); `driver` marks one written by the driver, which a FROZEN, HALTED or RESETTING instance
refuses (R290). -/
def queueCmd (s : State) (t q cmd : Nat) (driver : Bool) : State :=
  if cmd = 0 ∨ 5 ≤ cmd ∨ qf s t q 0 17 1 = 1 then s else
  let limited := match qOwner s t q with
    | some i => let r := instOf s i; r.frozen || r.halted || r.resetting
    | none => false
  let wrong := setQf s t q 0 24 4 1
  let st := qState s t q
  if driver && limited then wrong
  else match cmd with
  | 1 =>
    if st ≠ 0 then wrong
    else if badConfig s t q then setQf s t q 0 24 4 2
    else if qKind s t q = 2 then
      let e := eng s t q
      let use := gf s t 0x5000004 0 15 - e.held
      if 16384 < use + qSize s t q then setQf s t q 0 24 4 3
      else
        let s := setEng (sf s t 0x5000004 0 15 (use + qSize s t q)) t q { e with held := qSize s t q }
        setQf (setQf s t q 0 28 4 1) t q 0 24 4 0
    else setQf (setQf s t q 0 28 4 1) t q 0 24 4 0
  | 2 => if st ≠ 2 then wrong else setQf (queueResume s t q) t q 0 24 4 0
  | 3 => if st ≠ 2 then wrong else setQf (queueSkip s t q) t q 0 24 4 0
  | _ =>
    if st = 3 then wrong
    else
      let e := eng s t q
      let s := setEng s t q { e with fetched := [], fetch := [], fetchN := 0, store := [], skipped := none, failed := none,
                                      settling := false, stop := none }
      stageRefresh (setQf (setQf s t q 0 28 4 3) t q 0 17 1 1) t

/-- Whether a queue has a read tag that has not ended (quarantined tags have) or a write not yet settled. -/
def queueOutstanding (s : State) (t q : Nat) : Bool :=
  s.dma.tags.any (fun e => e.1 / 4096 == t &&
    (match e.2 with
     | some g => g.queue == q && !g.quar
     | none => false)) ||
  s.dma.writes.any (fun e => e.1 / 2 ^ 32 == t &&
    (match e.2 with
     | some w => w.queue == q
     | none => false))

/-- Step 3 of a queue reset (R248). -/
def queueResetEnd (s : State) (t q : Nat) : State :=
  if qState s t q ≠ 3 ∨ queueOutstanding s t q then s else
  let s := setEng (releaseInline s t q) t q {}
  let s := setQw s t q 0 (setBit 0x00010000 19 (bit (qw s t q 0) 19))
  let s := setQf s t q 1 16 16 0
  let s := setQw (setQw s t q 7 0x80000000) t q 8 0
  let s := setQw (setQw (setQw s t q 9 0) t q 10 0) t q 11 0
  stageRefresh s t

/-! ## Doorbells (R249 to R253) -/

/-- A discarded doorbell (R253). -/
def dropDoorbell (s : State) (t q kind : Nat) : State :=
  let s := setQf s t q 0 19 1 1
  let notRunning := kind = 1 ∨ kind = 5
  let s := if notRunning then cf s t 0x5000000 16 16 else cf s t 0x5000000 0 16
  let s := wreg s t 0x500000C (word (kind * 2 ^ 28 + q))
  evt s t 36 (if notRunning then 0 else if kind = 4 then 2 else 1)

/-- Doorbells are discarded while the instance is resetting and while the queue is DISABLED or RESETTING (R253). -/
def doorbellShut (s : State) (i t q : Nat) : Option Nat :=
  if (instOf s i).resetting then some 5
  else if qState s t q = 0 ∨ qState s t q = 3 then some 1
  else none

/-- A DW write to a doorbell slot at slot offset `off` (R249, R251, R252). -/
def doorbell (s : State) (i t q off : Nat) (be : BitVec 4) (v : Word) : State :=
  if qKind s t q = 0 ∧ off ≠ 0 then s
  else match doorbellShut s i t q with
    | some k => dropDoorbell s t q k
    | none =>
      match qKind s t q with
      | 0 =>
        if ¬ (be.getLsbD 0 ∧ be.getLsbD 1) then dropDoorbell s t q 6
        else if qSize s t q ≤ fld v 0 16 then dropDoorbell s t q 2
        else setQf s t q 1 16 16 (fld v 0 16)
      | 1 => setEng s t q { eng s t q with pollWait := false }
      | _ => dropDoorbell s t q 3

/-- A 64-byte write to a doorbell slot, taken as one unit (R75, R249, R252). -/
def doorbell64 (s : State) (i t q : Nat) (en : List Bool) (b : List Byte) : State :=
  match doorbellShut s i t q with
  | some k => dropDoorbell s t q k
  | none =>
    match qKind s t q with
    | 0 =>
      if ¬ (en.getD 0 false ∧ en.getD 1 false) then dropDoorbell s t q 6
      else if qSize s t q ≤ leAt b 0 2 then dropDoorbell s t q 2
      else setQf s t q 1 16 16 (leAt b 0 2)
    | 1 => setEng s t q { eng s t q with pollWait := false }
    | _ =>
      if en.length < 64 ∨ en.any (fun x => !x) then dropDoorbell s t q 3
      else
        let here := [bytesAt b 0 32, bytesAt b 32 32].filter (fun d => 128 ≤ leAt d 3 1)
        let used := (qTail s t q + qSize s t q - qHead s t q) % qSize s t q
        if qSize s t q - 1 < used + here.length then dropDoorbell s t q 4
        else
          here.foldl (fun s d =>
            let e := eng s t q
            let tail := qTail s t q
            let s := setEng s t q { e with store := Tbl.ins e.store tail d }
            setQf s t q 1 16 16 (if tail + 1 = qSize s t q then 0 else tail + 1)) s

/-- A write of Q_CPL_HEAD (R260): an index at or above the ring size is ignored. -/
def cplHead (s : State) (t q : Nat) (be : BitVec 4) (v : Word) : State :=
  let x := fld (mergeBytes (qw s t q 8) be v) 0 16
  if cplSize s t q ≤ x then s
  else
    let s := setQw s t q 8 (word x)
    let e := eng s t q
    match e.skipped with
    | some (c, false) =>
      if 0 < cplFree s t q then setQf (setEng s t q { e with skipped := some (c, true) }) t q 0 18 1 0 else s
    | some (_, true) => s
    | none => if qf s t q 0 18 1 = 1 ∧ 0 < cplFree s t q then setQf s t q 0 18 1 0 else s

/-- A driver's write to word `n` of a queue's status slot (R246). -/
def qctxDriverWrite (s : State) (t q n : Nat) (be : BitVec 4) (v : Word) : State :=
  let m := mergeBytes (qw s t q n) be v
  let dis := qState s t q = 0
  match n with
  | 0 => if bit (v &&& beMask be) 19 then setQf s t q 0 19 1 0 else s
  | 1 => if be.getLsbD 0 then queueCmd s t q (fld v 0 4) true else s
  | 2 => if dis then setQw s t q 2 (m &&& 0xFFFFFFC0#32) else s
  | 3 => if dis then setQw s t q 3 m else s
  | 4 => if dis then setQw s t q 4 (clampQCfg m) else s
  | 5 => if dis then setQw s t q 5 (m &&& 0xFFFFFFC0#32) else s
  | 6 => if dis then setQw s t q 6 m else s
  | 8 => cplHead s t q be v
  | 13 => if dis then setQw s t q 13 (m &&& 0x800FFFFF#32) else s
  | _ => s

/-- The queues of an instance. -/
def instQueues (s : State) (i : Nat) : List Nat :=
  let r := instOf s i
  (List.range r.qCount).map (r.qBase + ·)

/-- Puts a queue's context and engine back to reset, keeping Q_SHARE, Q_AP_BASE and Q_AP_CFG when `keep` (R286, R293
step 5). -/
def queueClear (s : State) (t q : Nat) (keep : Bool) : State :=
  let s := setEng (releaseInline s t q) t q {}
  (List.range 16).foldl (fun s n =>
    if keep && (n == 12 || n == 14 || n == 15) then s else setQw s t q n (qReset n)) s

end Sys2Proof.Machine
end

