-- ==== Sys2Proof/Machine/Dma.lean ====
section
/-! DEFINITION. The DMA commands: doorbells and queue commands (12), and the read engine, scheduler, write engine and halts
(13; what meets in the engines is decided as in R281). -/

namespace Sys2Proof.Machine

open Sys2Proof

/-! ## Whether a queue runs -/

/-- Whether a queue may fetch and start: RUNNING, its instance live and not FROZEN, HALTED or RESETTING (R53, R290). -/
def mayStart (s : State) (t q : Nat) : Option Nat :=
  match qOwner s t q with
  | some i =>
    let r := instOf s i
    if qState s t q = 1 ∧ live s i ∧ ¬ r.frozen ∧ ¬ r.halted ∧ ¬ r.resetting then some i else none
  | none => none

/-- Whether started descriptors of an instance may still issue requests: it is live, or it is bound to no function and each host-side
request of theirs ends as R101 and R281 say. -/
def runsOn (s : State) (i : Nat) : Bool := live s i || ((instOf s i).state == .unbound && mode s (homeTile i) == 3)

/-- Whether a queue's started descriptors may issue requests: a frozen instance's run to completion (R296), a halted one's do not
(R295). -/
def mayIssue (s : State) (t q : Nat) : Option Nat :=
  match qOwner s t q with
  | some i =>
    let r := instOf s i
    if qState s t q = 1 ∧ runsOn s i ∧ ¬ r.halted ∧ ¬ r.resetting ∧ ¬ (eng s t q).settling then some i else none
  | none => none

/-- Whether a frame of a class waits for cells at a DMA engine's port, which stops the engine in that class (R187). -/
def engineWaits (s : State) (t p c : Nat) : Bool := (Tbl.get [] s.swc.waiting (t * 12 + p)).any (fun f => f.pkt.cls == c)

/-- Bytes of a descriptor's source span. -/
def Desc.srcLen (d : Desc) : Nat := d.len * d.sw

/-- Bytes of a descriptor's destination span. -/
def Desc.dstLen (d : Desc) : Nat := d.len * d.dw

/-- Whether a started descriptor is complete (R270). -/
def Run.done (r : Run) : Bool :=
  r.d.srcLen ≤ r.readTo && r.d.dstLen ≤ r.wroteTo && r.reads.all (fun x => x.status == some 0) &&
  r.writes.all (fun x => x.status == some 0)

/-- Whether a started descriptor has a failed request. -/
def Run.failed (r : Run) : Bool :=
  r.reads.any (fun x => x.status.isSome && x.status != some 0) ||
  r.writes.any (fun x => x.status.isSome && x.status != some 0)

/-- Whether every request issued for a descriptor has ended. -/
def Run.ended (r : Run) : Bool :=
  r.reads.all (fun x => x.status.isSome) && r.writes.all (fun x => x.status.isSome)

/-- Whether a descriptor met poisoned data. -/
def Run.poisoned (r : Run) : Bool := r.bad || r.reads.any DRead.bad

/-! ## Fetching and starting -/

/-- A failure stops the queue's new reads and writes and starts a settle period (R278). -/
def startSettle (s : State) (t q : Nat) : State :=
  setEng s t q { eng s t q with settling := true, stop := none }

/-- A failing fetch (R250, R278): the queue will halt with CAUSE FETCH. -/
def fetchFails (s : State) (t q status : Nat) : State :=
  let h : Halt := ⟨3, false, qKind s t q == 1, status, qHead s t q, ringAddr s t q + 32 * qHead s t q⟩
  startSettle (setEng s t q { eng s t q with failed := some h }) t q

/-- Takes the descriptors a fetch returned; a local-ring queue stops at the first whose V is not EXP_PHASE (R250,
R251). -/
def takeDescs (s : State) (t q : Nat) : Nat → List Byte → State
  | 0, _ => s
  | n + 1, b =>
    let d := readDesc (qHead s t q) b
    let e := eng s t q
    if qKind s t q = 1 ∧ b2n (bit d.ctrl 31) ≠ qf s t q 0 16 1 then s
    else takeDescs (advanceHead (setEng s t q { e with fetched := e.fetched ++ [d] }) t q) t q n (b.drop 32)

/-- A free read tag of a tile, none where all are taken. -/
def freeTag (s : State) (t : Nat) : Option Nat :=
  firstFree (fun k => (Tbl.get none s.dma.tags (t * 4096 + k)).isSome) 4096 4096 (Config.tagChoice s.fresh)

/-- Sends a read of a queue with a tag from the read engine (R266 to R268): toward the aperture's port, or toward the bound host link
with the queue's PASID. A host-side read of an unbound instance ends at once as R101 refuses it. -/
def sendDmaRead (s : State) (t q i tag : Nat) (islocal : Bool) (addr len : Nat) (rlx ns : Bool) : State :=
  let d := apDest s t q
  let slot := if islocal then some (slotKey d.1 (2 * (d.2.1 - 1) + d.2.2)) else none
  let g := (instOf s i).gen
  let s := tickFresh s
  let s := { s with dma := { s.dma with tags := Tbl.set none s.dma.tags (t * 4096 + tag) (some { queue := q, slot := slot, inst := i, gen := g }) } }
  let s := cf s t 0x5000208 0 13
  let (k, s) := newSerial s
  let p : Pkt := { ty := .rd, cls := 1, len := lenField len, inst := i, gen := g, rlx := rlx, ns := ns, addr := addr % 2 ^ 64 }
  if islocal then
    enter s { serial := k, pkt := p, srcTile := t, srcPort := 8, dstTile := d.1, dstPort := d.2.1, dstSub := d.2.2,
              issuer := .dmaTag t tag }
  else match instLink s i with
    | some h =>
      let pasid := if qf s t q 13 31 1 = 1 then some (qf s t q 13 0 20) else none
      enter s { serial := k, pkt := p, srcTile := t, srcPort := 8, dstTile := linkTile h, dstPort := 0, dstSub := h % 4,
                issuer := .dmaTag t tag, pasid := pasid }
    | none => answer s (.dmaTag t tag) 5 [] false

/-- Where the reads of one side are split (R266): a host-side read at the bound function's Max_Read_Request_Size, a local-side one at
4,096 bytes. -/
def readUnit (s : State) (i : Nat) (islocal : Bool) : Nat :=
  if islocal then 4096
  else match (instOf s i).fn with
    | some (h, f) => mrrsOf s h f
    | none => 4096

/-- The pieces of a span that is split at every multiple of `unit`, as offset and length; `fuel` bounds their number. -/
def pieces (unit : Nat) : Nat → Nat → Nat → Nat → List (Nat × Nat)
  | 0, _, _, _ => []
  | fuel + 1, a, off, len =>
    if len = 0 then []
    else
      let n := Nat.min len (unit - (a + off) % unit)
      (off, n) :: pieces unit fuel a (off + n) (len - n)

/-- Descriptor slots a queue may take (R264): one is assured to it, as to every other running queue that has none, and more come from
what is left. -/
def slotsFor (s : State) (t q : Nat) : Nat :=
  let others := s.dma.qctx.countP (fun e => e.1 % 16 == 0 && e.1 / 16 / 16384 == t && e.1 / 16 % 16384 != q && fld e.2 28 4 == 1 &&
    (eng s t (e.1 / 16 % 16384)).slots == 0)
  let left := 32768 - (stageUse s t).2 - others
  if (eng s t q).slots = 0 then Nat.max 1 left else left

/-- Descriptors that a queue's next fetch would read (R250, R251): up to 8, not past TAIL, not past the end of the ring, and no more
than its 16 fetched and unstarted ones allow. -/
def fetchCount (s : State) (t q : Nat) : Nat :=
  let size := qSize s t q
  let head := qHead s t q
  let ready := if qKind s t q = 0 then (qTail s t q + size - head) % size else 8
  Nat.min (Nat.min 8 ready) (Nat.min (16 - (eng s t q).fetched.length) (size - head))

/-- Whether a queue may begin a fetch: it has none under way and nothing of it stops (R250, R251, R278). -/
def mayFetch (s : State) (t q : Nat) : Bool :=
  let e := eng s t q
  (mayStart s t q).isSome && qKind s t q != 2 && e.failed.isNone && !e.settling && e.stop.isNone && !e.pollWait && e.fetch.isEmpty

/-- Issues the reads of a descriptor fetch (R250, R251, R267), each with a tag; without slots, tags or room at the port it waits. -/
def fetch (s : State) (t q : Nat) : State :=
  match mayStart s t q with
  | none => s
  | some i =>
    let want := fetchCount s t q
    let n := Nat.min want (slotsFor s t q)
    if mayFetch s t q = false ∨ want = 0 then s
    else if n = 0 then evt s t 37 3
    else
      let islocal := qKind s t q == 1
      let a := ringAddr s t q + 32 * qHead s t q
      let l := pieces (readUnit s i islocal) 256 a 0 (32 * n)
      if 4096 < gf s t 0x5000208 0 13 + l.length ∨ engineWaits s t 8 1 then s
      else
        let s := setEng s t q { eng s t q with fetchN := n }
        stageRefresh (l.foldl (fun s p => match freeTag s t with
          | some tag =>
            let e := eng s t q
            let s := setEng s t q { e with fetch := e.fetch ++ [{ tag := tag, off := p.1, len := p.2 }] }
            sendDmaRead s t q i tag islocal (a + p.1) p.2 false false
          | none => s) s) t

/-- The end of a fetch once all its reads have ended (R250, R251): it fails with the first failing status, or with CA where its data
arrived poisoned; else its descriptors are taken, and a local-ring queue whose first did not match waits for POLL. -/
def fetchEnd (s : State) (t q : Nat) : State :=
  let e := eng s t q
  if e.fetch.any (fun x => x.status.isNone) then s
  else
    let s := setEng s t q { e with fetch := [], fetchN := 0 }
    match e.fetch.findSome? (fun x => x.status.bind (fun st => if st = 0 then none else some st)) with
    | some st => stageRefresh (fetchFails s t q st) t
    | none =>
      if e.fetch.any DRead.bad then stageRefresh (fetchFails s t q 2) t
      else
        let s' := takeDescs s t q e.fetchN (e.fetch.flatMap DRead.data)
        let s' := if qKind s t q = 1 ∧ qHead s' t q = qHead s t q then setEng s' t q { eng s' t q with pollWait := true } else s'
        stageRefresh s' t

/-- The aperture check of a descriptor (R256): the first failing span's side and first byte outside. -/
def apertureFails (s : State) (t q : Nat) (d : Desc) : Option (Bool × Nat) :=
  let p := aperture s t q
  let outside (a : Nat) : Nat := if a < p.1 ∨ p.2 ≤ a then a else p.2
  if d.marker then none
  else if bit d.ctrl 27 && !inAperture s t q d.src d.srcLen then some (false, outside d.src)
  else if bit d.ctrl 26 && !inAperture s t q d.dst d.dstLen then some (true, outside d.dst)
  else none

/-- The share word in force since the last epoch boundary (R277). -/
def shareNow (s : State) (t q : Nat) : Word := Tbl.get 1 s.dma.share (qcKey t q)

/-- The instance weight in force since the last epoch boundary. -/
def instShareNow (s : State) (i : Nat) : Nat := Tbl.get 0 s.dma.instShare i

/-- Starts the next descriptor of a queue (R260, R271, R274, R256, R257). -/
def startDesc (s : State) (t q : Nat) : State :=
  let e := eng s t q
  match mayStart s t q, nextDesc s t q with
  | some i, some d =>
    let w := fld (shareNow s t q) 0 16
    if 8 ≤ e.runs.length ∨ e.runs.any (fun r => r.d.marker) ∨ e.settling ∨ e.stop.isSome ∨ e.skipped.isSome ∨
        w = 0 ∨ instShareNow s i = 0 ∨
        e.failed.any (fun h => h.cause != 3) = true then s
    else match apertureFails s t q d with
      | some (ws, a) => setEng s t q { e with failed := some ⟨2, ws, true, 0, d.idx, a⟩ }
      | none =>
        if d.wantsEntry ∧ cplFree s t q = 0 then setQf s t q 0 18 1 1
        else
          let s := dropNext (setQf s t q 0 18 1 0) t q
          let e := eng s t q
          let r : Run := { d := d, born := s.dma.nextW, prio := fld (shareNow s t q) 16 2, weight := w,
                           instWeight := instShareNow s i, readTo := 0, wroteTo := 0, entry := d.wantsEntry }
          let s := setEng s t q { e with runs := e.runs ++ [r] }
          stageRefresh { s with dma := { s.dma with nextW := s.dma.nextW + 1 } } t
  | _, _ => s

/-- Retires complete descriptors at the front that write no entry (R270). -/
def retire (s : State) (t q : Nat) : Nat → State
  | 0 => s
  | n + 1 =>
    let e := eng s t q
    match e.runs with
    | r :: rest =>
      if r.done && !r.d.wantsEntry then
        let s := setEng s t q { e with runs := rest }
        retire (if r.poisoned then evt (cf s t 0x5000218 0 16) t 37 4 else s) t q n
      else s
    | [] => s

/-- Writes the next completion entry of a queue, if one is due (R259, R270). -/
def writeEntry (s : State) (t q : Nat) : State :=
  let s := retire s t q 8
  let e := eng s t q
  match qOwner s t q with
  | none => s
  | some i =>
    if qState s t q ≠ 1 ∨ runsOn s i = false ∨ (instOf s i).halted ∨ (instOf s i).resetting ∨ e.settling ∨ engineWaits s t 9 0 then s
    else match e.skipped with
      | some (c, free) =>
        if free then stageRefresh (cplWrite (setEng s t q { e with skipped := none }) t q i c) t else s
      | none =>
        match e.runs with
        | r :: rest =>
          if r.done && r.d.wantsEntry then
            let c : CplEnt := ⟨r.d.idx, r.d.cookie, if r.poisoned then 2 else 0, r.d.len, bit r.d.ctrl 29⟩
            let s := setEng s t q { e with runs := rest }
            let s := if r.poisoned then evt (cf s t 0x5000218 0 16) t 37 4 else s
            stageRefresh (cplWrite s t q i c) t
          else s
        | [] => s

/-! ## The scheduler (R274 to R276) -/

/-- A queue's choice for the scheduler: the queue, its instance, the place of the descriptor among the started ones, and
the descriptor. -/
structure Cand where
  q : Nat
  i : Nat
  at_ : Nat
  r : Run
  deriving DecidableEq, Repr

/-- The next read of a started descriptor: its place and length (R266). -/
def nextRead (s : State) (i : Nat) (r : Run) : Nat × Nat :=
  let unit := readUnit s i (bit r.d.ctrl 27)
  (r.readTo, Nat.min (r.d.srcLen - r.readTo) (unit - (r.d.src + r.readTo) % unit))

/-- Whether the descriptor at place `k` has a read it may issue: FENCE holds it until every earlier one is complete. -/
def hasRead (rs : List Run) (stop : Option Nat) (k : Nat) (r : Run) : Bool :=
  decide (r.readTo < r.d.srcLen) && (!bit r.d.ctrl 28 || (rs.take k).all Run.done) &&
  (match stop with
   | some b => decide (r.born < b)
   | none => true)

/-- The first started descriptor of a queue in class `c` with a read it may issue. -/
def classRead (e : QEng) (c : Nat) : Option (Nat × Run) :=
  let stop := e.stop.map Prod.fst
  (e.runs.zipIdx.find? (fun x => x.1.prio == c && hasRead e.runs stop x.2 x.1)).map (fun x => (x.2, x.1))

/-- Whether a read's blocks can be reserved (R265). -/
def roomFor (s : State) (t : Nat) (e : QEng) (n : Nat) : Bool :=
  decide (e.blocks + blocks n ≤ 2048) && decide ((stageUse s t).1 + blocks n ≤ 26624)

/-- The queues of a tile with a read to issue in class `c`, in queue order, whether or not its blocks can be reserved. -/
def wantsRead (s : State) (t c : Nat) : List Cand :=
  (s.dma.eng.filter (fun e => e.1 / 16384 == t)).filterMap (fun e =>
    let q := e.1 % 16384
    match mayIssue s t q, classRead e.2 c with
    | some i, some (k, r) => if qf s t q 0 18 1 = 0 then some ⟨q, i, k, r⟩ else none
    | _, _ => none)

/-- The queues of a tile eligible in class `c`, in queue order (R274). -/
def eligibleQ (s : State) (t c : Nat) : List Cand :=
  (wantsRead s t c).filter (fun x => roomFor s t (eng s t x.q) (nextRead s x.i x.r).2)

/-- The oldest started descriptor of a class among runs. -/
def oldest (rs : List Run) : Option Run :=
  rs.foldl (fun a r => match a with
    | none => some r
    | some x => if r.born < x.born then some r else some x) none

/-- A queue's quantum in a class: the WEIGHT of its oldest started descriptor there × 16 bytes (R275). -/
def queueQuantum (s : State) (t q c : Nat) : Nat :=
  match oldest ((eng s t q).runs.filter (fun r => r.prio == c)) with
  | some r => r.weight * 16
  | none => 0

/-- An instance's quantum in a class. -/
def instQuantum (s : State) (t i c : Nat) : Nat :=
  match oldest (((instQueues s i).flatMap (fun q => (eng s t q).runs)).filter (fun r => r.prio == c)) with
  | some r => r.instWeight * 16
  | none => 0

/-- Rounds until one of the deficits is positive: each round adds each its quantum. -/
def roundsNeeded (l : List (Int × Nat)) : Nat :=
  let need (d : Int) (q : Nat) : Nat := if 0 < d then 0 else if q = 0 then 2 ^ 32 else (-d).toNat / q + 1
  l.foldl (fun m x => Nat.min m (need x.1 x.2)) (2 ^ 32)

/-- Picks the next of a list in turn: the last served while its deficit is positive, else the next one after it in
number order whose deficit is. -/
def pickTurn (last : Nat) (l : List (Nat × Int)) : Option Nat :=
  let pos := l.filter (fun x => decide (0 < x.2))
  match pos.find? (fun x => decide (last ≤ x.1)) with
  | some x => some x.1
  | none => pos.head?.map Prod.fst

/-- Key of an instance's deficit in a class. -/
abbrev idKey (t c i : Nat) : Nat := (t * 4 + c) * 512 + i % 512

/-- Key of a queue's deficit in a class. -/
abbrev qdKey (t c q : Nat) : Nat := (t * 4 + c) * 16384 + q

/-- A queue or instance that is not eligible in a class has deficit 0 there (R276). -/
def dropDeficits (s : State) (t : Nat) : State :=
  let el := (List.range 4).map (fun c => eligibleQ s t c)
  let keepI (k : Nat) : Bool := k / 2048 != t || (el.getD (k / 512 % 4) []).any (fun x => x.i % 512 == k % 512)
  let keepQ (k : Nat) : Bool := k / 65536 != t || (el.getD (k / 16384 % 4) []).any (fun x => x.q == k % 16384)
  { s with dma := { s.dma with instDef := Tbl.keep keepI s.dma.instDef, queueDef := Tbl.keep keepQ s.dma.queueDef } }

/-- Adds `n` quanta to each of the deficits. -/
def addRounds (tb : Tbl Int) (n : Nat) (l : List (Nat × Nat)) : Tbl Int :=
  l.foldl (fun tb x => Tbl.set 0 tb x.1 (Tbl.get 0 tb x.1 + (n * x.2 : Nat))) tb

/-- The choice within a class by deficit round robin among instances, then among the instance's queues (R275 steps 3 and
4), with new rounds where no deficit is positive (R276). -/
def drrPick (s : State) (t c : Nat) (el : List Cand) : Option Cand × State :=
  let is := el.foldl (fun l x => insNat x.i l) []
  let idef (s : State) (i : Nat) : Int := Tbl.get 0 s.dma.instDef (idKey t c i)
  let n := roundsNeeded (is.map (fun i => (idef s i, instQuantum s t i c)))
  let s := { s with dma := { s.dma with
    instDef := addRounds s.dma.instDef n (is.map (fun i => (idKey t c i, instQuantum s t i c))) } }
  match pickTurn (Tbl.get 0 s.dma.instTurn (t * 4 + c)) (is.map (fun i => (i, idef s i))) with
  | none => (none, s)
  | some i =>
    let s := { s with dma := { s.dma with instTurn := Tbl.set 0 s.dma.instTurn (t * 4 + c) i } }
    let qs := (el.filter (fun x => x.i == i)).map Cand.q
    let qdef (s : State) (q : Nat) : Int := Tbl.get 0 s.dma.queueDef (qdKey t c q)
    let m := roundsNeeded (qs.map (fun q => (qdef s q, queueQuantum s t q c)))
    let s := { s with dma := { s.dma with
      queueDef := addRounds s.dma.queueDef m (qs.map (fun q => (qdKey t c q, queueQuantum s t q c))) } }
    match pickTurn (Tbl.get 0 s.dma.queueTurn (idKey t c i)) (qs.map (fun q => (q, qdef s q))) with
    | none => (none, s)
    | some q =>
      let s := { s with dma := { s.dma with queueTurn := Tbl.set 0 s.dma.queueTurn (idKey t c i) q } }
      (el.find? (fun x => x.q == q), s)

/-- Issues a read of a started descriptor (R265 to R267, R275): its blocks, its charge at both levels, and the read itself. -/
def issueRead (s : State) (t c : Nat) (x : Cand) (tag : Nat) : State :=
  let e := eng s t x.q
  let r := x.r
  let n := nextRead s x.i r
  let r' := { r with readTo := n.1 + n.2, reads := r.reads ++ [{ tag := tag, off := n.1, len := n.2 }] }
  let s := setEng s t x.q { e with runs := e.runs.set x.at_ r' }
  let ik := idKey t c x.i
  let qk := qdKey t c x.q
  let s := { s with dma := { s.dma with
    instDef := Tbl.set 0 s.dma.instDef ik (Tbl.get 0 s.dma.instDef ik - (n.2 : Int))
    queueDef := Tbl.set 0 s.dma.queueDef qk (Tbl.get 0 s.dma.queueDef qk - (n.2 : Int)) } }
  sendDmaRead (stageRefresh s t) t x.q x.i tag (bit r.d.ctrl 27) (r.d.src + n.1) n.2 (bit r.d.ctrl 19) (bit r.d.ctrl 18)

/-- Whether some queue of the tile waits for data blocks alone. -/
def stageFull (s : State) (t : Nat) : Bool :=
  (s.dma.eng.filter (fun e => e.1 / 16384 == t)).any (fun e =>
    let q := e.1 % 16384
    match mayIssue s t q with
    | none => false
    | some i => (List.range 4).any (fun c =>
      match classRead e.2 c with
      | some (_, r) => !roomFor s t e.2 (nextRead s i r).2
      | none => false))

/-- One choice of the scheduler (R275). -/
def readIssue (s : State) (t : Nat) : State :=
  let s := dropDeficits s t
  let s := if stageFull s t then evt s t 37 3 else s
  if engineWaits s t 8 1 then s else
  match freeTag s t with
  | none => s
  | some tag =>
    let urg := (Tbl.get [] s.dma.urgent t).filterMap (fun u =>
      ((eligibleQ s t (u % 4)).find? (fun x => x.q == u / 4)).map (fun x => (u, x)))
    match urg with
    | (u, x) :: _ =>
      let left := (Tbl.get [] s.dma.urgent t).filter (fun v => v != u)
      let s := { s with dma := { s.dma with urgent := Tbl.set [] s.dma.urgent t left } }
      let s := evt (cf s t 0x5000218 16 16) t 37 2
      issueRead s t (u % 4) x tag
    | [] =>
      match (List.range 4).find? (fun c => !(eligibleQ s t c).isEmpty) with
      | none => s
      | some c =>
        match drrPick s t c (eligibleQ s t c) with
        | (some x, s) => issueRead s t c x tag
        | (none, s) => s

/-- An epoch boundary (R276, R277): the shares as written come into force, and every deficit becomes its quantum. -/
def drrEpoch (s : State) (t : Nat) : State :=
  let mine := s.dma.qctx.filter (fun e => e.1 / 16 / 16384 == t && e.1 % 16 == 12)
  let sh := mine.foldl (fun tb e => Tbl.set 1 tb (e.1 / 16) e.2) (Tbl.keep (fun k => k / 16384 != t) s.dma.share)
  let is := s.ins.recs.filter (fun e => e.1 / 512 == t && e.2.state != .free)
  let ish := is.foldl (fun tb e => Tbl.set 0 tb e.1 e.2.weight) (Tbl.keep (fun k => k / 512 != t) s.dma.instShare)
  let s := { s with dma := { s.dma with share := sh, instShare := ish
                                        instDef := Tbl.keep (fun k => k / 2048 != t) s.dma.instDef
                                        queueDef := Tbl.keep (fun k => k / 65536 != t) s.dma.queueDef } }
  (List.range 4).foldl (fun s c => (eligibleQ s t c).foldl (fun s x => { s with dma := { s.dma with
    instDef := Tbl.set 0 s.dma.instDef (idKey t c x.i) (instQuantum s t x.i c : Nat)
    queueDef := Tbl.set 0 s.dma.queueDef (qdKey t c x.q) (queueQuantum s t x.q c : Nat) } }) s) s

/-! ## Data and writes -/

/-- The write a queue's write engine can issue next: the place of the descriptor, its write's place and length (R266, R271,
R272). A descriptor's first write follows the last write of the one before it; a settled failure's k bounds H. -/
def nextWrite (s : State) (t q i : Nat) : Option (Nat × Run × Nat × Nat) :=
  let e := eng s t q
  match e.runs.zipIdx.find? (fun x => decide (x.1.wroteTo < x.1.d.dstLen)) with
  | none => none
  | some (r, k) =>
    let limit := match e.stop with
      | some (b, kk, _) => if r.born < b then r.d.dstLen else if r.born = b then kk * r.d.dw else 0
      | none => r.d.dstLen
    let unit := if bit r.d.ctrl 26 then 4096
      else match (instOf s i).fn with
        | some (h, _) => mpsOf s h
        | none => 4096
    let n := Nat.min (Nat.min limit r.d.dstLen - r.wroteTo) (unit - (r.d.dst + r.wroteTo) % unit)
    let last := (r.wroteTo + n - 1) / r.d.dw
    let needTo := (last + 1) * r.d.sw
    let fromB := r.wroteTo / r.d.dw * r.d.sw
    let covers (p : Nat) : Bool := r.reads.any (fun x => x.status == some 0 && decide (x.off ≤ p) && decide (p < x.off + x.len))
    if n = 0 then none
    else if r.reads.all (fun x => x.status == some 0 || needTo ≤ x.off || x.off + x.len ≤ fromB) && covers (needTo - 1) &&
        covers fromB then some (k, r, r.wroteTo, n)
    else none

/-- A source byte of a descriptor, and whether it is poisoned. -/
def srcByte (r : Run) (p : Nat) : Byte × Bool :=
  match r.reads.find? (fun x => decide (x.off ≤ p) && decide (p < x.off + x.len)) with
  | some x => (x.data.getD (p - x.off) 0, x.bad)
  | none => (0, false)

/-- The destination bytes of one element. -/
def destElem (r : Run) (k : Nat) : List Byte :=
  let v := leNat ((List.range r.d.sw).map (fun b => (srcByte r (k * r.d.sw + b)).1))
  leBytes r.d.dw (convert r.d.sw r.d.dw (bit r.d.ctrl 21) (bit r.d.ctrl 20) v)

/-- The bytes of a write, cut from the elements it touches (R272). -/
def writeBytes (r : Run) (off n : Nat) : List Byte :=
  let k0 := off / r.d.dw
  let k1 := (off + n - 1) / r.d.dw
  (((List.range (k1 + 1 - k0)).flatMap (fun j => destElem r (k0 + j))).drop (off - k0 * r.d.dw)).take n

/-- Whether a write holds a byte derived from poisoned data (R270). -/
def writeBad (r : Run) (off n : Nat) : Bool :=
  let k0 := off / r.d.dw
  let k1 := (off + n - 1) / r.d.dw
  r.reads.any (fun x => x.bad && decide (x.off < (k1 + 1) * r.d.sw) && decide (k0 * r.d.sw < x.off + x.len))

/-- Keeps the list of queues whose next write has its data, in the order it became ready (R277). -/
def noteReady (s : State) (t q : Nat) : State :=
  let l := Tbl.get [] s.dma.ready t
  let can := match mayIssue s t q with
    | some i => (nextWrite s t q i).isSome
    | none => false
  if can then
    if l.contains q then s else { s with dma := { s.dma with ready := Tbl.set [] s.dma.ready t (l ++ [q]) } }
  else { s with dma := { s.dma with ready := Tbl.set [] s.dma.ready t (l.filter (fun x => x != q)) } }

/-- One turn of the write engine (R272, R277). -/
def writeIssue (s : State) (t : Nat) : State :=
  let l := Tbl.get [] s.dma.ready t
  if engineWaits s t 9 0 then s else
  match l.find? (fun q => match mayIssue s t q with
      | some i => (nextWrite s t q i).isSome
      | none => false) with
  | none => s
  | some q =>
    match mayIssue s t q with
    | none => s
    | some i =>
      match nextWrite s t q i with
      | none => s
      | some (k, r, off, n) =>
        let s := { s with dma := { s.dma with ready := Tbl.set [] s.dma.ready t (l.filter (fun x => x != q)) } }
        let (s, w) := dmaSendWrite s t q i ⟨q, false, (r.d.dst + off) % 2 ^ 64, r.d.idx, bit r.d.ctrl 26⟩
          (writeBytes r off n) (bit r.d.ctrl 19) (bit r.d.ctrl 18) (writeBad r off n)
        let e := eng s t q
        let r' := { r with wroteTo := off + n, writes := r.writes ++ [{ w := w, off := off, len := n }] }
        noteReady (stageRefresh (setEng s t q { e with runs := e.runs.set k r' }) t) t q

/-- How a read of a queue ends: its status, data and poison go to its place, in a fetch or in a started descriptor, where a failure
starts a settle period. -/
def readEnds (s : State) (t q tag status : Nat) (data : List Byte) (bad : Bool) : State :=
  let e := eng s t q
  let mine (x : DRead) : Bool := x.tag == tag && x.status.isNone
  let upd (x : DRead) : DRead :=
    if mine x then { x with status := some status, data := bytesAt data 0 x.len, bad := bad } else x
  if e.fetch.any mine then fetchEnd (setEng s t q { e with fetch := e.fetch.map upd }) t q
  else if e.runs.any (fun r => r.reads.any mine) then
    let s := setEng s t q { e with runs := e.runs.map (fun r => { r with reads := r.reads.map upd }) }
    let s := if status ≠ 0 then startSettle s t q else s
    noteReady (retire s t q 8) t q
  else s

/-- Takes a tag out of use (R267). -/
def freeReadTag (s : State) (t tag : Nat) : State :=
  let s := { s with dma := { s.dma with tags := Tbl.set none s.dma.tags (t * 4096 + tag) none } }
  sf s t 0x5000208 0 13 (gf s t 0x5000208 0 13 - 1)

/-- A read tag goes into quarantine, by a timeout (R268) or by a reset (R68, R293). -/
def quarantine (s : State) (t tag : Nat) (g : DTag) (byReset : Bool) : State :=
  let g' := { g with quar := true, byReset := byReset }
  let s := { s with dma := { s.dma with tags := Tbl.set none s.dma.tags (t * 4096 + tag) (some g') } }
  cf s t 0x5000208 16 13

/-- A read of a halted or resetting instance ends: its data is discarded (R293, R295). -/
def readDropped (s : State) (t q tag status : Nat) : State :=
  let e := eng s t q
  let mine (x : DRead) : Bool := x.tag == tag && x.status.isNone
  if e.fetch.any mine then stageRefresh (setEng s t q { e with fetch := [], fetchN := 0 }) t
  else setEng s t q { e with runs := e.runs.map (fun r =>
    { r with reads := r.reads.map (fun y => if mine y then { y with status := some status } else y) }) }

/-- A read times out (R268); a tag that a reset has quarantined is free once its completion timeout has elapsed (R68). -/
def readTimeout (s : State) (t tag : Nat) : State :=
  match Tbl.get none s.dma.tags (t * 4096 + tag) with
  | some g =>
    if g.quar then (if g.byReset then endQuarantine s (.dmaTag t tag) else s)
    else
      let s := evt (quarantine s t tag g false) t 37 1
      if qState s t g.queue = 3 then s
      else if (instOf s g.inst).resetting ∨ (instOf s g.inst).halted then readDropped s t g.queue tag 4
      else readEnds s t g.queue tag 4 [] false
  | none => s

/-- The data of an ended read is counted to its instance (R283); that of a descriptor fetch is not the instance's. -/
def countRead (s : State) (t q tag i n : Nat) : State :=
  if (eng s t q).runs.any (fun r => r.reads.any (fun x => x.tag == tag && x.status.isNone)) then
    { s with dma := { s.dma with counts := Tbl.set 0 s.dma.counts (2 * i) ((Tbl.get 0 s.dma.counts (2 * i) + n) % 2 ^ 64) } }
  else s

/-- Read data or an error status arrives for a tag (R267, R268): a quarantined tag is freed and its data discarded, as is
data for a resetting queue or another generation. TIMEOUT from the port that has sent the read ends it as its own timeout does: the
tag stays in quarantine. -/
def readData (s : State) (t : Nat) : State :=
  match Tbl.get [] s.dma.dataIn t with
  | [] => s
  | x :: rest =>
    let s := { s with dma := { s.dma with dataIn := Tbl.set [] s.dma.dataIn t rest } }
    match Tbl.get none s.dma.tags (t * 4096 + x.tag) with
    | none => s
    | some g =>
      if x.status = 4 then (if g.quar then s else readTimeout s t x.tag)
      else
        let s := freeReadTag s t x.tag
        if g.quar then sf s t 0x5000208 16 13 (gf s t 0x5000208 16 13 - 1)
        else if qState s t g.queue = 3 ∨ (instOf s g.inst).gen ≠ g.gen then s
        else if (instOf s g.inst).resetting ∨ (instOf s g.inst).halted then readDropped s t g.queue x.tag x.status
        else
          let s := if x.status = 0 then countRead s t g.queue x.tag g.inst x.data.length else s
          stageRefresh (readEnds s t g.queue x.tag x.status x.data x.ep) t

/-- A write settles (R269): a data write's status goes to its place; a refused completion entry halts the queue with
CPL_WRITE; an error starts a settle period (R278). -/
def settleWrite (s : State) (t w status : Nat) : State :=
  match Tbl.get none s.dma.writes (t * 2 ^ 32 + w) with
  | none => s
  | some x =>
    let q := x.queue
    let s := { s with dma := { s.dma with writes := Tbl.set none s.dma.writes (t * 2 ^ 32 + w) none } }
    let s := if status = 4 then evt s t 37 1 else s
    if qState s t q = 3 then s
    else if x.isEntry then
      if status = 0 then s
      else
        let e := eng s t q
        let h : Halt := ⟨4, true, x.islocal, status, x.desc, x.addr⟩
        startSettle (setEng s t q { e with failed := some h }) t q
    else
      let e := eng s t q
      let here := e.runs.flatMap (fun r => r.writes.filter (fun y => y.w == w))
      let upd (y : DWrite) : DWrite := if y.w = w then { y with status := some status } else y
      let s := setEng s t q { e with runs := e.runs.map (fun r => { r with writes := r.writes.map upd }) }
      if status = 0 then
        match qOwner s t q with
        | some i =>
          let n := (here.map DWrite.len).sum
          let s := { s with dma := { s.dma with
            counts := Tbl.set 0 s.dma.counts (2 * i + 1) ((Tbl.get 0 s.dma.counts (2 * i + 1) + n) % 2 ^ 64) } }
          stageRefresh (retire s t q 8) t
        | none => s
      else startSettle s t q

/-- A settlement report arrives (R269). -/
def writeSettle (s : State) (t : Nat) : State :=
  match Tbl.get [] s.dma.settles t with
  | [] => s
  | (w, st) :: rest =>
    settleWrite { s with dma := { s.dma with settles := Tbl.set [] s.dma.settles t rest } } t w st

/-! ## Halting (R278, R279) -/

/-- A descriptor's failing element and what is latched for it (R279). -/
def failing (r : Run) : Option (Nat × Halt) :=
  let lowest (l : List (Nat × Nat)) : Option (Nat × Nat) := l.foldl (fun a x => match a with
    | none => some x
    | some y => if x.1 < y.1 then some x else some y) none
  let rd := lowest (r.reads.filterMap (fun x => match x.status with
    | some 0 => none
    | some st => some (x.off, st)
    | none => none))
  let wr := lowest (r.writes.filterMap (fun x => match x.status with
    | some 0 => none
    | some st => some (x.off, st)
    | none => none))
  let rk := rd.map (fun x => (x.1 / r.d.sw, (⟨1, false, bit r.d.ctrl 27, x.2, r.d.idx, (r.d.src + x.1) % 2 ^ 64⟩ : Halt)))
  let wk := wr.map (fun x => (x.1 / r.d.dw, (⟨1, true, bit r.d.ctrl 26, x.2, r.d.idx, (r.d.dst + x.1) % 2 ^ 64⟩ : Halt)))
  match rk, wk with
  | some a, some b => if a.1 < b.1 then some a else some b
  | some a, none => some a
  | none, x => x

/-- Latches a halt (R246, R278, R282): the error words, STATE HALTED, the counters, and the queue's event source pending
whatever IRQ says. -/
def latchHalt (s : State) (t q : Nat) (h : Halt) : State :=
  let s := setQw (setQw s t q 9 (word (h.addr % 2 ^ 32))) t q 10 (word (h.addr / 2 ^ 32))
  let s := setQw s t q 11 (word (h.cause * 2 ^ 28 + b2n h.writeSide * 2 ^ 27 + b2n h.islocal * 2 ^ 26 + h.status * 2 ^ 16 +
    h.desc))
  let s := setQf s t q 0 28 4 2
  let s := if h.writeSide then cf s t 0x5000210 16 16 else cf s t 0x5000210 0 16
  let s := wreg s t 0x5000214 (word (h.cause * 2 ^ 28 + b2n h.writeSide * 2 ^ 27 + b2n h.islocal * 2 ^ 26 + q))
  edge (evt s t 37 0) t q

/-- A descriptor that fails its aperture check is H (R256, R280): it leaves its place as the halted one, with no entry reserved. -/
def holdNext (s : State) (t q : Nat) : State :=
  match nextDesc s t q with
  | some d =>
    let s := dropNext s t q
    let r : Run := { d := d, born := s.dma.nextW, prio := 0, weight := 0, instWeight := 0, readTo := 0, wroteTo := 0, entry := false }
    setEng s t q { eng s t q with halted := some (r, 0) }
  | none => s

/-- What a halt leaves of an instance's queue that is being frozen (R296): the descriptors returned unstarted are dropped and HEAD names
the first of them. -/
def dropIfFrozen (s : State) (t q : Nat) : State :=
  match qOwner s t q with
  | some i => if (instOf s i).frozen then dropFetched s t q else s
  | none => s

/-- The end of a settle period, or of what follows it (R278): H is found; descriptors before it complete; its elements
before k are written; then the halt is latched. Aperture and fetch failures halt once every descriptor before theirs has
completed, a refused entry at once. -/
def queueHalt (s : State) (t q : Nat) : State :=
  let e := eng s t q
  if qState s t q ≠ 1 then s
  else if e.settling then
    if e.runs.all Run.ended ∧ e.fetch.all (fun x => x.status.isSome) then
      match e.failed with
      | some h =>
        if h.cause = 4 then
          let s := restore (setEng s t q { e with settling := false, failed := none, runs := [] }) t q e.runs
          stageRefresh (dropIfFrozen (latchHalt s t q h) t q) t
        else
          match e.runs.find? Run.failed with
          | some r => match failing r with
            | some (k, h') =>
              noteReady (setEng s t q { e with settling := false, failed := none, stop := some (r.born, k, h') }) t q
            | none => s
          | none => setEng s t q { e with settling := false }
      | none =>
        match e.runs.find? Run.failed with
        | some r => match failing r with
          | some (k, h') => noteReady (setEng s t q { e with settling := false, stop := some (r.born, k, h') }) t q
          | none => s
        | none => setEng s t q { e with settling := false }
    else s
  else match e.stop with
    | some (b, k, h) =>
      match e.runs with
      | r :: rest =>
        let wrote := h.writeSide || decide (k * r.d.dw ≤ r.wroteTo)
        let settled := r.writes.all (fun x => x.status.isSome)
        if r.born = b ∧ wrote ∧ settled then
          let s := setEng s t q { e with stop := none, runs := [], halted := some (r, k) }
          stageRefresh (dropIfFrozen (latchHalt (restore s t q rest) t q h) t q) t
        else s
      | [] => s
    | none =>
      match e.failed with
      | some h =>
        if e.runs.isEmpty ∧ e.fetch.isEmpty ∧ (h.cause = 2 ∨ e.fetched.isEmpty) then
          let s := setEng s t q { e with failed := none }
          stageRefresh (latchHalt (if h.cause = 2 then holdNext s t q else s) t q h) t
        else s
      | none => s

/-- An abort the switch core reports (R196, R269): a bus error on the side the frame belonged to. -/
def abortReport (s : State) (t : Nat) : State :=
  match Tbl.get [] s.dma.aborts t with
  | [] => s
  | iss :: rest =>
    answer { s with dma := { s.dma with aborts := Tbl.set [] s.dma.aborts t rest } } iss 2 [] false

/-! ## Mailboxes -/

/-- Whether a local port and sublink named in Q_AP_CFG exist (R261). -/
def apExists (s : State) (w : Word) : Bool := localExists s (fld w 27 5) (fld w 26 1)

/-- The queue-context mailbox (R261). -/
abbrev qctxMb : Nat := 0x5000100

/-- DMA_QCTX_MB READ. -/
def qctxRead (s : State) (t : Nat) : State :=
  mbCmd s t qctxMb 1 (fun s =>
    let q := mbIndex s t qctxMb
    mbEnd s t qctxMb (if 16384 ≤ q then badIndex else .ok ((List.range 16).map (fun n => qw s t q n))))

/-- DMA_QCTX_MB WRITE. -/
def qctxWrite (s : State) (t : Nat) : State :=
  mbCmd s t qctxMb 2 (fun s =>
    let q := mbIndex s t qctxMb
    let d (n : Nat) : Word := mbData s t qctxMb n
    if 16384 ≤ q then mbEnd s t qctxMb badIndex
    else if qState s t q ≠ 0 ∨ ¬ apExists s (d 15) then mbEnd s t qctxMb refusedMb
    else
      let s := setQw (setQw s t q 2 (d 2 &&& 0xFFFFFFC0#32)) t q 3 (d 3)
      let s := setQw s t q 4 (clampQCfg (d 4))
      let s := setQw (setQw s t q 5 (d 5 &&& 0xFFFFFFC0#32)) t q 6 (d 6)
      let s := setQw s t q 7 (d 7 &&& 0x8000FFFF#32)
      let s := if fld (d 8) 0 16 < cplSize s t q then setQw s t q 8 (d 8 &&& 0xFFFF#32) else s
      let s := setQw (setQw s t q 12 (d 12 &&& 0x3FFFF#32)) t q 13 (d 13 &&& 0x800FFFFF#32)
      let room := 2 ^ 32 - (d 14).toNat
      let s := setQw (setQw s t q 14 (d 14)) t q 15 (setFld (d 15 &&& 0xFCFFFFFF#32) 0 24 (Nat.min (fld (d 15) 0 24) room))
      let s := setQf (setQf s t q 0 0 16 (fld (d 0) 0 16)) t q 0 16 1 (fld (d 0) 16 1)
      let s := setQf s t q 1 16 16 (fld (d 1) 16 16)
      mbEnd (setQw (setQw (setQw s t q 9 0) t q 10 0) t q 11 0) t qctxMb (.ok []))

/-- DMA_QCTX_MB SET_SHARE (R277). -/
def qctxShare (s : State) (t : Nat) : State :=
  mbCmd s t qctxMb 3 (fun s =>
    let q := mbIndex s t qctxMb
    if 16384 ≤ q then mbEnd s t qctxMb badIndex
    else mbEnd (setQw s t q 12 (mbData s t qctxMb 12 &&& 0x3FFFF#32)) t qctxMb (.ok []))

/-- DMA_QCTX_MB COMMAND. -/
def qctxCmd (s : State) (t : Nat) : State :=
  mbCmd s t qctxMb 4 (fun s =>
    let q := mbIndex s t qctxMb
    if 16384 ≤ q then mbEnd s t qctxMb badIndex
    else mbEnd (queueCmd s t q (fld (mbData s t qctxMb 1) 0 4) false) t qctxMb (.ok []))

/-- A counter mailbox's READ of a 64-bit count (R207, R283). -/
def cntRead (s : State) (t mb top : Nat) (value : State → Nat → Nat) : State :=
  mbCmd s t mb 1 (fun s =>
    let k := mbIndex s t mb
    if top < k then mbEnd s t mb badIndex
    else let v := value s k; mbEnd s t mb (.ok [word (v % 2 ^ 32), word (v / 2 ^ 32)]))

/-! ## Meanings -/

/-- Whether the part has a tile queue. -/
def queueOk (s : State) (t q : Nat) : Bool := decide (t < s.part.tiles) && decide (q < 16384)

/-- QUEUE_RESET_COMPLETE (R248). -/
def execQueueResetComplete (t q : Nat) (s : State) : Res := onUnit (queueOk s t q) (unfenced s t (queueResetEnd s t q))

/-- DESCRIPTOR_FETCH (R250, R251). -/
def execDescriptorFetch (t q : Nat) (s : State) : Res := onUnit (queueOk s t q) (unfenced s t (fetch s t q))

/-- The POLL interval of a local-ring queue has run (R251): the descriptor at HEAD is read again. -/
def poll (s : State) (t q : Nat) : State :=
  let e := eng s t q
  if e.pollWait then fetch (setEng s t q { e with pollWait := false }) t q else s

/-- LOCAL_RING_POLL (R251). -/
def execLocalRingPoll (t q : Nat) (s : State) : Res := onUnit (queueOk s t q) (unfenced s t (poll s t q))

/-- DESCRIPTOR_START (R260, R271, R274). -/
def execDescriptorStart (t q : Nat) (s : State) : Res := onUnit (queueOk s t q) (unfenced s t (startDesc s t q))

/-- COMPLETION_ENTRY_WRITE (R259). -/
def execCompletionEntryWrite (t q : Nat) (s : State) : Res := onUnit (queueOk s t q) (unfenced s t (writeEntry s t q))

/-- READ_ISSUE (R275). -/
def execReadIssue (t : Nat) (s : State) : Res := onTile s t (unfenced s t (readIssue s t))

/-- DMA_URGENT (R275, R281): a queue with a read to issue in class `prio` becomes urgent, though a tag or blocks be wanting. -/
def execDmaUrgent (t q : Nat) (prio : BitVec 2) (s : State) : Res :=
  onUnit (queueOk s t q) <|
    let u := q * 4 + prio.toNat
    let l := Tbl.get [] s.dma.urgent t
    if l.contains u ∨ (tileSt s t).fenced ∨ ¬ (wantsRead s t prio.toNat).any (fun x => x.q == q) then s
    else { s with dma := { s.dma with urgent := Tbl.set [] s.dma.urgent t (l ++ [u]) } }

/-- DRR_EPOCH (R276). -/
def execDrrEpoch (t : Nat) (s : State) : Res := onTile s t (unfenced s t (drrEpoch s t))

/-- DMA_READ_DATA (R265, R267, R268). -/
def execDmaReadData (t : Nat) (s : State) : Res := onTile s t (unfenced s t (readData s t))

/-- DMA_READ_TIMEOUT (R268). -/
def execDmaReadTimeout (t tag : Nat) (s : State) : Res :=
  onUnit (decide (t < s.part.tiles ∧ tag < 4096)) (unfenced s t (readTimeout s t tag))

/-- WRITE_ISSUE (R272, R277). -/
def execWriteIssue (t : Nat) (s : State) : Res := onTile s t (unfenced s t (writeIssue s t))

/-- WRITE_SETTLE (R269). -/
def execWriteSettle (t : Nat) (s : State) : Res := onTile s t (unfenced s t (writeSettle s t))

/-- WRITE_SETTLE_TIMEOUT (R269). -/
def execWriteSettleTimeout (t w : Nat) (s : State) : Res := onTile s t (unfenced s t (settleWrite s t w 4))

/-- DMA_ABORT_REPORT (R196). -/
def execDmaAbortReport (t : Nat) (s : State) : Res := onTile s t (unfenced s t (abortReport s t))

/-- QUEUE_HALT (R278). -/
def execQueueHalt (t q : Nat) (s : State) : Res := onUnit (queueOk s t q) (unfenced s t (queueHalt s t q))

/-- The byte-count mailbox's READ (R283). -/
def dmaCntRead (s : State) (t : Nat) : State :=
  cntRead s t 0x5000300 1023 (fun s k => Tbl.get 0 s.dma.counts (1024 * t + k))

/-- The byte-count mailbox's WRITE: REFUSED (R283). -/
def dmaCntWrite (s : State) (t : Nat) : State :=
  mbCmd s t 0x5000300 2 (fun s =>
    mbEnd s t 0x5000300 (if 1023 < mbIndex s t 0x5000300 then badIndex else refusedMb))

end Sys2Proof.Machine
end

