-- ==== Sys2Proof/Machine/InsReset.lean ====
section
/-! DEFINITION. Instance reset (R293, R294) and what ends with it: locks (R113), fault deadlines (R335), vectors (R286). -/

namespace Sys2Proof.Machine

open Sys2Proof

/-! ## Locks -/

/-- A function's Unlock (R113, R238) follows its earlier requests from its host port to the home tile of its instance (R225), or where no
instance has it ends what locks it holds at once. -/
def unlock (s : State) (h f : Nat) : State :=
  let held := s.lode.locks.findSome? (fun e => e.2.holder.bind (fun x => if x.2 = fnKey h f then some x.1 else none))
  match (if held.isSome then held else boundInst s h f) with
  | some i =>
    let (k, s) := newSerial s
    enter s { serial := k, pkt := { ty := .lockEnd, cls := 3, inst := i, gen := (instOf s i).gen }, srcTile := linkTile h,
              srcPort := 0, srcSub := h % 4, dstTile := homeTile i, dstPort := 12, cargo := .unlock h f }
  | none => endLocks s h f

/-! ## Fault deadlines of an instance -/

/-- FLT_B_BTAB's entries in use and FLT_B_TIMER's INSTANCE entries follow the deadlines. -/
def btabRefresh (s : State) (t b : Nat) : State :=
  let n := (s.flt.deadlines.filter (fun d => d.tile == t && d.bank == b && d.inst.isSome)).length
  if gf s t (fltB b 0x18) 0 6 = n then s else sf s t (fltB b 0x18) 0 6 n

/-- Removes the class B entries of an instance from every bank's table (R335). -/
def dropInstDeadlines (s : State) (i : Nat) : State :=
  let mine (d : Deadline) : Bool := match d.inst with
    | some (j, _) => j == i
    | none => false
  let gone := s.flt.deadlines.filter mine
  let s := { s with flt := { s.flt with deadlines := s.flt.deadlines.filter (fun d => !mine d) } }
  gone.foldl (fun s d => btabRefresh s d.tile d.bank) s

/-! ## Resources -/

/-- The vectors of an instance as CREATE and step 5 leave them: Mask bits set, address and data zero, PBA clear, no message
left to send (R286, R293). -/
def clearVectors (s : State) (i : Nat) : State :=
  let r := instOf s i
  let t := homeTile i
  let mine (k : Nat) : Bool := k / 65536 == t && decide (r.vBase ≤ k % 65536) && decide (k % 65536 < r.vBase + r.vCount)
  let other (h : Hold) : Bool := match h.item with
    | .vector j _ => j != i
    | _ => true
  { s with
    host := { s.host with
      vecs := Tbl.keep (fun k => !mine k) s.host.vecs
      pba := Tbl.keep (fun k => k / 2048 != i) s.host.pba }
    brg := { s.brg with holds := s.brg.holds.filter other }
    evc := { s.evc with
      vecDue := s.evc.vecDue.filter (fun e => e.1 != i)
      vecRetry := s.evc.vecRetry.filter (fun e => e.1 != i) } }

/-- Discards the prefetch streams of an instance (R217, R293, R296). -/
def dropStreams (s : State) (i : Nat) : State :=
  (s.wtt.streams.filter (fun e => match e.2 with
    | some x => x.inst == i
    | none => false)).foldl (fun s e => dropStream s (e.1 / 256) (e.1 % 256)) s

/-! ## The reset -/

/-- Whether a tag entry anywhere in the package records the instance with a generation (R293 step 2). -/
def tagsRecord (s : State) (i g : Nat) : Bool :=
  s.host.tags.any (fun e => match e.2 with
    | some x => !x.glob && x.inst == i && x.gen == g
    | none => false) ||
  s.lode.tags.any (fun e => match e.2 with
    | some x => x.inst == i && x.gen == g
    | none => false) ||
  s.dma.tags.any (fun e => match e.2 with
    | some x => x.inst == i && x.gen == g
    | none => false)

/-- The reset under way on an instance. -/
def resetRun (s : State) (i : Nat) : Option ResetRun := Tbl.get none s.ins.resets i

/-- Replaces the reset under way. -/
def setResetRun (s : State) (i : Nat) (x : Option ResetRun) : State :=
  { s with ins := { s.ins with resets := Tbl.set none s.ins.resets i x } }

/-- Held reads of an instance are answered with STALE_GEN (R181). -/
def staleHeld (s : State) (i : Nat) : State :=
  (s.lode.held.filter (fun e => match e.2 with
    | some h => h.pkt.inst == i && !h.pkt.glob
    | none => false)).foldl (fun s e =>
      match e.2 with
      | some h =>
        let t := e.1 / 64 / 8
        let n := e.1 / 64 % 8
        if h.rsp.isSome then s else rspOwn s t n h.pkt h.epoch 7 [] (some (e.1 % 64))
      | none => s) s

/-- Step 3 (R293): the generation, held reads, read tags, host reads. -/
def resetGen (s : State) (i : Nat) (flr : Bool) : State :=
  let r := instOf s i
  let s := setInst s i { r with gen := (r.gen + 1) % 256 }
  let s := staleHeld s i
  let tags := s.dma.tags.filter (fun e => match e.2 with
    | some g => g.inst == i && !g.quar
    | none => false)
  let s := tags.foldl (fun s e => match e.2 with
    | some g => quarantine s (e.1 / 4096) (e.1 % 4096) g true
    | none => s) s
  let inb := s.host.inb.filter (fun e => match e.2 with
    | some b => b.inst == i
    | none => false)
  inb.foldl (fun s e =>
    if flr then { uncross s (.inbound (e.1 / 1024) (e.1 % 1024)) with
                  host := { s.host with inb := Tbl.set none s.host.inb e.1 none } }
    else completeInb s (e.1 / 1024) (e.1 % 1024) 2 [] false) s

/-- Steps 2 and 3: the stall check, then the new generation (R293). -/
def resetStall (s : State) (i : Nat) (x : ResetRun) (first : Bool) : State :=
  if tagsRecord s i (((instOf s i).gen + 1) % 256) then
    let s := setResetRun s i (some { x with step := 2 })
    if first then insEvent s i 7 else s
  else resetGen (setResetRun s i (some { x with step := 4 })) i x.flr

/-- An instance reset's trigger, steps 1 to 3 (R293): nothing for a FREE instance; absorbed while one runs, while the home
tile is fenced or under a tile reset, but for the tile reset's own step 5. -/
def startReset (s : State) (i : Nat) (x : ResetRun) : State :=
  let r := instOf s i
  let t := homeTile i
  if r.state = .free then s
  else if (tileSt s t).fenced ∨ (mode s t ≤ 1 ∧ ¬ x.byTile) then s
  else if r.resetting then
    match resetRun s i with
    | some y => setResetRun s i (some { y with mb := if y.mb.isSome then y.mb else x.mb
                                               removing := y.removing || x.removing, byTile := y.byTile || x.byTile
                                               flr := y.flr || x.flr })
    | none => s
  else
    let s := setInst s i { r with resetting := true }
    let s := (instQueues s i).foldl (fun s q =>
      let e := eng s t q
      let s := setEng s t q { e with fetched := [], fetch := [], fetchN := 0, store := [], skipped := none, failed := none,
                                        settling := false, stop := none }
      if qf s t q 0 17 1 = 1 then setQf (setQf s t q 0 24 4 4) t q 0 17 1 0 else s) s
    let s := dropStreams (stageRefresh s t) i
    let s := match r.fn with
      | some (h, f) => endLocks s h f
      | none => s
    resetStall (dropInstDeadlines s i) i x true

/-- Makes an instance FREE; the number keeps its last generation (R287, R284). -/
def freeInst (s : State) (i : Nat) : State :=
  let r := instOf s i
  let s := notice (logEnd s i) i 3
  evcRefresh (setInst s i { gen := r.gen }) (homeTile i)

/-- Whether a write of the instance issued by a queue or resolved before is still on its way (R293 step 4). -/
def writesOnWay (s : State) (i : Nat) : Bool :=
  let t := homeTile i
  s.brg.posted.any (fun r => r.inst == i && r.resolved) ||
  (instQueues s i).any (fun q => s.dma.writes.any (fun e => e.1 / 2 ^ 32 == t &&
    (match e.2 with
     | some w => w.queue == q
     | none => false)))

/-- Steps 5 and 6 (R293): queues, vectors, EVC state, NOTICE RESET, and the end of the command that asked for it. -/
def finishReset (s : State) (i : Nat) (x : ResetRun) : State :=
  let t := homeTile i
  let s := (instQueues s i).foldl (fun s q => queueClear s t q true) s
  let s := evcInstInit (clearVectors (stageRefresh s t) i) i
  let r := instOf s i
  let s := setInst s i { r with halted := false, halt := 0, resetting := false }
  let s := setResetRun (notice s i 0) i none
  let s := insEvent (instEvent s i 0) i 1
  let s := if x.removing then freeInst s i else s
  match x.mb with
  | some mb => mbEnd s t mb (.ok [])
  | none => s

/-- The end of the drain (R293 step 4). -/
def drainEnd (s : State) (i : Nat) : State :=
  match resetRun s i with
  | some x => if x.step = 4 ∧ ¬ writesOnWay s i then finishReset s i x else s
  | none => s

/-- INSTANCE_RESET (R293). -/
def execInstanceReset (i : Nat) (s : State) : Res := onUnit (instOk s i) (startReset s i ⟨0, false, none, false, false⟩)

/-- INSTANCE_RESET_STALL_END (R293 step 2). -/
def execInstanceResetStallEnd (i : Nat) (s : State) : Res :=
  onUnit (instOk s i) <|
    match resetRun s i with
    | some x => if x.step = 2 then resetStall s i x false else s
    | none => s

/-- INSTANCE_RESET_DRAIN_END (R293 steps 4 to 6). -/
def execInstanceResetDrainEnd (i : Nat) (s : State) : Res := onUnit (instOk s i) (drainEnd s i)

end Sys2Proof.Machine
end

