-- ==== Sys2Proof/Machine/HostDown.lean ====
section
/-! DEFINITION. A host link that goes down or is reset (R104, R113, R114), tile mode changes (R57, R58), and the class
reactions of faults: halts (R295), deadlines (R334, R335), fencing (R337), the fatal latch (R339), recording (R331). -/

namespace Sys2Proof.Machine

open Sys2Proof

/-! ## Host links -/

/-- Tag entries in use in a tile (R117). -/
def tagsRefresh (s : State) (t : Nat) : State :=
  sf s t 0x1000400 0 13 (s.host.tags.filter (fun e => e.1 / 4096 == t && e.2.isSome)).length

/-- A link's reset releases its tag entries; each request is answered with LINK_LOST (R104). -/
def releaseTags (s : State) (h : Nat) : State :=
  let mine (e : Nat × Option TagEnt) : Bool := match e.2 with
    | some x => x.link == h
    | none => false
  let gone := s.host.tags.filter mine
  let s := { s with host := { s.host with tags := s.host.tags.filter (fun e => !mine e) } }
  let s := gone.foldl (fun s e => match e.2 with
    | some x => if x.expired then endQuarantine s x.issuer else answer s x.issuer 3 [] false
    | none => s) s
  tagsRefresh s (linkTile h)

/-- The inbound entries of a link end with it: a response that comes later finds no entry (R115). -/
def releaseInb (s : State) (h : Nat) : State :=
  let mine (e : Nat × Option Inb) : Bool := match e.2 with
    | some x => x.link == h
    | none => false
  let gone := s.host.inb.filter mine
  let s := { s with host := { s.host with inb := s.host.inb.filter (fun e => !mine e) } }
  gone.foldl (fun s e => uncross s (.inbound (e.1 / 1024) (e.1 % 1024))) s

/-- Every lock of a link's functions ends as if Unlock had arrived, and locked reads of theirs that still wait are
dropped (R113). -/
def endLinkLocks (s : State) (h : Nat) : State :=
  s.lode.locks.foldl (fun s e =>
    let t := e.1 / 8
    let n := e.1 % 8
    let s := cancelLocked s t n (fun f => f.locked.any (fun k => k / 65536 == h))
    let l := lockSt s t n
    let mine := l.ended ++ (l.holder.toList.map Prod.snd)
    ((mine.filter (fun x => x / 65536 == h)).eraseDups).foldl (fun s x => unlock s h (x % 65536)) s) s

/-- Frames that wait at the host port for a link, or are queued at its output, are discarded and counted DOWN (R204). -/
def flushHost (s : State) (h : Nat) : State :=
  let t := linkTile h
  let wait := Tbl.get [] s.host.tagWait t
  let out := Tbl.get [] s.host.outq h
  let mine (f : Frame) : Bool := f.dstSub == h % 4
  let s := { s with host := { s.host with
    tagWait := Tbl.set [] s.host.tagWait t (wait.filter (fun f => !mine f))
    outq := Tbl.set [] s.host.outq h [] } }
  let s := (wait.filter mine ++ out).foldl (fun s f =>
    let s := if f.pkt.isRsp then cf s t (hpt (h % 4) 0x18) 16 16 else s
    endFrame (discDown s t 0) f 3) s
  flushOutput s t (h % 4) 3 (fun s => discDown s t 0)

/-- Everything a link's reset or loss ends but the instance resets (R104, R112, R113, R114; every MANAGER target of the package is idle
again when it is the manager function's, R319): `ev` is its bit of
HPT_LINK_EVENTS, `ltssm` the state it is left in. -/
def hostLinkOff (s : State) (h ev ltssm : Nat) : State :=
  let t := linkTile h
  let k := h % 4
  let perst := gf s t (hpt k 0) 29 1
  let s := wreg s t (hpt k 0) (word (perst * 2 ^ 29 + ltssm * 2 ^ 24))
  let s := evt (cf s t (hpt k 0xC) 0 16) t k ev
  let mgr := managerLink s == some h
  let s := { s with host := { s.host with
    cfg := Tbl.keep (fun x => x / 1024 / 65536 != h) s.host.cfg
    bus := Tbl.del s.host.bus h
    upTo := Tbl.del s.host.upTo h
    drs := Tbl.del s.host.drs h
    secure := Tbl.keep (fun x => !ofLink h x) s.host.secure
    insecure := Tbl.keep (fun x => !ofLink h x) s.host.insecure
    sessions := Tbl.del s.host.sessions h
    doe := Tbl.del s.host.doe h
    mgrVecs := if mgr then [] else s.host.mgrVecs
    mgrPba := if mgr then [] else s.host.mgrPba } }
  let s := flushHost (releaseInb (releaseTags (endLinkLocks s h) h) h) h
  if mgr then (List.range s.part.tiles).foldl (fun s u => idleTargets s u (fun x => tgtKind s u x == 4)) s else s

/-- The instances bound to a function of a link. -/
def boundTo (s : State) (h : Nat) : List Nat :=
  (s.ins.recs.filter (fun e => e.2.state == .bound && (match e.2.fn with
    | some (l, _) => l == h
    | none => false))).map Prod.fst

/-- A reset trigger of a link event or a fault: no command waits for it. -/
abbrev plainReset (flr : Bool) : ResetRun := { step := 0, flr := flr }

/-- A host-link reset with the instance resets it brings (R114). -/
def hostLinkReset (s : State) (h ev ltssm : Nat) : State :=
  let bound := boundTo s h
  bound.foldl (fun s i => startReset s i (plainReset false)) (hostLinkOff s h ev ltssm)

/-- The host links of a tile's host port (R10). -/
def tileLinks (s : State) (t : Nat) : List Nat :=
  ((List.range 4).map (4 * t + ·)).filter (linkPresent s)

/-! ## Modes -/

/-- The end of a mode command by another change of its tile (R55, R70). -/
def preemptMode (s : State) (t : Nat) : State :=
  let x := tileSt s t
  if x.modeCmd.isSome then
    sf (sf (setTile s t { x with modeCmd := none }) t 0x10C 16 8 3) t 0x10C 0 1 0
  else s

/-- A test ends without an outcome when its tile leaves TEST (R64). -/
def leaveTest (s : State) (t m : Nat) : State :=
  let x := tileSt s t
  if x.test.isSome ∧ m ≠ 5 then sf (setTile s t { x with test := none }) t 0x124 0 1 0 else s

/-- GLB_TILE_MODE after a change: COUNT one higher, CAUSE, PREVIOUS, MODE (R54). -/
def modeWord (w : Word) (m cause : Nat) : Word :=
  setFld (setFld (setFld (setFld w 16 8 (fld w 16 8 + 1)) 8 4 cause) 4 4 (fld w 0 4)) 0 4 m

/-- The rows of the mode table (R57) but for the loss of main power: from a mode to a mode, with its CAUSE. A package reset's row
and start-up's are one, CAUSE 0. -/
def modeRow (m m' cause : Nat) : Bool :=
  match m', cause with
  | 1, 0 => true
  | 1, 7 => m != 0
  | 2, 1 => m == 1
  | 2, 7 => m == 1
  | 3, 2 => m == 2
  | 4, 2 => m == 2 || m == 3
  | 4, 3 => decide (2 ≤ m)
  | 4, 4 => m != 0
  | 5, 2 => m == 2
  | 5, 5 => m == 1
  | 5, 6 => m != 0
  | _, _ => false

/-- A change of a tile's mode (R54, R57, R58), with the alarm of R391; a change that is no row of the table does not occur, nor does any
while boundary scan holds the package (R65). TRANSITIONS counts the entry into FIDDLEHEAD at the rise of RESET_N too (DESIGN CHOICE, log
entry 65). -/
def setMode (s : State) (t m cause : Nat) : State :=
  let old := tileMode s t
  if modeRow old m cause = false ∨ (s.core.scanned ∧ cause ≠ 6) then s else
  let s := leaveTest (preemptMode s t) t m
  let s := { s with modes := Tbl.ins s.modes t (modeWord (Tbl.get 0 s.modes t) m cause) }
  let s := if m ≤ 1 then evcClear s t else if old ≤ 1 then
      evcRefresh (sf s t 0x7045000 31 1 (b2n (prioMode s t))) t
    else evcModeChange s t
  alarm s t 116

/-! ## Dump requests (R342) -/

/-- A request of a dump: it waits for tile 0's Headframe; with one waiting already it is dropped (R342). A class D
request abandons a class C dump being written, which stays INCOMPLETE. -/
def dumpRequest (s : State) (r : DumpReq) : State :=
  let preempt := match s.flt.dump with
    | some d => r.cls == 3 && d.req.cls == 2
    | none => false
  let s := if preempt then
      match s.flt.dump with
      | some d => sf { s with flt := { s.flt with dump := none } } 0 0x8001000 (4 * d.slot) 4 2
      | none => s
    else s
  if preempt then { s with flt := { s.flt with dumpReq := some r } }
  else if s.flt.dumpReq.isNone ∧ s.flt.dump.isNone then { s with flt := { s.flt with dumpReq := some r } }
  else if s.flt.dumpWait.isNone then
    sf { s with flt := { s.flt with dumpWait := some r } } 0 0x8001000 30 1 1
  else alarm (sf s 0 0x8001000 29 1 1) 0 115

/-- The request a bank's action makes, with the active image's sequence (R343). -/
def dumpOf (s : State) (cls t b c : Nat) : DumpReq :=
  { cls := cls, tile := t, block := b, cause := c, sec := s.cal.sec, sub := s.cal.sub, imageSeq := rreg s 0 0xA00000C }

/-! ## Fencing and the fatal latch -/

/-- Declares a slot's link down and holds it in DISABLED; a slot with no link is only held. -/
def holdLink (s : State) (t n : Nat) : State :=
  if linkAlive s t n then linkDown s t n true else setLinkState s t n 0

/-- The tile link of a slot is lost: cause TILE_LINK_DOWN, recorded without a reaction (R332). -/
def tileLinkLost (s : State) (t n : Nat) : State :=
  let was := linkAlive s t n
  let s := holdLink s t n
  if was then recordBase s t 2 5 (faultClass s t 2 5) none 4 n else s

/-- Discards the frames of a tile's queues that a test picks by output and record, each answered or settled as R20 says, and counted at the
port of its output where `counted`. -/
def flushWhere (s : State) (t : Nat) (counted : Bool) (p : Nat → Stored → Bool) : State :=
  (s.swc.queues.filter (fun e => e.1 / 48 / 19 == t)).foldl (fun s e =>
    let o := e.1 / 48 % 19
    e.2.foldl (fun s ptr => match storedOf s t ptr.1 with
      | some x =>
        if p o x then
          discardPtr (if counted then offer (discDown s t (outPort o)) t 4 (outPort o) x.f else s) t o (e.1 / 4 % 12) (e.1 % 4) ptr 2
        else s
      | none => s) s) s

/-- What a tile's window translation, management port and DMA engines hold of frames is discarded as R20 says. -/
def dropHeld (s : State) (t : Nat) : State :=
  let res := (Tbl.get [] s.host.resolve t).map Prod.fst
  let kept := res.filterMap (fun id => (storedOf s t id).map Stored.f)
  let other := Tbl.get [] s.swc.mgmt t ++ Tbl.get [] s.swc.into t
  let s := { s with
    host := { s.host with resolve := Tbl.del s.host.resolve t }
    swc := { s.swc with
      mgmt := Tbl.del s.swc.mgmt t
      into := Tbl.del s.swc.into t } }
  let s := kept.foldl (fun s f => purge s t (fun x => x.f.serial == f.serial)) s
  (kept ++ other).foldl (fun s f => endFrame s f 2) s

/-- A fence closes the tile's ports (R20, R204, R337): what is queued for ports 8 to 11 is answered or discarded, and so is every
second-hop frame where transit stops. -/
def stopPorts (s : State) (t : Nat) (stop : Bool) : State :=
  dropHeld (flushWhere s t true (fun o x => decide (15 ≤ o) || (stop && decide (12 ≤ o) && x.f.secondHop t x.inPort))) t

/-- A tile reset releases what the frame buffer holds for the tile's own ports (R67 step 4): frames queued for them, frames that came by
them, and frames at them; transit stays. -/
def clearOwn (s : State) (t : Nat) : State :=
  let own (p : Nat) : Bool := decide (p < 5) || decide (8 ≤ p)
  let s := flushWhere s t true (fun o _ => decide (o < 12) || decide (15 ≤ o))
  let s := dropHeld (flushWhere s t false (fun _ x => own x.inPort)) t
  let here (e : Nat × List Frame) : Bool := e.1 / 64 == t && own (e.1 / 4 % 16)
  let waits (e : Nat × List Frame) : Bool := e.1 / 12 == t && own (e.1 % 12)
  let gone := (s.swc.ingress.filter here).flatMap Prod.snd ++ (s.swc.waiting.filter waits).flatMap Prod.snd
  let s := { s with swc := { s.swc with
    ingress := s.swc.ingress.filter (fun e => !here e)
    waiting := s.swc.waiting.filter (fun e => !waits e) } }
  gone.foldl (fun s f => endFrame s f 2) s

/-- Every deadline of a tile ends (R334, R337). -/
def dropDeadlines (s : State) (t : Nat) : State :=
  let s := { s with flt := { s.flt with deadlines := s.flt.deadlines.filter (fun d => d.tile != t) } }
  (List.range 14).foldl (fun s b => btabRefresh s t b) s

/-- A tile becomes fenced: mode RECOVERY, ports closed, deadlines ended, links held (R337 steps 1 to 4). -/
def fenceTile (s : State) (t cause : Nat) (stop : Bool) : State :=
  let s := setMode s t 4 cause
  let s := setTile s t { tileSt s t with fenced := true, transitStop := stop, resetting := false }
  let s := dropDeadlines s t
  let links := tileLinks s t
  let s := (List.range 8).foldl (fun s n => holdLink s t n) s
  stopPorts (links.foldl (fun s h => hostLinkReset s h 3 0) s) t stop

/-- An expiry of a class C deadline (R337). -/
def fenceBy (s : State) (t b c : Nat) : State :=
  let s := cf s t (fltB b 0x14) 0 16
  let s := recordFaultRec s t b c 2 none 0 2 0 true
  if (tileSt s t).fenced ∨ mode s t ≤ 1 ∨ s.core.scanned then s
  else dumpRequest (fenceTile s t 3 (b == 2 || b == 3)) (dumpOf s 2 t b c)

/-- The fatal latch (R339): every tile fenced with CAUSE 4 before any link is declared down, no instance reset. While boundary scan holds
the package only the latch is set and the dump requested, for no tile leaves TEST (R65). -/
def fatalLatch (s : State) (t b c : Nat) : State :=
  let tiles := (List.range s.part.tiles).filter (fun u => mode s u != 0)
  let had := gf s t 0x118 0 1 = 1
  let held := s.core.scanned
  let s := tiles.foldl (fun s u =>
    let s := if had then s else sf s u 0x118 8 4 t
    let s := sf s u 0x118 0 1 1
    if held then s
    else
      let s := setMode s u 4 4
      dropDeadlines (setTile s u { tileSt s u with fenced := true, transitStop := true, resetting := false }) u) s
  let s := if held then s else tiles.foldl (fun s u =>
    let s := (List.range 8).foldl (fun s n => holdLink s u n) s
    let s := [8, 9, 10].foldl (fun s n => tileLinkLost s u n) s
    stopPorts ((tileLinks s u).foldl (fun s h => hostLinkOff s h 3 0) s) u true) s
  if had then s else dumpRequest s (dumpOf s 3 t b c)

/-! ## Recording with its reaction -/

/-- Halts an instance (R295). -/
def haltInst (s : State) (i b c : Nat) : State :=
  let r := instOf s i
  if r.halted then s else
  let s := setInst s i { r with halted := true, halt := word (b * 256 + c) }
  let s := insEvent (instEvent s i 4) i 4
  let s := cf s (homeTile i) 0x6000014 0 16
  match r.state, r.fn with
  | .bound, some (h, f) => aerLog s h f aerInternal false
  | _, _ => s

/-- Starts the class C deadline of a cause, if none runs (R334). -/
def startDeadlineC (s : State) (t b c : Nat) : State :=
  if s.flt.deadlines.any (fun d => d.tile == t && d.bank == b && d.cause == c && d.inst.isNone) then s
  else { s with flt := { s.flt with
    deadlines := s.flt.deadlines ++ [⟨t, b, c, none, escalation s t b c * 512, false⟩] } }

/-- Starts a class B deadline in the bank's instance table; with the table full the instance is reset at once
(R335). -/
def startDeadlineB (s : State) (t b c i : Nat) : State :=
  let here := s.flt.deadlines.filter (fun d => d.tile == t && d.bank == b && d.inst.isSome)
  if here.any (fun d => match d.inst with
      | some (j, _) => j == i
      | none => false) then s
  else if 32 ≤ here.length then
    startReset (cf s t (fltB b 0x18) 16 16) i (plainReset false)
  else
    btabRefresh { s with flt := { s.flt with
      deadlines := s.flt.deadlines ++ [⟨t, b, c, some (i, (instOf s i).gen), escalation s t b c * 512, false⟩] } } t b

/-- The class a fault acts as (R333): class B of no instance or of a FREE one acts as A. -/
def actsAs (s : State) (t b c : Nat) (inst : Option Nat) : Nat :=
  let cls := faultClass s t b c
  if cls = 1 then
    match inst with
    | some i => if (instOf s i).state = .free then 0 else 1
    | none => 0
  else cls

/-- A block finds one of its causes (R331, R333, R336). -/
def recordFault (s : State) (t b c : Nat) (inst : Option Nat) (detail : Nat) : State :=
  let cls := actsAs s t b c inst
  let only := recordsOnly s t
  let s := recordBase s t b c cls inst (if cls = 3 then 3 else if only then 4 else 0) detail
  match cls with
  | 3 => fatalLatch s t b c
  | 2 => if only then s else startDeadlineC s t b c
  | 1 => if only then s else
    match inst with
    | some i => startDeadlineB (haltInst s i b c) t b c i
    | none => s
  | _ => s

/-- A declaration of link-down with the fault a tile link's loss raises (R332). -/
def declareDown (s : State) (t n : Nat) (held : Bool) : State :=
  let s := linkDown s t n held
  if 8 ≤ n then recordFault s t 2 5 none n else s

end Sys2Proof.Machine
end

