-- ==== Sys2Proof/Machine/View.lean ====
section
/-! DEFINITION. What a read of a register shows, apart from its side effects: the stored word, or the view of other state
that the register is (R52, R54, R78, R284, R309, R313, R348, R386, R392). -/

namespace Sys2Proof.Machine

open Sys2Proof

/-- The mailbox whose data word lies at an offset, with the word's number. -/
def mbDataAt (off : Nat) : Option (Nat × Nat) :=
  (List.find? (fun (m : Nat × Nat) => m.1 + 0x10 ≤ off && off < m.1 + 0x10 + 4 * m.2) mailboxes).map
    (fun m => (m.1, (off - m.1 - 0x10) / 4))

/-- The mailbox an offset is the MB_CTRL or MB_INDEX register of. -/
def mbAt (off : Nat) : Option Nat :=
  (List.find? (fun (m : Nat × Nat) => m.1 == off || m.1 + 4 == off) mailboxes).map Prod.fst

/-- The data registers of the indirect pairs (R86): those of STR, FLT and IND. -/
def isIxData (off : Nat) : Bool :=
  off == 0xA000024 || off == 0xA00002C || off == 0x800100C ||
  (0xE000000 ≤ off && off < 0xE000060 && off % 16 == 4)

/-- Where a ring begins in the trace memory (R386). -/
def ringBase (b : Nat) : Nat := ((List.range b).map (fun j => ringSize j * 32)).sum

/-- Bytes of a ring's record (R387, R389). -/
def recSize (b : Nat) : Nat := if b = 13 then 64 else 32

/-- A byte of the trace memory. -/
def traceByte (s : State) (t o : Nat) : Byte :=
  match (List.range 14).find? (fun b => ringBase b ≤ o && o < ringBase b + ringSize b * recSize b) with
  | some b =>
    let k := (o - ringBase b) / recSize b
    (Tbl.get [] s.trc.recs ((t * 16 + b) * 8192 + k)).getD ((o - ringBase b) % recSize b) 0
  | none => 0

/-- Four bytes as a word. -/
def wordOf (l : List Byte) : Word := word (leAt l 0 4)

/-- The eight words of an instance record (R284). -/
def instWords (s : State) (i : Nat) : List Word :=
  let r := instOf s i
  let st := match r.state with
    | .free => 0
    | .unbound => 1
    | .bound => 2
  let (l, f) := r.fn.getD (0, 0)
  [ word (st * 2 ^ 28 + b2n r.frozen * 2 ^ 27 + b2n r.halted * 2 ^ 26 + b2n r.resetting * 2 ^ 25 +
      b2n r.released * 2 ^ 24 + r.gen * 2 ^ 16 + r.pool * 2 ^ 12 + i % 4096),
    word (r.hseq * 2 ^ 16 + r.weight),
    word (b2n r.handover * 2 ^ 31 + r.toLink * 2 ^ 26 + l * 2 ^ 16 + f),
    word (r.qCount * 2 ^ 16 + r.qBase),
    word (r.etCount * 2 ^ 24 + r.wCount * 2 ^ 16 + r.wBase),
    word (r.etBase * 2 ^ 22 + r.wttBase),
    word r.wttCount,
    word (r.vCount * 2 ^ 16 + r.vBase) ]

/-- INS_COUNT (R309). -/
def insCount (s : State) (t : Nat) : Word :=
  let here := s.ins.recs.filter (fun e => e.1 / 512 == t)
  word ((here.filter (fun e => e.2.state != .free)).length * 2 ^ 16 + (here.filter (fun e => e.2.state == .bound)).length)

/-- The earliest deadline of a list. -/
def earliest : List Deadline → Option Deadline
  | [] => none
  | d :: r =>
    match earliest r with
    | none => some d
    | some e => if d.left ≤ e.left then some d else some e

/-- FLT_B_TIMER (R348). -/
def fltTimer (s : State) (t b : Nat) : Word :=
  match earliest (s.flt.deadlines.filter (fun d => d.tile == t && d.bank == b && !d.fired)) with
  | some d => word (2 ^ 31 + b2n d.inst.isSome * 2 ^ 30 + d.cause * 2 ^ 24 + Nat.min 0xFFFFFF ((d.left + 511) / 512))
  | none => 0

/-- GLB_PKG_MODES (R54). -/
def pkgModes (s : State) : Word := word (((List.range s.part.tiles).map (fun t => tileMode s t * 16 ^ t)).sum)

/-- TRC_ALARM_ACTIVE{w} (R392). -/
def alarmActive (s : State) (t w : Nat) : Word := packBits (fun n => (alarmSlot s t (32 * w + n)).active)

/-- The package's alarm summary (R393). -/
def alarmSummary (s : State) : Word :=
  let bits := (List.range s.part.tiles).map (fun t =>
    b2n (s.trc.alarms.any (fun e => e.1 / 256 == t && e.2.active)) * 2 ^ t)
  word (bits.sum + gf s 0 0xA000000 3 1 * 2 ^ 29 + gf s 0 0x118 0 1 * 2 ^ 31)

/-- GAL_ALARM_SUM{p} (R381, R385): on the manager alone, the word of package p, its own formed here, and UNREACHABLE while p is not
heard. -/
def galSum (s : State) (p : Nat) : Word :=
  if gf s 0 0xB000000 31 1 = 0 then 0
  else if p = gf s 0 0xB000000 13 5 then alarmSummary s
  else setBit (rreg s 0 (0xB000080 + 4 * p)) 30 (!bit (rreg s 0 0xB00000C) p)

/-- The LNK slot whose register lies at an offset of the LNK block, if it is one of a slot. -/
def slotAt (o : Nat) : Option Nat :=
  if o < 0xB00 then some (o / 0x100) else if 0x1000 ≤ o ∧ o < 0x1200 then some ((o - 0x1000) / 0x40) else none

/-- Whether a register belongs to a unit that is not there and so reads as zero and ignores writes: a link the
bifurcation leaves unused (R117), the second slot of an x8 port (R139, R161, R183, R243), a register of tile 0 only
(R9, R47, R349). -/
def absentReg (s : State) (t off : Nat) : Bool :=
  let b := off / 0x1000000
  let o := off % 0x1000000
  (b == 1 && decide (o < 0x400) && !linkPresent s (4 * t + o / 0x100)) ||
  (b == 2 && (match slotAt o with
    | some n => decide (n < 8) && n % 2 == 1 && !bifurcated s t (n / 2)
    | none => false)) ||
  (match findRow off with
    | some r => r.t0 && t != 0
    | none => false)

/-- What a register shows. -/
def viewReg (s : State) (t off : Nat) : Word :=
  let f := s.core.fuses
  let b := off / 0x1000000
  let o := off % 0x1000000
  if absentReg s t off then 0
  else if b = 0 ∧ o < 0x18 then
    match o / 4 with
    | 0 => word (s.part.tiles * 2 ^ 16 + t * 2 ^ 8 + f.major.toNat * 16 + f.minor.toNat)
    | 1 => word (f.device.toNat * 2 ^ 16 + f.vendor.toNat)
    | 2 => word (f.revision.toNat * 2 ^ 24 + f.classCode.toNat)
    | 3 => word (f.subsystem.toNat * 2 ^ 16 + f.subVendor.toNat)
    | 4 => word (f.serial.toNat % 2 ^ 32)
    | _ => word (f.serial.toNat / 2 ^ 32)
  else if off = 0x100 then Tbl.get 0 s.modes t
  else if off = 0x104 then pkgModes s
  else if off = 0x9000098 then rreg s 0 off
  else if off = 0x6000000 then insCount s t
  else if b = 7 ∧ o < 0x1000 then pendWord s t (o / 4)
  else if b = 7 ∧ 0x40000 ≤ o ∧ o < 0x44000 ∧ o % 16 = 0 then setFld (rreg s t off) 29 3 (tgtKind s t ((o - 0x40000) / 16))
  else if b = 8 ∧ o < 0xE00 ∧ o % 0x100 = 8 then fltTimer s t (o / 0x100)
  else if b = 11 ∧ t = 0 ∧ 0x80 ≤ o ∧ o < 0x100 then galSum s ((o - 0x80) / 4)
  else if b = 13 ∧ 0x200 ≤ o ∧ o < 0x220 then alarmActive s t ((o - 0x200) / 4)
  else if b = 13 ∧ 0x100000 ≤ o ∧ o < 0x200000 then
    wordOf ((List.range 4).map (fun k => traceByte s t (o - 0x100000 + k)))
  else rreg s t off

end Sys2Proof.Machine
end

