-- ==== Sys2Proof/Machine/Swc.lean ====
section
/-! DEFINITION. The switch core (09): arrival and admission of frames, replication, output arbitration, sending, ageing, ECC errors
and aborts, and the traffic counters. A frame that is not cut through leaves whole (R193); no account waits on another in a cycle (R189); happenings that meet are decided as in R205. -/

namespace Sys2Proof.Machine

open Sys2Proof

/-! ## Discards at arrival -/

/-- A frame that ends here leaves the receive pool it came in by (R153). -/
def leavePool (s : State) (f : Frame) : State :=
  match f.credit with
  | some (k, c, u) => creditReturn s (k / 11) (k % 11) c u
  | none => s

/-- A frame refused or discarded at arrival: counted by `count` unless it is a non-posted request, offered to the tailings
log where `down`, and ended with `status`. -/
def refuseFrame (s : State) (t port : Nat) (f : Frame) (status : Nat) (down : Bool) (count : State → State) : State :=
  let s := leavePool (if f.pkt.isReq then s else count s) f
  endFrame (if down then offer s t 4 port f else s) f status

/-- A response that crossed a link in an epoch now past is discarded and counted at that link (R157). -/
def dropLate (s : State) (f : Frame) : State :=
  let s := leavePool s f
  match f.links.find? (fun x => linkEpoch s (x.1 / 11) (x.1 % 11) != x.2) with
  | some x =>
    let t := x.1 / 11
    let n := x.1 % 11
    evt (stf s t (lnk n 0x70) 8 8) t (llRow n) 2 f.instOpt
  | none => s

/-! ## Storing -/

/-- The account a frame is charged to as it enters (R187): none while neither account holds its cells. -/
def entryAcct (s : State) (t p : Nat) (f : Frame) : Option Acct :=
  if f.credit.isSome then some .pool
  else
    let n := f.pkt.cells
    let own := if p = 0 then Acct.host else Acct.cls f.pkt.cls
    if n ≤ acctFree s t .shared then some .shared else if n ≤ acctFree s t own then some own else none

/-- The account a frame in a receive pool moves to (R188): on its second hop, multicast copies too (R201), the transit reservation
only. -/
def onwardAcct (s : State) (t o : Nat) (x : Stored) : Option Acct :=
  if 12 ≤ o ∧ o < 15 ∧ x.f.secondHop t x.inPort then
    (if x.cells ≤ acctFree s t .transit then some .transit else none)
  else if x.cells ≤ acctFree s t .shared then some .shared
  else if x.cells ≤ acctFree s t (.cls x.f.pkt.cls) then some (.cls x.f.pkt.cls)
  else none

/-- The transfer of a frame's charge out of its receive pool, with its credit returned (R188). -/
def transfer (s : State) (t id : Nat) : State :=
  match storedOf s t id with
  | none => s
  | some x =>
    if x.acct = .pool then
      match onwardAcct s t (outOf s t x.f) x with
      | some a => charge (putStored (uncharge s t x) t id { x with acct := a, f := { x.f with credit := none } }) t a x.cells
      | none => s
    else s

/-- The switch-core time in units of 100 ns, as the crystal's ticks show it (R185). -/
def swcTime (s : State) : Nat := s.ticks * 10000000 / 32768

/-- Stores a frame with `refs` references, without a pointer yet; the answer is its id. -/
def storeFrame (s : State) (t p : Nat) (f : Frame) (a : Acct) (refs : Nat) : Nat × State :=
  let id := s.swc.nextId
  let s := { s with swc := { s.swc with nextId := id + 1 } }
  let x : Stored :=
    { f := f, acct := a, cells := f.pkt.cells, refs := refs, inPort := p, enq := swcTime s, cut := f.lack != 0 }
  let s := putStored (charge s t a x.cells) t id x
  (id, if f.mc.isSome then sf s t 0x300002C 0 18 (gf s t 0x300002C 0 18 + x.cells) else s)

/-! ## Multicast (R200 to R203) -/

/-- The members of a group on a tile, as sublinks 2p + s. -/
def membersOn (s : State) (g u : Nat) : List Nat :=
  (List.range 8).filter (fun m => (Tbl.get [] s.swc.groups g).contains (8 * u + m))

/-- The pointers the replicator enqueues for a multicast frame: output, and the tile and bitmap a copy for another tile
carries (R201). -/
def replicas (s : State) (t : Nat) (f : Frame) : List (Nat × Option (Nat × Nat)) × Nat :=
  match f.mc with
  | none => ([], 0)
  | some (g, bits) =>
    let mine := match bits with
      | some b => (List.range 8).filter (fun m => b / 2 ^ m % 2 == 1)
      | none => membersOn s g t
    let up := mine.filter (fun m => linkAlive s t m)
    let away := match bits with
      | some _ => []
      | none => ((List.range s.part.tiles).filter (fun u => u != t && !(membersOn s g u).isEmpty)).map (fun u =>
          (12 + (hop s.part t u f.instOpt - 8), some (u, ((membersOn s g u).map (2 ^ ·)).sum)))
    (up.map (fun m => (4 + m, none)) ++ away, mine.length - up.length)

/-- A posted write now waits for `k` copies where it waited for one. -/
def spread (s : State) (serial k : Nat) : State :=
  if k = 0 then settle s serial
  else { s with brg := { s.brg with posted := s.brg.posted.map (fun r =>
    if r.serial = serial then { r with left := r.left + k - 1 } else r) } }

/-- Replicates a multicast frame at tile `t` (R201): a tile link that is down takes no copy and counts it. -/
def replicate (s : State) (t p : Nat) (f : Frame) (a : Acct) : State :=
  let (all, down) := replicas s t f
  let ptrs := all.filter (fun x => x.1 < 12 || outUp s t x.1)
  let s := (all.filter (fun x => 12 ≤ x.1 && !outUp s t x.1)).foldl (fun s x =>
    cf s t (lnk (x.1 - 4) 0x70) 16 16) s
  let s := cf s t 0x3000030 0 16 down
  let s := spread s f.serial ptrs.length
  if ptrs.isEmpty then evt (cf (leavePool s f) t 0x3000030 16 16) t 34 2 f.instOpt
  else
    let (id, s) := storeFrame s t p f a ptrs.length
    let s := ptrs.foldl (fun s x => enqueue s t x.1 11 f.pkt.cls (id, x.2) f.pkt.cells) s
    transfer s t id

/-! ## Arrival -/

/-- The function whose lock has ended other than by Unlock and whose requests a local port refuses (R238), if the frame is
one of its requests. -/
def lockEnded (s : State) (t n : Nat) (f : Frame) : Bool :=
  f.srcPort == 0 && !f.pkt.glob && (match (instOf s f.pkt.inst).fn with
    | some (h, g) => (lockSt s t n).ended.contains (fnKey h g)
    | none => false)

/-- Keeps a frame waiting at its port for cells (R187). -/
def waitAt (s : State) (t p : Nat) (f : Frame) : State :=
  { s with swc := { s.swc with waiting := Tbl.app s.swc.waiting (t * 12 + p) [f] } }

/-- Hands a stored frame to its tile's window translation, which takes frames in the order they come (R212). -/
def toResolve (s : State) (t id : Nat) : State :=
  { s with host := { s.host with resolve := Tbl.app s.host.resolve t [(id, none)] } }

/-- A locked read has reached the output of its local slot and waits there for its lock (R235 step 2). -/
def lockWaits (s : State) (t o : Nat) (f : Frame) : State :=
  if waitsLock o f then
    let l := lockSt s t (o - 4)
    setLock s t (o - 4) { l with wait := l.wait ++ [f] }
  else s

/-- A frame that has passed the refusals goes to its output (R187, R190): its account is charged and its pointer
enqueued, or it waits at its port. The data of a read-ahead goes to its stream (R217). -/
def takeIn (s : State) (t p : Nat) (f : Frame) : State :=
  if f.dstTile = t ∧ f.toWtt ∧ f.pkt.isRsp then answer (leavePool s f) f.issuer f.pkt.addr f.pkt.data f.pkt.ep else
  match entryAcct s t p f with
  | none => waitAt s t p f
  | some a =>
    if f.mc.isSome ∧ (p = 11 ∨ f.dstTile = t) then replicate s t p f a
    else
      let (id, s) := storeFrame s t p f a 1
      if f.dstTile = t ∧ f.toWtt then transfer (toResolve s t id) t id
      else
        let o := outOf s t f
        transfer (lockWaits (enqueue s t o p f.pkt.cls (id, none) f.pkt.cells) t o f) t id

/-- A frame that a tile turns away under R20 or R52: an Unlock among them still ends its function's locks (R113). -/
def turnAway (s : State) (t port : Nat) (f : Frame) (count : State → State) : State :=
  match f.cargo with
  | .unlock h g => endLocks (leavePool s f) h g
  | _ => refuseFrame s t port f 2 true count

/-- What a frame meets at its output before it is stored: a link that is down (R156, R204), a lock that has ended or that it is
inside of (R235, R238). -/
def toOutput (s : State) (t p : Nat) (f : Frame) : State :=
  let o := outOf s t f
  if f.mc.isSome ∧ (p = 11 ∨ f.dstTile = t) then takeIn s t p f
  else if outUp s t o = false then
    if o < 4 then
      let s := if f.pkt.isReq then discDown s t 0 else s
      let s := if f.pkt.isRsp then cf s t (hpt o 0x18) 16 16 else s
      refuseFrame s t 0 f 3 true (fun s => discDown s t 0)
    else
      let s := cf s t (lnk (o - 4) 0x70) 16 16
      refuseFrame s t (outPort o) f 3 true (fun s => s)
  else if 4 ≤ o ∧ o < 12 ∧ lockEnded s t (o - 4) f ∧ (f.pkt.isReq ∨ f.pkt.ty = .wr) then
    refuseFrame s t (outPort o) f 2 false (fun s => cf s t (ltp (o - 4) 0x24) 0 16)
  else
    let inside := waitsLock o f && (lockSt s t (o - 4)).holder.any (fun x => some x.2 == f.locked)
    takeIn s t p (if inside then { f with locked := none } else f)

/-- The refusals a frame meets as it enters a tile (R20, R52, R157), and its way on. -/
def routeFrame (s : State) (t p : Nat) (f : Frame) : State :=
  let o := outOf s t f
  let transit := f.secondHop t p
  if f.bad then settle (leavePool s f) f.serial
  else if f.pkt.isRsp ∧ epochsCurrent s f.links = false then dropLate s f
  else if f.dstTile = t ∧ turnsAway s t f then
    turnAway s t (outPort o) f (fun s => discDown s t (if f.mc.isSome then 11 else if f.toWtt then 0 else f.dstPort))
  else if transit ∧ (tileSt s t).transitStop then
    turnAway s t (outPort o) f (fun s => discDown s t (outPort o))
  else if ¬ transit ∧ ¬ f.pkt.glob ∧ refusesInstances s t ∧ f.pkt.cls ≤ 1 then
    turnAway s t p f (fun s => discDown s t p)
  else toOutput s t p f

/-- Counts of SWC_CNT: kinds 0 to 3 of port `p` (R207). -/
def countFrame (s : State) (t p : Nat) (received : Bool) (cells : Nat) : State :=
  let k := t * 48 + 4 * p + (if received then 1 else 0)
  let up (s : State) (k n : Nat) : State :=
    { s with swc := { s.swc with counts := Tbl.set 0 s.swc.counts k ((Tbl.get 0 s.swc.counts k + n) % 2 ^ 64) } }
  up (up s k cells) (k + 2) 1

/-- Whether a frame at a port must stay behind one that waits there: of its class (R187), or one whose order it keeps
(R224, R225). -/
def behind (w f : Frame) : Bool :=
  w.pkt.cls == f.pkt.cls ||
  (w.instOpt == f.instOpt && ((w.pkt.cls == 0 && !f.pkt.rlx && f.pkt.cls != 3) || w.pkt.ty == .lockEnd ||
    f.pkt.ty == .lockEnd))

/-- The first frame of an ingress list that nothing keeps back, and the rest. -/
def takeFirst (waiting : List Frame) : List Frame → List Frame → Option (Frame × List Frame)
  | _, [] => none
  | skipped, f :: rest =>
    if (waiting ++ skipped).any (fun w => behind w f) then takeFirst waiting (skipped ++ [f]) rest
    else some (f, skipped ++ rest)

/-- The links or sublinks of a port, in round-robin order after the last one served (R13). -/
def subsAfter (s : State) (t p : Nat) : List Nat :=
  let n := if p = 0 then 4 else if p < 5 then 2 else 1
  (List.range n).map (fun k => (Tbl.get 0 s.swc.turn (t * 12 + p) + 1 + k) % n)

/-- The next frame of a port: its link or sublink, the frame, and what stays of its list (R13, R187). -/
def nextIn (s : State) (t p : Nat) : Option (Nat × Frame × List Frame) :=
  (subsAfter s t p).findSome? (fun sub =>
    (takeFirst (Tbl.get [] s.swc.waiting (t * 12 + p)) [] (Tbl.get [] s.swc.ingress (ingKey t p sub))).map (fun x => (sub, x)))

/-- FRAME_ARRIVAL: a port takes one frame, its links in turn (R13, R187). -/
def arrive (s : State) (t p : Nat) : State :=
  match nextIn s t p with
  | none => s
  | some (sub, f, rest) =>
    let s := { s with swc := { s.swc with
      ingress := Tbl.set [] s.swc.ingress (ingKey t p sub) rest
      turn := Tbl.set 0 s.swc.turn (t * 12 + p) sub } }
    routeFrame (countFrame s t p true f.pkt.cells) t p f

/-- FRAME_ADMIT: the frames that wait at a port are tried again in their order (R187). -/
def admitWaiting (s : State) (t p : Nat) : State :=
  let w := Tbl.get [] s.swc.waiting (t * 12 + p)
  let s := { s with swc := { s.swc with waiting := Tbl.set [] s.swc.waiting (t * 12 + p) [] } }
  w.foldl (fun s f =>
    if (Tbl.get [] s.swc.waiting (t * 12 + p)).any (fun g => behind g f) then waitAt s t p f
    else routeFrame s t p f) s

/-! ## Eligibility (R191, R224, R225) -/

/-- The head of a queue with its stored frame. -/
def headOf (s : State) (t o inp c : Nat) : Option (Nat × Option (Nat × Nat) × Stored) :=
  match queueOf s (qKey t o inp c) with
  | [] => none
  | p :: _ => (storedOf s t p.1).map (fun x => (p.1, p.2, x))

/-- Whether a lock keeps a frame from leaving by a local slot (R180). -/
def lockBlocks (s : State) (t n : Nat) (f : Frame) : Bool :=
  decide (n < 8) && bit (rreg s t (ltp n 0xC)) 31 && decide (f.pkt.cls ≤ 1) && f.pkt.ty != .event &&
  (f.pkt.glob || gf s t (ltp n 0xC) 0 12 != f.pkt.inst)

/-- Whether an earlier frame `g` of an output keeps `f` back (R224, R225): `samePath` says that they came in by one
link or sublink. -/
def keepsBack (samePath : Bool) (g f : Frame) : Bool :=
  g.instOpt == f.instOpt &&
  (if f.pkt.ty = .notice then false
   else if f.pkt.ty = .lockEnd then true
   else if g.pkt.ty = .lockEnd then true
   else if f.pkt.ty = .lockBegin then samePath && decide (g.pkt.cls ≤ 1)
   else samePath && g.pkt.cls == 0 && !f.pkt.rlx && f.pkt.cls != 3)

/-- Whether two frames lie on one path (R224). -/
def onePath (f g : Frame) : Bool :=
  f.instOpt == g.instOpt && f.srcTile == g.srcTile && f.srcPort == g.srcPort && f.srcSub == g.srcSub

/-- Whether order lets the head of a queue leave: no earlier frame of the output keeps it back. -/
def orderAllows (s : State) (t o inp id : Nat) (f : Frame) : Bool :=
  !((s.swc.queues.filter (fun e => e.1 / 48 == t * 19 + o)).any (fun e => e.2.any (fun p =>
    decide (p.1 < id) && (match storedOf s t p.1 with
      | some g => keepsBack (e.1 / 4 % 12 == inp && onePath f g.f) g.f f
      | none => false))))

/-- The id of the stored locked read whose LOCK_BEGIN is queued or unanswered on a local slot. -/
def begunId (s : State) (t n : Nat) : Option Nat :=
  (lockSt s t n).begun.bind (fun f =>
    (List.find? (fun (e : Nat × Stored) => e.1 / 2 ^ 32 == t && e.2.f.serial == f.serial) s.swc.frames).map (fun e => e.1 % 2 ^ 32))

/-- Whether R235 step 3 and R225 let LOCK_BEGIN leave for the locked read with id `id`: no lock is held on the port, no held-read slot
is in use, and no Posted or Request frame of the read's path before it is queued. -/
def lockMayGo (s : State) (t n id : Nat) (f : Frame) : Bool :=
  (lockSt s t n).holder.isNone && !bit (rreg s t (ltp n 0xC)) 31 && heldUse s t n == 0 &&
  !((s.swc.queues.filter (fun e => e.1 / 48 == t * 19 + 4 + n)).any (fun e => e.2.any (fun p =>
    decide (p.1 < id) && (storedOf s t p.1).any (fun g => onePath f g.f && decide (g.f.pkt.cls ≤ 1)))))

/-- What a lock asks of a frame at a local slot (R235): a locked read goes only inside its function's lock, LOCK_BEGIN only as R235
step 3 lets it; a zero-length read is never sent (R229). -/
def lockReady (s : State) (t n : Nat) (f : Frame) : Bool :=
  (f.locked.isNone || (lockSt s t n).holder.any (fun x => some x.2 == f.locked)) &&
  (f.pkt.ty != .lockBegin || (begunId s t n).any (fun id => lockMayGo s t n id f)) && f.cargo != .zeroRead

/-- A free tag toward the partner of a local slot (R172). -/
def freeLtpTag (s : State) (t n : Nat) : Option Nat :=
  let k := (t * 8 + n) * 4096
  firstFree (fun g => (Tbl.get none s.lode.tags (k + g)).isSome || (Tbl.find? s.lode.quar (k + g)).isSome) 4096 4096
    (Config.tagChoice s.fresh)

/-- Whether the head of a queue can be sent now (R191). A frame whose rest is bad is taken off at once (R193). -/
def eligible (s : State) (t o inp c : Nat) : Bool :=
  match headOf s t o inp c with
  | none => false
  | some (id, _, x) =>
    x.f.bad ||
    ((x.f.pkt.ty == .lockBegin || orderAllows s t o inp id x.f) &&
     (if o < 4 then hostUp s (4 * t + o)
      else if o < 15 then
        linkState s t (o - 4) == 6 && hasCredit s t (o - 4) c x.f.pkt.units && !lockBlocks s t (o - 4) x.f &&
        (8 ≤ o - 4 || (lockReady s t (o - 4) x.f && (!x.f.pkt.isReq || (freeLtpTag s t (o - 4)).isSome)))
      else true))

/-! ## Sending -/

/-- LTP_TAGS after a change of the tags of a slot (R183). -/
def ltpTags (s : State) (t n : Nat) : State :=
  let k := t * 8 + n
  let used := (s.lode.tags.filter (fun e => e.1 / 4096 == k && e.2.isSome)).length
  let quar := (s.lode.quar.filter (fun e => e.1 / 4096 == k)).length
  wreg s t (ltp n 8) (word (quar * 2 ^ 16 + used + quar))

/-- Hands a packet to a slot's transmitter (R144). -/
def pushTx (s : State) (t n : Nat) (f : Frame) : State :=
  let x := linkSt s t n
  setLink s t n { x with txq := x.txq ++ [{ f := { f with credit := none }, rest := f.pkt.bytes, started := false, abort := false }] }

/-- LOCK_BEGIN is sent: the port is locked for its instance, and the locked read waits for the answer alone (R180, R235). -/
def lockSent (s : State) (t n : Nat) (f : Frame) : State :=
  let l := lockSt s t n
  let wait := match l.begun with
    | some g => l.wait.filter (fun w => w.serial != g.serial)
    | none => l.wait
  wreg (setLock s t n { l with sent := true, wait := wait }) t (ltp n 0xC) (word (2 ^ 31 + f.pkt.inst))

/-- A request of the device goes to the partner of a local slot: it gets a tag and the device's record (R172). -/
def sendRequest (s : State) (t n : Nat) (f : Frame) : State :=
  let here := (slotKey t n, linkEpoch s t n)
  match freeLtpTag s t n with
  | none => s
  | some g =>
    let s := tickFresh (noteCross (takeCredit s t n f.pkt.cls f.pkt.units) f.issuer here)
    let r : DevReq := { issuer := f.issuer, ty := f.pkt.ty, len := f.pkt.len, inst := f.pkt.inst, gen := f.pkt.gen,
                        rlx := f.pkt.rlx, links := f.links ++ [here] }
    let s := { s with lode := { s.lode with
      tags := Tbl.set none s.lode.tags ((t * 8 + n) * 4096 + g) (some r)
      past := Tbl.del s.lode.past ((t * 8 + n) * 4096 + g) } }
    let s := if f.pkt.ty = .lockBegin then lockSent s t n f else s
    pushTx (ltpTags s t n) t n { f with pkt := { f.pkt with tag := g } }

/-- A response goes to the partner: that of a held read gives its slot back (R174); one that has been answered anew in the meantime
goes no further (R171). -/
def sendResponse (s : State) (t n : Nat) (f : Frame) : State :=
  let go (s : State) : State := pushTx (takeCredit s t n f.pkt.cls f.pkt.units) t n f
  match f.issuer with
  | .held u m k _ => if (heldRd s u m k).any (fun h => h.rsp == some f.serial) then go (heldFree (uncross s f.issuer) u m k) else s
  | _ => go s

/-- Sends a frame on a Lode link (R144): its credit is taken; a tile link is recorded with the issuer (R155); LOCK_END ends its lock
(R180). -/
def sendLode (s : State) (t n : Nat) (f : Frame) : State :=
  let here := (slotKey t n, linkEpoch s t n)
  if 8 ≤ n then
    let s := takeCredit s t n f.pkt.cls f.pkt.units
    let s := if f.pkt.isReq || f.pkt.isRsp then noteCross s f.issuer here else s
    pushTx s t n { f with links := f.links ++ [here] }
  else if f.pkt.isReq then sendRequest s t n f
  else if f.pkt.isRsp then sendResponse s t n f
  else if f.pkt.ty = .lockEnd then
    let l := lockSt s t n
    if l.holder.any (fun h => h.1 == f.pkt.inst) then
      pushTx (wreg (setLock (takeCredit s t n 3 f.pkt.units) t n { l with holder := none }) t (ltp n 0xC) 0) t n f
    else s
  else pushTx (markSent (takeCredit s t n f.pkt.cls f.pkt.units) f.serial) t n f

/-- Delivers a frame to the block behind an output of the tile: a DMA engine goes on taking one in until it is whole (R194), and a
response whose record names a past epoch is late there too (R157). -/
def deliver (s : State) (t o : Nat) (f : Frame) : State :=
  if o < 4 then { s with host := { s.host with outq := Tbl.app s.host.outq (4 * t + o) [{ f with credit := none }] } }
  else if o < 15 then sendLode s t (o - 4) f
  else if f.lack ≠ 0 then { s with swc := { s.swc with into := Tbl.app s.swc.into t [{ f with credit := none }] } }
  else if f.pkt.isRsp then
    (if epochsCurrent s f.links then answer s f.issuer f.pkt.addr f.pkt.data f.pkt.ep else dropLate s { f with credit := none })
  else if o = 17 then { s with swc := { s.swc with mgmt := Tbl.app s.swc.mgmt t [{ f with credit := none }] } }
  else settle s f.serial

/-- The frame a pointer sends: a copy for another tile carries that tile and its bitmap (R201). -/
def pointed (f : Frame) (p : Option (Nat × Nat)) : Frame :=
  match f.mc, p with
  | some (g, _), some (u, bits) => { f with dstTile := u, mc := some (g, some bits) }
  | some _, none => { f with mc := none }
  | none, _ => f

/-- Sends the head of a queue. A multicast copy's pointer toward a member releases its share of the posted write as it goes, and
the copy is a posted frame of its own from then on (R202, R228). -/
def sendHead (s : State) (t o inp c : Nat) (poison : Bool := false) : State :=
  match headOf s t o inp c with
  | none => s
  | some (id, p, x) =>
    let s := countFrame (dropRef (popHead s t o inp c) t id) t (outPort o) false x.cells
    let f := pointed x.f p
    let f := if poison then { f with pkt := { f.pkt with ep := true } } else f
    if x.f.mc.isSome ∧ o < 12 then
      let (k, s) := newSerial (settle s f.serial)
      deliver s t o { f with serial := k, copy := some id }
    else deliver s t o f

/-! ## Ageing (R198, R199) -/

/-- Whether ageing applies to a frame. -/
def mayAge (s : State) (t : Nat) (f : Frame) : Bool :=
  f.pkt.ty != .lockEnd && f.pkt.ty != .notice && gf s t (0x3000000 + 4 * f.pkt.cls) 16 16 != 0

/-- Whether the crystal ticks show that a stored frame is past its limit. -/
def aged (s : State) (t : Nat) (x : Stored) : Bool :=
  mayAge s t x.f &&
  decide (gf s t (0x3000000 + 4 * x.f.pkt.cls) 16 16 * 100 < swcTime s - x.enq)

/-- Discards the head of a queue for its age. -/
def ageHead (s : State) (t o inp c : Nat) : State :=
  match headOf s t o inp c with
  | none => s
  | some (_, _, x) =>
    if mayAge s t x.f then
      let s := evt (cf s t (swcP (outPort o) 0) 16 16) t 34 3 x.f.instOpt
      discardHead (offer s t 1 (outPort o) x.f) t o inp c 2
    else s

/-! ## Arbitration (R191, R192) -/

/-- The inputs of a class that are eligible, in round-robin order after the one last served. -/
def inputsOf (s : State) (t o c : Nat) : List Nat :=
  let last := Tbl.get 0 s.swc.inTurn ((t * 19 + o) * 4 + c)
  ((List.range 12).map (fun k => (last + 1 + k) % 12)).filter (fun i => eligible s t o i c)

/-- A class's deficit at an output. -/
def deficitOf (s : State) (t o c : Nat) : Int := Tbl.get 0 s.swc.deficit ((t * 19 + o) * 4 + c)

/-- Sets a class's deficit. -/
def setDeficit (s : State) (t o c : Nat) (d : Int) : State :=
  { s with swc := { s.swc with deficit := Tbl.set 0 s.swc.deficit ((t * 19 + o) * 4 + c) d } }

/-- The class that sends next: the current one while its deficit is above zero, else the next; with none left a new round
begins. `fuel` bounds the rounds a deep negative remainder needs. -/
def pickClass (s : State) (t o : Nat) (cs : List Nat) : Nat → Option Nat × State
  | 0 => (none, s)
  | fuel + 1 =>
    let cur := Tbl.get 0 s.swc.clsTurn (t * 19 + o)
    match ((List.range 4).map (fun k => (cur + k) % 4)).find? (fun c => cs.contains c && decide (0 < deficitOf s t o c)) with
    | some c => (some c, s)
    | none =>
      pickClass (cs.foldl (fun s c =>
        setDeficit s t o c (deficitOf s t o c + gf s t (0x3000000 + 4 * c) 0 8)) s) t o cs fuel

/-- The queue an output serves next (R191), as input, class and whether it is urgent, with the deficits of a round begun. -/
def choose (s : State) (t o : Nat) : Option (Nat × Nat × Bool) × State :=
  match s.swc.urgent.find? (fun u => u / 48 == t * 19 + o && eligible s t o (u / 4 % 12) (u % 4)) with
  | some u => (some (u / 4 % 12, u % 4, true), s)
  | none =>
    let cs := (List.range 4).filter (fun c => !(inputsOf s t o c).isEmpty)
    let s := (List.range 4).foldl (fun s c => if cs.contains c then s else setDeficit s t o c 0) s
    match pickClass s t o cs 64 with
    | (some c, s) => ((inputsOf s t o c).head?.map (fun i => (i, c, false)), s)
    | (none, s) => (none, s)

/-- Corrected ECC errors of the frame buffer are counted (R26, R206). -/
def eccCorrected (s : State) (t n : Nat) : State := if n = 0 then s else cf s t 0x3000034 16 16 n

/-- An uncorrectable ECC error of the frame buffer is counted and raises BUFFER_ECC (R197); which of the buffer's cells failed is open (log
entry 7). -/
def eccFault (s : State) (t : Nat) (f : Frame) : State :=
  let cell := (Config.freeWord s.fresh).toNat % 196608
  recordFault (evt (cf (tickFresh s) t 0x3000034 0 16) t 34 5 f.instOpt) t 3 1 none cell

/-- The first cell of a frame whose reading finds an uncorrectable error: one found before, for another output, is no new error (R205).
The cell stays bad for the outputs that are still to read the copy. -/
def eccRead (s : State) (t id : Nat) (x : Stored) (e : CellRead) : Option Nat × State :=
  let s := eccCorrected s t e.corrected
  match x.ecc, e.bad with
  | some k, _ => (some k, s)
  | none, some k => if k < x.cells then (some k, putStored (eccFault s t x.f) t id { x with ecc := some k }) else (none, s)
  | none, none => (none, s)

/-- The issuing DMA queue's engine is told of an abort (R196). -/
def abortTell (s : State) (f : Frame) : State :=
  match f.issuer with
  | .dmaWr u w => { s with dma := { s.dma with aborts := Tbl.app s.dma.aborts u [.dmaWr u w] } }
  | .dmaTag u g => { s with dma := { s.dma with aborts := Tbl.app s.dma.aborts u [.dmaTag u g] } }
  | _ => s

/-- An output counts a frame it aborts, and offers it to the tailings log (R195). -/
def abortCount (s : State) (t o : Nat) (f : Frame) (first : Bool := false) : State :=
  abortTell (offer (evt (cf s t (swcP (outPort o) 4) 16 16) t 34 4 f.instOpt) t 2 (outPort o) f first) f

/-- The bytes a packet goes on with once it is aborted: zeros, and a CRC that does not match (R146). -/
def abortRest (j : TxJob) : List Byte :=
  let all := j.f.pkt.bytes
  let sent := Nat.max 16 (all.length - j.rest.length)
  let n := 16 + j.f.pkt.data.length
  let body := bytesAt (all.take sent) 0 n
  let whole := bytesAt (body ++ leBytes 4 (~~~(crc32c body)).toNat) 0 all.length
  whole.drop (all.length - j.rest.length)

/-- A packet at a slot's transmitter is ended with ABORT (R146, R195). -/
def abortJob (s : State) (t n serial : Nat) (first : Bool := false) : State :=
  let x := linkSt s t n
  match x.txq.find? (fun j => j.f.serial == serial && !j.abort) with
  | none => s
  | some j =>
    let s := setLink s t n { x with txq := x.txq.map (fun k =>
      if k.f.serial = serial then { k with abort := true, rest := abortRest k } else k) }
    abortCount (cf s t (lnk n 0x74) 0 16) t (n + 4) j.f first

/-- Sends the head of a queue in whose cells an uncorrectable error has been found (R195, R197): toward a host it goes with EP where the
cell holds only data, and is discarded where it is the first; on a Lode link it is ended with ABORT; a DMA engine discards it, and so
do the management port and the replicator, a non-posted request being answered with CA (DESIGN CHOICE: R195 names no other output, log
entry 64). -/
def sendBad (s : State) (t o inp c cell : Nat) : State :=
  match headOf s t o inp c with
  | none => s
  | some (id, p, x) =>
    if o < 4 then (if cell = 0 then discardHead s t o inp c 2 else sendHead s t o inp c true)
    else if o < 15 then
      let f := pointed x.f p
      let serial := if x.f.mc.isSome ∧ o < 12 then s.brg.serial else f.serial
      abortJob (sendHead s t o inp c) t (o - 4) serial (cell = 0)
    else if o < 17 then
      let s := dropRef (popHead s t o inp c) t id
      abortCount (settle s x.f.serial) t o x.f (cell = 0)
    else discardHead (abortCount s t o x.f (cell = 0)) t o inp c 2

/-- Serves a queue (R191, R192, R198): its head is discarded for its age or because it will not come whole, or it is sent. -/
def serve (s : State) (t o i c : Nat) (urgent : Bool) (e : CellRead) : State :=
  match headOf s t o i c with
  | none => s
  | some (id, _, x) =>
    if x.f.bad then settle (dropRef (popHead s t o i c) t id) x.f.serial
    else if aged s t x then ageHead s t o i c
    else
      let s := if urgent then evt (cf s t (swcP (outPort o) 4) 0 16) t 34 0 x.f.instOpt
        else
          let s := setDeficit s t o c (deficitOf s t o c - x.cells)
          { s with swc := { s.swc with clsTurn := Tbl.set 0 s.swc.clsTurn (t * 19 + o) c
                                       inTurn := Tbl.set 0 s.swc.inTurn ((t * 19 + o) * 4 + c) i } }
      match eccRead s t id x e with
      | (some k, s) => sendBad s t o i c k
      | (none, s) => sendHead s t o i c

/-- Whether an output has a frame queued. -/
def outQueued (s : State) (t o : Nat) : Bool := s.swc.queues.any (fun q => q.1 / 48 == t * 19 + o && !q.2.isEmpty)

/-- A cycle of an output that has queued frames and none it can send: SWC_P_WAIT counts 1,024 of them (R206). -/
def waitCycle (s : State) (t o : Nat) : State :=
  if outQueued s t o = false then s else
  let k := t * 12 + outPort o
  let n := Tbl.get 0 s.swc.idle k + 1
  let s := { s with swc := { s.swc with idle := Tbl.set 0 s.swc.idle k (n % 1024) } }
  if n = 1024 then cf s t (swcP (outPort o) 0xC) 0 16 else s

/-- OUTPUT_ARBITRATION: one switch-core cycle of an output, which chooses a frame and sends it, or discards it for its age (R191, R192,
R198). -/
def arbitrate (s : State) (t o : Nat) (e : CellRead) : State :=
  match choose s t o with
  | (some (i, c, u), s) => serve s t o i c u e
  | (none, s) => waitCycle s t o

/-- Whether the head of a queue lies in the transit reservation (R18). -/
def inTransit (s : State) (t o i c : Nat) : Bool := (headOf s t o i c).any (fun x => x.2.2.acct == .transit)

/-- TRANSIT_FORWARD: the output's choice, where it falls on a frame of the transit reservation, leaves (R18, R191). -/
def forwardTransit (s : State) (t o : Nat) : State :=
  match choose s t o with
  | (some (i, c, u), s') => if inTransit s' t o i c then serve s' t o i c u ⟨0, none⟩ else s
  | (none, _) => s

/-- QUEUE_URGENT (R192). -/
def makeUrgent (s : State) (t o inp c : Nat) : State :=
  let k := qKey t o inp c
  if (queueOf s k).isEmpty ∨ s.swc.urgent.contains k then s
  else { s with swc := { s.swc with urgent := s.swc.urgent ++ [k] } }

/-! ## Aborts (R195, R196, R146) -/

/-- The slot at whose transmitter a frame stands, not yet aborted. -/
def jobSlot (s : State) (t serial : Nat) : Option Nat :=
  (List.range slotCount).find? (fun n => (linkSt s t n).txq.any (fun j => j.f.serial == serial && !j.abort))

/-- The credit of a packet that is never sent goes back to where R153 puts returned units. -/
def giveCredit (s : State) (t n c u : Nat) : State :=
  let r := crRsv s t n c
  let toR := Nat.min u (reserveUnits - r)
  sf (sf s t (lnk n 0x5C) (8 * c) 8 (r + toR)) t (lnk n 0x58) 0 14 (crShared s t n + (u - toR))

/-- A packet whose head has not left and that will not come whole never leaves (R193). -/
def dropJob (s : State) (t n serial : Nat) (j : TxJob) : State :=
  let x := linkSt s t n
  let s := setLink s t n { x with txq := x.txq.filter (fun k => k.f.serial != serial) }
  settle (giveCredit s t n j.f.pkt.cls j.f.pkt.units) serial

/-- A frame that a DMA engine has begun to take in is marked aborted, and its staging buffer discards it (R195). -/
def abortInto (s : State) (t serial : Nat) : State :=
  match (Tbl.get [] s.swc.into t).find? (fun f => f.serial == serial && f.bad) with
  | none => s
  | some f =>
    let s := { s with swc := { s.swc with
      into := Tbl.set [] s.swc.into t ((Tbl.get [] s.swc.into t).filter (fun g => g.serial != serial)) } }
    abortCount (settle s serial) t (outOf s t f) f

/-- An uncorrectable error met in a cell of a packet being sent (R197, R205): the fault is raised once for a multicast copy, and the
outputs that read the copy later, or send it now, meet the same error. -/
def eccMet (s : State) (t : Nat) (j : TxJob) : State :=
  match j.f.copy with
  | none => eccFault s t j.f
  | some id =>
    let known := j.ecc || (storedOf s t id).any (fun x => x.ecc.isSome)
    let s := if known then s else eccFault s t j.f
    let s := match storedOf s t id with
      | some x => putStored s t id { x with ecc := some (x.ecc.getD 1) }
      | none => s
    { s with lode := { s.lode with links := s.lode.links.map (fun e =>
        if e.1 / slotCount = t then
          (e.1, { e.2 with txq := e.2.txq.map (fun k => if k.f.copy = some id then { k with ecc := true } else k) })
        else e) } }

/-- FRAME_ABORT (R195): a frame whose head has left and whose rest is bad, its tail CRC having failed or its input link having been
declared down, or in a cell of which `ecc` finds an uncorrectable error as it is sent. -/
def abortFrame (s : State) (t serial : Nat) (ecc : Bool) : State :=
  match jobSlot s t serial with
  | none => abortInto s t serial
  | some n =>
    match (linkSt s t n).txq.find? (fun j => j.f.serial == serial && !j.abort) with
    | none => s
    | some j =>
      if j.f.bad ∧ j.started = false then dropJob s t n serial j
      else if j.f.bad then abortJob s t n serial
      else if ecc ∧ j.started then abortJob (eccMet s t j) t n serial
      else s

/-! ## Meanings -/

/-- Whether a switch port is one of a tile of the part (R12). -/
def portOk (s : State) (t p : Nat) : Bool := decide (t < s.part.tiles) && decide (p < 12)

/-- Whether an output is one of a tile of the part. -/
def outOk (s : State) (t o : Nat) : Bool := decide (t < s.part.tiles) && decide (o < outCount)

/-- FRAME_ARRIVAL (R187). -/
def execFrameArrival (t p : Nat) (s : State) : Res := onUnit (portOk s t p) (arrive s t p)

/-- FRAME_ADMIT (R187). -/
def execFrameAdmit (t p : Nat) (s : State) : Res := onUnit (portOk s t p) (admitWaiting s t p)

/-- POOL_TRANSFER (R188). -/
def execPoolTransfer (t f : Nat) (s : State) : Res := onTile s t (transfer s t f)

/-- TRANSIT_FORWARD (R18, R188). -/
def execTransitForward (t out : Nat) (s : State) : Res := onUnit (outOk s t out) (forwardTransit s t out)

/-- QUEUE_URGENT (R192). -/
def execQueueUrgent (t out inp : Nat) (cls : BitVec 2) (s : State) : Res :=
  onUnit (outOk s t out && decide (inp < 12)) (makeUrgent s t out inp cls.toNat)

/-- FRAME_AGE_EXPIRY (R198). -/
def execFrameAgeExpiry (t out inp : Nat) (cls : BitVec 2) (s : State) : Res :=
  onUnit (outOk s t out && decide (inp < 12)) (ageHead s t out inp cls.toNat)

/-- FRAME_ABORT (R195). -/
def execFrameAbort (t f : Nat) (ecc : Bool) (s : State) : Res := onTile s t (abortFrame s t f ecc)

/-- The counter mailbox's READ (R207). -/
def swcCntRead (s : State) (t : Nat) : State :=
  cntRead s t 0x3000400 47 (fun s k => Tbl.get 0 s.swc.counts (t * 48 + k))

/-- The counter mailbox's WRITE (R207). -/
def swcCntWrite (s : State) (t : Nat) : State :=
  mbCmd s t 0x3000400 2 (fun s =>
    mbEnd s t 0x3000400 (if 47 < mbIndex s t 0x3000400 then badIndex else refusedMb))

end Sys2Proof.Machine
end

