-- ==== Sys2Proof/Machine/Hold.lean ====
section
/-! DEFINITION. The release of what R228 holds, and the zero-length reads of R229. -/

namespace Sys2Proof.Machine

open Sys2Proof

/-- An event of a partner acts on its line (R177). -/
def lineEvent (s : State) (t n : Nat) (p : Pkt) : State :=
  let line := (t * 8 + n) * 256 + p.addr % 256
  let src := 20480 + n * 256 + p.addr % 256
  let wrong := if p.opx = 2 then srcLevel s t src else !srcLevel s t src
  if wrong then countMal s t n
  else match p.opx with
    | 0 => evcRefresh { s with evc := { s.evc with lines := Tbl.ins s.evc.lines line () } } t
    | 1 => evcRefresh { s with evc := { s.evc with lines := Tbl.del s.evc.lines line } } t
    | _ => edge s t src
where
  /-- Counts a malformed packet of a local slot (R167). -/
  countMal (s : State) (t n : Nat) : State := evt (cf s t (ltp n 0x14) 0 16) t (ltpRow n) 0

/-- What a hold releases goes on. -/
def releaseItem (s : State) (x : Held1) : State :=
  match x with
  | .frame _ _ f => enter s f
  | .event t n p => evcRefresh (lineEvent s t n p) t
  | .vector i v => { s with evc := { s.evc with vecDue := s.evc.vecDue ++ [(i, v)] } }
  | .request t id hit _ _ => requeue s t [(id, hit)]

/-- An item goes on at once unless it waits for posted frames or follows a held item of its path (R228). -/
def holdOr (s : State) (waits : List Nat) (x : Held1) : State :=
  if waits.isEmpty ∧ s.brg.holds.any (fun h => sameHold h.item x) = false then releaseItem s x else startHold s waits x

/-- Whether a hold has ended: every posted frame it waits for is settled, or has left where that is enough, and no earlier item of its
path is held (R224, R228). -/
def holdEnded (s : State) (h : Hold) : Bool :=
  !(h.waits.any (fun w => s.brg.posted.any (fun r => r.serial == w && !(h.sentOk && r.sent)))) &&
  !(s.brg.holds.any (fun g => decide (g.id < h.id) && sameHold g.item h.item))

/-- Releases a hold that has ended. -/
def releaseHold (s : State) (id : Nat) : State :=
  match s.brg.holds.find? (fun h => h.id == id) with
  | none => s
  | some h =>
    if holdEnded s h then releaseItem { s with brg := { s.brg with holds := s.brg.holds.filter (fun g => g.id != id) } } h.item
    else s

/-! ## Zero-length reads (R229) -/

/-- Whether a zero-length read at the head of a queue of a local slot has seen every earlier Posted frame of its path leave and every one
acknowledged by the partner, and no other instance's lock holds the port (R229, R242). -/
def zeroEnded (s : State) (t n inp id : Nat) (f : Frame) : Bool :=
  f.cargo == .zeroRead && orderAllows s t (4 + n) inp id f && !lockBlocks s t n f &&
  !(s.brg.posted.any (fun r => r.inst == f.pkt.inst && r.toSlot == some (slotKey t n) &&
    r.fromHost == some (4 * f.srcTile + f.srcSub) && decide (r.serial < f.serial)))

/-- ZERO_LENGTH_READ_COMPLETE (R229): the device completes the read held at a slot's output with one DW of zeros. -/
def zeroDone (s : State) (t n : Nat) : State :=
  match (List.range 12).findSome? (fun i => (headOf s t (4 + n) i 1).bind (fun x =>
      if zeroEnded s t n i x.1 x.2.2.f then some (i, x.1, x.2.2.f) else none)) with
  | some (i, id, f) => answer (dropRef (popHead s t (4 + n) i 1) t id) f.issuer 0 [0, 0, 0, 0] false
  | none => s

/-! ## Meanings -/

/-- HOLD_RELEASE (R228). -/
def execHoldRelease (id : Nat) (s : State) : Res := .next (releaseHold s id)

/-- ZERO_LENGTH_READ_COMPLETE (R229). -/
def execZeroLengthReadComplete (t n : Nat) (s : State) : Res :=
  onUnit (decide (t < s.part.tiles) && decide (n < 8)) (unfenced s t (zeroDone s t n))

end Sys2Proof.Machine
end

