-- ==== Sys2Proof/Machine/Wtt.lean ====
section
/-! DEFINITION. Windows and address translation (10): descriptors, entries, the resolution of host requests and of packets
from partners, prefetch streams, and the mailbox and instance commands. A window has one of four kinds (R209); a
generation is stored as written and compared in 8 bits (R219); happenings that meet are decided as in R222. -/

namespace Sys2Proof.Machine

open Sys2Proof

/-! ## Descriptors and entries (R210, R211) -/

/-- The stored words of window descriptor `n` of a tile. -/
def winWords (s : State) (t n : Nat) : List Word := Tbl.get (List.replicate 8 0) s.wtt.wins (t * 8192 + n)

/-- Stores a window descriptor. -/
def setWin (s : State) (t n : Nat) (w : List Word) : State :=
  { s with wtt := { s.wtt with wins := Tbl.set (List.replicate 8 0) s.wtt.wins (t * 8192 + n) w } }

/-- The stored words of WTT entry `n` of a tile. -/
def entWords (s : State) (t n : Nat) : List Word := Tbl.get (List.replicate 4 0) s.wtt.ents (t * 2097152 + n)

/-- Stores a WTT entry. -/
def setEnt (s : State) (t n : Nat) (w : List Word) : State :=
  { s with wtt := { s.wtt with ents := Tbl.set (List.replicate 4 0) s.wtt.ents (t * 2097152 + n) w } }

/-- The instance whose window range holds a descriptor (R208). -/
def winOwner (s : State) (t n : Nat) : Option Nat :=
  (List.find? (fun (e : Nat × Inst) => e.1 / 512 == t && e.2.state != .free &&
    decide (e.2.wBase ≤ n) && decide (n < e.2.wBase + e.2.wCount)) s.ins.recs).map Prod.fst

/-- The instance whose WTT range holds an entry (R208). -/
def entOwner (s : State) (t n : Nat) : Option Nat :=
  (List.find? (fun (e : Nat × Inst) => e.1 / 512 == t && e.2.state != .free &&
    decide (e.2.wttBase ≤ n) && decide (n < e.2.wttBase + e.2.wttCount)) s.ins.recs).map Prod.fst

/-- A descriptor's fields (R210). -/
structure Win where
  kind : Nat
  anyPort : Bool
  bar : Nat
  prefetch : Bool
  rd : Bool
  wr : Bool
  atomic : Bool
  page : Nat
  sub : Nat
  port : Nat
  aux : Nat
  gen : Nat
  base : Nat
  size : Nat
  target : Nat
  deriving DecidableEq, Repr

/-- The page size a PAGE code names (R210, R211). -/
def pageSize (code : Nat) : Nat := if code = 0 then 4096 else if code = 1 then 65536 else 2097152

/-- Reads a descriptor's words. -/
def readWin (w : List Word) : Win :=
  let g (k : Nat) : Word := w.getD k 0
  { kind := fld (g 0) 0 2, anyPort := bit (g 0) 2, bar := if bit (g 0) 3 then 4 else 2, prefetch := bit (g 0) 4,
    rd := bit (g 0) 5, wr := bit (g 0) 6, atomic := bit (g 0) 7, page := fld (g 0) 8 2, sub := fld (g 0) 10 1,
    port := fld (g 0) 11 5, aux := fld (g 1) 0 21, gen := fld (g 1) 24 8, base := pair (g 2) (g 3),
    size := pair (g 4) (g 5), target := pair (g 6) (g 7) }

/-- A page code of a word clamped to 2 (R210, R211). -/
def clampPage (w : Word) (lo : Nat) : Word := setFld w lo 2 (Nat.min 2 (fld w lo 2))

/-- The words a window WRITE stores: reserved and device-supplied bits zero, PAGE clamped. -/
def maskWin (w : List Word) : List Word :=
  let g (k : Nat) : Word := w.getD k 0
  [clampPage (g 0 &&& 0x0000FFFF#32) 8, g 1 &&& 0xFF1FFFFF#32, g 2 &&& 0xFFFFF000#32, g 3, g 4 &&& 0xFFFFF000#32, g 5,
   g 6 &&& 0xFFFFF000#32, g 7]

/-- The words an entry WRITE stores. -/
def maskEnt (w : List Word) : List Word :=
  let g (k : Nat) : Word := w.getD k 0
  [clampPage (g 0 &&& 0xBF00FC00#32) 28, g 1 &&& 0xFF000FFF#32, g 2 &&& 0xFFFFF000#32, g 3]

/-- Window `w` of an instance. -/
def instWin (s : State) (i w : Nat) : Win := readWin (winWords s (homeTile i) ((instOf s i).wBase + w))

/-- The numbers of an instance's enabled windows. -/
def enabledWins (s : State) (i : Nat) : List Nat :=
  (List.range (instOf s i).wCount).filter (fun w => (instWin s i w).size != 0)

/-! ## Refusals (R212, R223) -/

/-- CAUSE codes of WTT_MISS_LAST. -/
abbrev missNoWindow : Nat := 1
abbrev missNoPerm : Nat := 2
abbrev missInvalid : Nat := 3
abbrev missStale : Nat := 4
abbrev missMisconfig : Nat := 5
abbrev missEcc : Nat := 6
abbrev missUpNoWindow : Nat := 7

/-- The count and event bit of a cause. -/
def missCount (c : Nat) : Nat × Nat × Nat :=
  match c with
  | 1 => (0x4000004, 16, 0)
  | 2 => (0x4000004, 0, 1)
  | 3 => (0x4000008, 16, 2)
  | 4 => (0x4000008, 0, 3)
  | 5 => (0x400000C, 16, 4)
  | 6 => (0x4000020, 0, 6)
  | _ => (0x400000C, 0, 5)

/-- A refusal is counted, recorded in WTT_MISS_LAST and set in WTT_EVENTS (R212). -/
def miss (s : State) (i cause : Nat) (win : Option Nat) : State :=
  let t := homeTile i
  let (off, lo, b) := missCount cause
  let s := cf s t off lo 16
  let last := cause * 2 ^ 28 + b2n win.isSome * 2 ^ 18 + win.getD 0 * 2 ^ 12 + i
  evt (wreg s t 0x4000010 (word last)) t 35 b (some i)

/-- What a lookup finds in the ECC of a descriptor and an entry beside the refusal (R212, R223): corrected errors are counted, an uncorrectable
one raises its fault, which names the failing index (R340): 1 in a descriptor, 2 in an entry. -/
def wttEcc (s : State) (i index : Nat) (e : WttRead) : State :=
  let t := homeTile i
  let s := if e.corrected = 0 then s else cf s t 0x4000020 16 16 e.corrected
  if e.descBad then recordFault s t 4 1 (some i) index else if e.entryBad then recordFault s t 4 2 (some i) index else s

/-- The number in the tile of the descriptor, or of the entry, that fails as the location at offset `x` of a BAR is looked up in window
`win`. -/
def eccIndex (s : State) (i win x : Nat) (e : WttRead) : Nat :=
  let w := instWin s i win
  if e.descBad then (instOf s i).wBase + win else (instOf s i).wttBase + w.aux + (x - w.base) / pageSize w.page

/-! ## Resolution of a host request (R212) -/

/-- Whether permission bits let a kind of request pass (R212 order 3). -/
def permits (kind : MemKind) (rd wr atomic : Bool) : Bool :=
  match kind with
  | .read => rd
  | .lockedRead => rd
  | .write => wr
  | .fetchAdd => atomic
  | .swap => atomic
  | .cas => atomic

/-- Whether a kind of request may meet a window kind: kind 2 takes only writes. -/
def kindTakes (k : Nat) (kind : MemKind) : Bool := k != 2 || kind == .write

/-- The resolution order of R212 for the location at offset `x` of a BAR: a cause with the window it fell in, or the
target. A descriptor that reads with an uncorrectable error refuses as an entry does (DESIGN CHOICE: the order names the entry alone, log
entry 64). -/
def resolve (s : State) (i bar x : Nat) (kind : MemKind) (e : WttRead) : Except (Nat × Option Nat) Hit :=
  let t := homeTile i
  let r := instOf s i
  match (enabledWins s i).find? (fun k =>
      let w := instWin s i k
      decide (w.kind ≤ 2) && w.bar == bar && decide (w.base ≤ x) && decide (x < w.base + w.size)) with
  | none => .error (missNoWindow, none)
  | some k =>
    let w := instWin s i k
    let at_ := some k
    if e.descBad then .error (missEcc, at_)
    else if w.gen ≠ r.gen then .error (missStale, at_)
    else if ¬ (permits kind w.rd w.wr w.atomic ∧ kindTakes w.kind kind) then .error (missNoPerm, at_)
    else if w.kind = 2 then
      .ok ⟨0, 0, (w.target + (x - w.base)) % 2 ^ 64, some (w.aux % 4096), false, w.base + w.size⟩
    else if w.kind = 0 then
      if localExists s w.port w.sub then
        .ok ⟨w.port, w.sub, (w.target + (x - w.base)) % 2 ^ 64, none, w.prefetch, w.base + w.size⟩
      else .error (missMisconfig, at_)
    else
      let ps := pageSize w.page
      let ent := entWords s t (r.wttBase + w.aux + (x - w.base) / ps)
      let g (k : Nat) : Word := ent.getD k 0
      if e.entryBad then .error (missEcc, at_)
      else if bit (g 0) 31 = false then .error (missInvalid, at_)
      else if fld (g 1) 0 12 ≠ i ∨ fld (g 0) 28 2 ≠ w.page then .error (missMisconfig, at_)
      else if fld (g 1) 24 8 ≠ r.gen then .error (missStale, at_)
      else if permits kind (bit (g 0) 24) (bit (g 0) 25) (bit (g 0) 26) = false then .error (missNoPerm, at_)
      else if localExists s (fld (g 0) 11 5) (fld (g 0) 10 1) then
        .ok ⟨fld (g 0) 11 5, fld (g 0) 10 1, (pair (g 2) (g 3) + (x - w.base) % ps) % 2 ^ 64, none,
             w.prefetch && bit (g 0) 27, w.base + w.size⟩
      else .error (missMisconfig, at_)

/-- The bytes a request of `dws` DWs names by its byte enables: the first and how many to the last (R230). -/
def span (dws : Nat) (fbe lbe : BitVec 4) : Nat × Nat :=
  let first := firstByte fbe
  let top (be : BitVec 4) : Nat := ((List.range 4).reverse.find? (fun k => be.getLsbD k)).getD 0
  let last := if dws ≤ 1 then top fbe else 4 * (dws - 1) + top lbe
  (first, last + 1 - first)

/-- The enables of a request's bytes. -/
def enables (dws : Nat) (fbe lbe : BitVec 4) : List Bool :=
  (List.range (4 * dws)).map (fun k =>
    if k < 4 then fbe.getLsbD k else if 4 * dws ≤ k + 4 then lbe.getLsbD (k % 4) else true)

/-- The contiguous runs of enabled bytes of a write, as offset and data (R166). -/
def runs : Nat → List Bool → List Byte → List (Nat × List Byte)
  | _, [], _ => []
  | k, e :: es, bs =>
    let b := bs.headD 0
    let rest := runs (k + 1) es (bs.drop 1)
    if e then
      match rest with
      | (o, d) :: r => if o = k + 1 then (k, b :: d) :: r else (k, [b]) :: (o, d) :: r
      | [] => [(k, [b])]
    else rest

/-- Whether a request's inbound entry still holds it: its instance's reset or its link's ends it first (R293, R114). -/
def entryHolds (s : State) (r : HReq) : Bool :=
  match r.entry with
  | some (t, e) => (Tbl.get none s.host.inb (t * 1024 + e)).any (fun b => b.inst == r.inst && b.gen == r.gen)
  | none => true

/-- The issuer of a request. -/
def HReq.issuer (r : HReq) : Issuer :=
  match r.entry with
  | some (t, e) => .inbound t e
  | none => .nobody

/-- The frame of a request toward a local port. -/
def HReq.frame (r : HReq) (gen serial : Nat) (h : Hit) (ty : PType) (opx addr len : Nat) (data : List Byte) : Frame :=
  { serial := serial,
    pkt := { ty := ty, cls := ty.class, len := lenField len, inst := r.inst, gen := gen, opx := opx, rlx := r.rlx,
             ns := r.ns, addr := addr, data := data },
    srcTile := linkTile r.link, srcPort := 0, srcSub := r.link % 4, dstTile := h.port / 4, dstPort := 1 + h.port % 4,
    dstSub := h.sub, issuer := r.issuer, mc := h.group.map (fun g => (g, none)),
    locked := if r.kind = .lockedRead then some (fnKey r.link r.fn) else none }

/-- The multicast writes of an instance from a host link that a later read waits for (R228 row 6). -/
def mcBefore (s : State) (i link : Nat) : List Nat :=
  (s.brg.posted.filter (fun r => r.mc && r.resolved && r.inst == i && r.fromHost == some link)).map PostedRec.serial

/-- A stored frame leaves window translation: its cells are free again, or in a receive pool still charged for the frame that takes its
place (R188). -/
def unstore (s : State) (t id : Nat) (x : Stored) : State :=
  if x.acct = .pool then delStored s t id else dropRef s t id

/-- A frame of the host request that stood in a tile's window translation goes to its output, from the port the request came in by. -/
def sendOn (s : State) (t : Nat) (x : Stored) (f : Frame) : State := toOutput s t x.inPort { f with credit := x.f.credit }

/-- One WR of a host write (R166, R215): a multicast one goes to the replicator, which takes it as a frame of its own. -/
def sendWr (s : State) (t : Nat) (x : Stored) (r : HReq) (gen serial : Nat) (h : Hit) (off : Nat) (data : List Byte) : State :=
  let f := r.frame gen serial h .wr 0 ((h.addr + off) % 2 ^ 64) data.length data
  if h.group.isSome then sendIn s t 11 0 { f with dstTile := t, dstPort := 11, dstSub := 0 } else sendOn s t x f

/-- The record of a host's posted write once it is resolved (R221, R228): the slot it goes to, or that it is multicast. -/
def postedWay (s : State) (serial : Nat) (h : Hit) : State :=
  let slot := if h.group.isSome then none else some (slotKey (h.port / 4) (2 * (h.port % 4) + h.sub))
  { s with brg := { s.brg with posted := s.brg.posted.map (fun r =>
      if r.serial = serial then { r with resolved := true, toSlot := slot, mc := h.group.isSome } else r) } }

/-- The WRs of a host write (R166): the first goes on under the write's own serial, each further one as a posted frame of its own. -/
def sendWrs (s : State) (t : Nat) (x : Stored) (r : HReq) (gen : Nat) (h : Hit) (l : List (Nat × List Byte)) : State :=
  match l with
  | [] => settle s x.f.serial
  | (o, d) :: rest =>
    let s := sendWr (postedWay s x.f.serial h) t x r gen x.f.serial h o d
    rest.foldl (fun s y =>
      let (k, s) := newSerial s
      let s := notePosted s { serial := k, inst := r.inst, fromSlot := none, toHost := none, toSlot := none, mc := false,
                              fromHost := some r.link, home := homeTile r.inst }
      sendWr (postedWay s k h) t { x with f := { x.f with credit := none } } r gen k h y.1 y.2) s

/-! ## Prefetch (R216, R217) -/

/-- The numbers of an instance's streams. -/
def streamsOf (s : State) (i : Nat) : List Nat :=
  (List.range 256).filter (fun k => match streamOf s (homeTile i) k with
    | some x => x.inst == i
    | none => false)

/-- The end of a stream's range. -/
def Stream.stop (x : Stream) : Nat := x.start + (x.parts.map Ahead.len).sum

/-- Reads ahead from `pos` to `stop` (R217 step 1): an RD for each 4,096-byte block, up to the first whose resolution
fails or that may not be read ahead. `fuel` bounds the blocks. -/
def readAhead (s : State) (i k bar stop : Nat) : Nat → Nat → State
  | 0, _ => s
  | fuel + 1, pos =>
    let t := homeTile i
    if stop ≤ pos then s
    else match resolve s i bar pos .read ⟨0, false, false⟩, streamOf s t k with
      | .ok h, some x =>
        if h.prefetch = false then s
        else
          let n := Nat.min (stop - pos) (4096 - pos % 4096)
          let (id, s) := newSerial s
          let f : Frame :=
            { serial := id,
              pkt := { ty := .rd, cls := 1, len := lenField n, inst := i, gen := (instOf s i).gen, addr := h.addr },
              srcTile := t, srcPort := 0, dstTile := h.port / 4, dstPort := 1 + h.port % 4, dstSub := h.sub,
              issuer := .stream t (id * 256 + k) }
          let s := setStream s t k (some { x with parts := x.parts ++ [{ id := id, len := n }] })
          let s := { s with wtt := { s.wtt with ahead := s.wtt.ahead ++ [(id, i)] } }
          readAhead (sendIn s t 0 0 f) i k bar stop fuel (pos + n)
      | _, _ => s

/-- Whether the device may read ahead from `pos`, for a read of a prefetchable location whose window ends at `winEnd` (R216, R217). -/
def mayAhead (s : State) (i pos winEnd : Nat) : Bool := gf s (homeTile i) 0x4000014 15 1 == 1 && decide (pos < winEnd)

/-- The end of the read-ahead that starts at `pos` (R217 step 1). -/
def aheadStop (s : State) (i pos winEnd : Nat) : Nat := Nat.min winEnd (pos + 64 * gf s (homeTile i) 0x4000014 0 7)

/-- The least recently used of a tile's streams that has no RD outstanding. -/
def oldestStream (s : State) (t : Nat) : Option Nat :=
  let ok := (List.range 256).filterMap (fun k => match streamOf s t k with
    | some x => if x.parts.all (fun p => p.data.isSome) && x.waiters.isEmpty then some (k, x.used) else none
    | none => none)
  (ok.foldl (fun (m : Option (Nat × Nat)) e => match m with
    | some b => if e.2 < b.2 then some e else some b
    | none => some e) none).map Prod.fst

/-- Takes a stream for a read that has ended at `pos`, and begins its read-ahead (R217 steps 1 and 2). -/
def startStream (s : State) (i bar pos winEnd : Nat) : State :=
  let t := homeTile i
  if mayAhead s i pos winEnd = false then s
  else
    let free := (List.range 256).find? (fun k => (streamOf s t k).isNone)
    let pick := if free.isSome then free else oldestStream s t
    match pick, decide (8192 ≤ gf s t 0x3000018 0 18) with
    | some k, true =>
      let s := dropStream s t k
      let (n, s) := newSerial s
      let s := setStream s t k (some { inst := i, gen := (instOf s i).gen, bar := bar, start := pos, parts := [],
                                       waiters := [], used := n })
      readAhead s i k bar (aheadStop s i pos winEnd) 3 pos
    | _, _ => cf s t 0x400001C 0 16

/-- Drops `n` bytes from the front of a stream's blocks. -/
def dropFront : Nat → List Ahead → List Ahead
  | _, [] => []
  | 0, l => l
  | n + 1, p :: r =>
    if p.len ≤ n + 1 then dropFront (n + 1 - p.len) r
    else { p with len := p.len - (n + 1), data := p.data.map (fun d => d.drop (n + 1)) } :: r
termination_by structural _ l => l

/-- The blocks that hold the bytes from `off`, `len` long. -/
def blocksOf (parts : List Ahead) (off len : Nat) : List Ahead :=
  let ends := parts.foldl (fun (a : List (Ahead × Nat) × Nat) p => (a.1 ++ [(p, a.2)], a.2 + p.len)) ([], 0)
  (ends.1.filter (fun e => decide (off < e.2 + e.1.len) && decide (e.2 < off + len))).map Prod.fst

/-- The stream whose range holds a read wholly (R217 step 3). -/
def streamHit (s : State) (i bar a n : Nat) : Option (Nat × Stream) :=
  (streamsOf s i).findSome? (fun k => match streamOf s (homeTile i) k with
    | some x => if x.bar = bar ∧ x.start ≤ a ∧ a + n ≤ x.stop then some (k, x) else none
    | none => none)

/-- A stream goes on from `stop` with the blocks `rest`, used last now, and is read ahead (R217 step 3). -/
def streamOn (s : State) (r : HReq) (k : Nat) (x : Stream) (stop winEnd : Nat) (rest : List Ahead) : State :=
  let (u, s) := newSerial s
  let s := setStream s (homeTile r.inst) k (some { x with start := stop, parts := rest, used := u })
  if mayAhead s r.inst stop winEnd then
    readAhead s r.inst k r.bar (aheadStop s r.inst stop winEnd) 3 (stop + (rest.map Ahead.len).sum)
  else s

/-- The stored read `id` is served by a stream (R217 step 3): it waits, with its resolution (R213), while an RD for its bytes is
outstanding; else it is answered, the data up to its end is dropped, and the read-ahead goes on from there. -/
def servedBy (s : State) (t id : Nat) (st : Stored) (r : HReq) (h : Hit) (k : Nat) (x : Stream) (a n : Nat) : State :=
  let mine := blocksOf x.parts (a - x.start) n
  if mine.any (fun p => p.data.isNone) then setStream s t k (some { x with waiters := x.waiters ++ [(id, h)] })
  else
    let all := x.parts.flatMap (fun p => p.data.getD (List.replicate p.len 0))
    let s := dropRef s t id
    answer (streamOn (cf s t 0x4000018 0 16) r k x (a + n) h.winEnd (dropFront (a + n - x.start) x.parts)) st.f.issuer 0
      (bytesAt all (a - x.start) n) (mine.any Ahead.ep)

/-- A host write, AtomicOp or locked read discards the streams it overlaps (R217 step 4). -/
def dropOverlap (s : State) (i bar a n : Nat) : State :=
  (streamsOf s i).foldl (fun s k => match streamOf s (homeTile i) k with
    | some x => if x.bar = bar ∧ a < x.stop ∧ x.start < a + n then dropStream s (homeTile i) k else s
    | none => s) s

/-! ## HOST_REQUEST_RESOLVE -/

/-- A change of the inbound entry that holds a request. -/
def setEntry (s : State) (r : HReq) (g : Inb → Inb) : State :=
  match r.entry with
  | some (t, e) =>
    { s with host := { s.host with inb := Tbl.set none s.host.inb (t * 1024 + e) ((Tbl.get none s.host.inb (t * 1024 + e)).map g) } }
  | none => s

/-- The packet a resolved non-posted request becomes (R230, R234). -/
def HReq.out (r : HReq) (gen serial : Nat) (h : Hit) : Frame :=
  let (first, len) := span r.dws r.fbe r.lbe
  match r.kind with
  | .fetchAdd => r.frame gen serial h .atomic 0 h.addr r.data.length r.data
  | .swap => r.frame gen serial h .atomic 1 h.addr r.data.length r.data
  | .cas => r.frame gen serial h .atomic 2 h.addr (r.data.length / 2) r.data
  | _ => r.frame gen serial h .rd 0 ((h.addr + first) % 2 ^ 64) len []

/-- Whether a read is the zero-length read of PCI Express (R229). -/
def HReq.zeroLen (r : HReq) : Bool := r.kind == .read && decide (r.dws ≤ 1) && r.fbe == 0

/-- The packet of a zero-length read on its way to the output that holds it (R229): its RLX lets it pass no earlier write. -/
def zeroFrame (f : Frame) : Frame := { f with cargo := .zeroRead, pkt := { f.pkt with rlx := false, len := 4 } }

/-- A refused host request: a non-posted one completes with Completer Abort, a write is discarded (R212). -/
def refuseReq (s : State) (t id : Nat) (x : Stored) : State := endFrame (dropRef s t id) x.f 2

/-- A resolved request goes on (R21 step 3): a write as its WRs, a read that a stream serves to that stream, any other as one packet; a
read of a prefetchable location that no stream serves notes where the device will read ahead once it has completed (R217). -/
def goOn (s : State) (t id : Nat) (x : Stored) (r : HReq) (h : Hit) : State :=
  let gen := (instOf s r.inst).gen
  let (first, len) := span r.dws r.fbe r.lbe
  let a := r.off + first
  match r.kind with
  | .write =>
    sendWrs (unstore s t id x) t x r gen h (runs 0 (enables r.dws r.fbe r.lbe) (bytesAt r.data 0 (4 * r.dws)))
  | .read =>
    if r.zeroLen then sendOn (unstore s t id x) t x (zeroFrame (r.out gen x.f.serial h))
    else match streamHit s r.inst r.bar a len with
      | some (k, y) => servedBy s t id x r h k y a len
      | none =>
        let s := if h.prefetch then setEntry s r (fun b => { b with ahead := some (r.bar, a + len, h.winEnd) }) else s
        sendOn (unstore s t id x) t x (r.out gen x.f.serial h)
  | _ => sendOn (unstore s t id x) t x (r.out gen x.f.serial h)

/-- What R212 decides for a stored request whose turn has come: a refusal, or its way on, behind the multicast hold of R228. -/
def resolveReq (s : State) (t id : Nat) (x : Stored) (r : HReq) (e : WttRead) : State :=
  let (first, len) := span r.dws r.fbe r.lbe
  let s := if r.kind = .read then s else dropOverlap s r.inst r.bar (r.off + first) len
  match resolve s r.inst r.bar r.off r.kind e with
  | .error (cause, win) => refuseReq (wttEcc (miss s r.inst cause win) r.inst (eccIndex s r.inst (win.getD 0) r.off e) e) t id x
  | .ok h =>
    let s := setEntry (wttEcc s r.inst 0 ⟨e.corrected, false, false⟩) r (fun b => { b with resolved := true })
    let item : Held1 := .request t id h r.inst r.link
    let waits := if r.kind = .write then [] else mcBefore s r.inst r.link
    if r.kind ≠ .write ∧ (waits ≠ [] ∨ s.brg.holds.any (fun g => sameHold g.item item)) then startHold s waits item
    else goOn s t id x r h

/-- An Unlock that has followed its function's requests to the home tile (R113, R225): LOCK_END goes on to each port the function has
locked, and the refusals of R238 end. -/
def unlockAt (s : State) (t id : Nat) (x : Stored) (h f : Nat) : State :=
  (unstore s t id x).lode.locks.foldl (fun s e =>
    let u := e.1 / 8
    let n := e.1 % 8
    let l := lockSt s u n
    let s := setLock s u n { l with ended := l.ended.filter (fun y => y != fnKey h f) }
    match l.holder with
    | some (i, g) =>
      if g = fnKey h f then
        let (k, s) := newSerial s
        sendOn s t { x with f := { x.f with credit := none } }
          { serial := k, pkt := { ty := .lockEnd, cls := 3, inst := i, gen := (instOf s i).gen }, srcTile := linkTile h,
            srcPort := 0, srcSub := h % 4, dstTile := u, dstPort := 1 + n / 2, dstSub := n % 2 }
      else s
    | none => s) (creditOf (unstore s t id x) x)
where
  /-- The credit of a frame that ends here goes back (R153). -/
  creditOf (s : State) (x : Stored) : State := if x.acct = .pool then leavePool s x.f else s

/-- HOST_REQUEST_RESOLVE: the home tile takes the next request that a host port has sent it (R212); one whose resolution stands is not
resolved again (R213). -/
def resolveNext (s : State) (t : Nat) (e : WttRead) : State :=
  match Tbl.get [] s.host.resolve t with
  | [] => s
  | (id, hit) :: rest =>
    let s := { s with host := { s.host with resolve := Tbl.set [] s.host.resolve t rest } }
    match storedOf s t id with
    | none => s
    | some x =>
      match x.f.cargo with
      | .window r =>
        if entryHolds s r = false then settle (dropRef s t id) x.f.serial
        else if portsClosed s t ∨ refusesInstances s t then
          refuseReq (if r.kind = .write then discDown s t 0 else s) t id x
        else match hit with
          | some h => goOn s t id x r h
          | none => resolveReq s t id x r e
      | .unlock h f => unlockAt s t id x h f
      | _ => settle (dropRef s t id) x.f.serial

/-! ## Upstream windows (R214) -/

/-- The host address a packet from local port `l`, sublink `sub` of instance `i` reaches, or the window its refusal fell
in (R214). A descriptor that reads with an uncorrectable error is no window (DESIGN CHOICE: R214 names no such case, log entry 64). -/
def upstream (s : State) (i l sub addr : Nat) (wr descBad : Bool) : Except (Option Nat) Nat :=
  match (if descBad then [] else enabledWins s i).find? (fun k =>
      let w := instWin s i k
      w.kind == 3 && w.gen == (instOf s i).gen && decide (w.base ≤ addr) && decide (addr < w.base + w.size) &&
      (w.anyPort || (w.port == l && w.sub == sub))) with
  | none => .error none
  | some k =>
    let w := instWin s i k
    if (if wr then w.wr else w.rd) then .ok ((w.target + (addr - w.base)) % 2 ^ 64) else .error (some k)

/-! ## Mailbox commands (R218, R220) -/

/-- The window mailbox. -/
abbrev winMb : Nat := 0x4000100

/-- Entry mailbox `m`. -/
abbrev entMb (m : Nat) : Nat := 0x4000200 + 0x80 * m

/-- Whether two spans overlap. -/
def overlap (a n b m : Nat) : Bool := decide (a < b + m) && decide (b < a + n)

/-- Whether a window lies inside the BAR of a bound function (R218 Extent). -/
def winFits (s : State) (h f : Nat) (w : Win) : Bool :=
  decide (2 < w.kind) || decide (w.base + w.size ≤ barLen s h f w.bar)

/-- Whether an enabled descriptor breaks a rule of R218. -/
def winBad (s : State) (t n : Nat) (words : List Word) : Bool :=
  let w := readWin words
  if w.size = 0 then false
  else match winOwner s t n with
    | none => true
    | some i =>
      let r := instOf s i
      let ps := pageSize w.page
      let others := (enabledWins s i).filter (fun k => r.wBase + k != n)
      (w.kind == 1 && (w.base % ps != 0 || w.size % ps != 0 || r.wttCount == 0 ||
        decide (r.wttCount < w.aux + w.size / ps))) ||
      (match r.state, r.fn with
       | .bound, some (h, f) => !winFits s h f w
       | _, _ => false) ||
      others.any (fun k =>
        let o := instWin s i k
        overlap w.base w.size o.base o.size &&
        ((w.kind == 3 && o.kind == 3) || (decide (w.kind ≤ 2) && decide (o.kind ≤ 2) && w.bar == o.bar))) ||
      ((w.kind == 0 || (w.kind == 3 && !w.anyPort)) && !localExists s w.port w.sub)

/-- Whether a valid entry breaks a rule of R218. -/
def entBad (s : State) (t n : Nat) (w : List Word) : Bool :=
  let g (k : Nat) : Word := w.getD k 0
  bit (g 0) 31 &&
  (entOwner s t n != some (fld (g 1) 0 12) || pair (g 2) (g 3) % pageSize (fld (g 0) 28 2) != 0 ||
    !localExists s (fld (g 0) 11 5) (fld (g 0) 10 1))

/-- READ of the window mailbox: OWNED and INSTANCE are the device's. -/
def winRead (s : State) (t : Nat) : State :=
  mbCmd s t winMb 1 (fun s =>
    let n := mbIndex s t winMb
    if 8191 < n then mbEnd s t winMb badIndex
    else
      let w := winWords s t n
      let own := match winOwner s t n with
        | some i => word (2 ^ 31 + i * 2 ^ 16)
        | none => 0
      mbEnd s t winMb (.ok ((w.headD 0 ||| own) :: w.drop 1)))

/-- WRITE of the window mailbox. -/
def winWrite (s : State) (t : Nat) : State :=
  mbCmd s t winMb 2 (fun s =>
    let n := mbIndex s t winMb
    let w := maskWin ((List.range 8).map (mbData s t winMb))
    if 8191 < n then mbEnd s t winMb badIndex
    else if winBad s t n w then mbEnd s t winMb refusedMb
    else mbEnd (setWin s t n w) t winMb (.ok []))

/-- READ of an entry mailbox. -/
def entRead (s : State) (t m : Nat) : State :=
  mbCmd s t (entMb m) 1 (fun s =>
    let n := mbIndex s t (entMb m)
    mbEnd s t (entMb m) (if 2097151 < n then badIndex else .ok (entWords s t n)))

/-- WRITE of an entry mailbox. -/
def entWrite (s : State) (t m : Nat) : State :=
  mbCmd s t (entMb m) 2 (fun s =>
    let n := mbIndex s t (entMb m)
    let w := maskEnt ((List.range 4).map (mbData s t (entMb m)))
    if 2097151 < n then mbEnd s t (entMb m) badIndex
    else if entBad s t n w then mbEnd s t (entMb m) refusedMb
    else mbEnd (setEnt s t n w) t (entMb m) (.ok []))

/-- Entry `k` of a FILL: LOCAL_ADDR grows by the page size (R220). -/
def fillEntry (w : List Word) (k : Nat) : List Word :=
  let a := pair (w.getD 2 0) (w.getD 3 0) + k * pageSize (fld (w.getD 0 0) 28 2)
  [w.getD 0 0, w.getD 1 0, word (a % 2 ^ 32), word (a / 2 ^ 32)]

/-- FILL of an entry mailbox (R220). -/
def entFill (s : State) (t m : Nat) : State :=
  mbCmd s t (entMb m) 3 (fun s =>
    let n := mbIndex s t (entMb m)
    let c := gf s t (0x4000030 + 4 * m) 0 22
    let w := maskEnt ((List.range 4).map (mbData s t (entMb m)))
    if 2097152 < n + c then mbEnd s t (entMb m) badIndex
    else if (List.range c).any (fun k => entBad s t (n + k) (fillEntry w k)) then mbEnd s t (entMb m) refusedMb
    else mbEnd ((List.range c).foldl (fun s k => setEnt s t (n + k) (fillEntry w k)) s) t (entMb m) (.ok []))

/-! ## Instance commands (R221) -/

/-- The command running in a tile. -/
def wttRun (s : State) (t : Nat) : Option WttRun := Tbl.get none s.wtt.run t

/-- Replaces the command running in a tile. -/
def setWttRun (s : State) (t : Nat) (x : Option WttRun) : State :=
  { s with wtt := { s.wtt with run := Tbl.set none s.wtt.run t x } }

/-- A WTT_CMD command ends: BUSY clears, RESULT is set, CMD_DONE is set. -/
def wttEnd (s : State) (t result : Nat) : State :=
  let s := setWttRun s t none
  evt (sf (sf s t 0x4000000 28 2 result) t 0x4000000 31 1 0) t 35 7

/-- The reads of an instance that R212 or R214 has resolved and that are not yet answered. -/
def readsOut (s : State) (i : Nat) : List Issuer :=
  let inb := s.host.inb.filterMap (fun e => match e.2 with
    | some b => if b.inst = i ∧ b.resolved then some (Issuer.inbound (e.1 / 1024) (e.1 % 1024)) else none
    | none => none)
  let held := s.lode.held.filterMap (fun e => match e.2 with
    | some h => if h.pkt.inst = i ∧ ¬ h.pkt.glob then some (Issuer.held (e.1 / 512) (e.1 / 64 % 8) (e.1 % 64) 0) else none
    | none => none)
  inb ++ held

/-- A write of WTT_CMD with an OP (R221): ignored while BUSY. -/
def wttCmd (s : State) (t op i : Nat) : State :=
  if gf s t 0x4000000 31 1 = 1 then s else
  let s := sf (sf s t 0x4000000 24 4 op) t 0x4000000 0 12 i
  if ¬ (op = 1 ∨ op = 2) then s
  else if i / 512 ≠ t then wttEnd s t 1
  else if (instOf s i).state = .free then wttEnd s t 0
  else
    let s := sf s t 0x4000000 31 1 1
    let s := if op = 1 then dropStreams s i else s
    let posted := (s.brg.posted.filter (fun r => r.inst == i && r.resolved && (r.fromHost.isSome || r.fromSlot.isSome))).map
      PostedRec.serial
    setWttRun s t (some ⟨op, i, if op = 1 then posted else [], if op = 1 then readsOut s i else [],
      if op = 1 then (s.wtt.ahead.filter (fun a => a.2 == i)).map Prod.fst else [], (instOf s i).gen⟩)

/-- Whether a read that FENCE waits for is still unanswered. -/
def readPending (s : State) (x : Issuer) : Bool :=
  match x with
  | .inbound t e => (Tbl.get none s.host.inb (t * 1024 + e)).isSome
  | .held t n k _ => (heldRd s t n k).isSome
  | .nobody => false
  | .dmaTag _ _ => false
  | .dmaWr _ _ => false
  | .stream _ _ => false
  | .lock _ _ => false

/-- FENCE_COMPLETE: FENCE ends once every request it waits for has ended. -/
def fenceEnd (s : State) (t : Nat) : State :=
  match wttRun s t with
  | some r =>
    if r.op = 1 ∧ r.waits.any (fun w => s.brg.posted.any (fun p => p.serial == w)) = false ∧
        r.reads.any (readPending s) = false ∧ s.wtt.ahead.any (fun a => r.aheads.contains a.1) = false then wttEnd s t 0 else s
  | none => s

/-- Stamps the generation `gen` into a descriptor. -/
def stampWin (s : State) (t n gen : Nat) : State :=
  let w := winWords s t n
  setWin s t n (w.set 1 (setFld (w.getD 1 0) 24 8 gen))

/-- Stamps the generation into an entry with VALID = 1. -/
def stampEnt (s : State) (t n gen : Nat) : State :=
  let w := entWords s t n
  if bit (w.getD 0 0) 31 then setEnt s t n (w.set 1 (setFld (w.getD 1 0) 24 8 gen)) else s

/-- RESTAMP over the ranges of an instance: every item that `pick` names. -/
def stampAll (s : State) (i gen : Nat) (pick : Nat → Bool) : State :=
  let r := instOf s i
  let t := homeTile i
  let s := (List.range r.wCount).foldl (fun s k => if pick k then stampWin s t (r.wBase + k) gen else s) s
  (List.range r.wttCount).foldl (fun s k => if pick (r.wCount + k) then stampEnt s t (r.wttBase + k) gen else s) s

/-- RESTAMP_COMPLETE (R221): every descriptor and valid entry stamped; with the generation changed meanwhile, the command
ends with PREEMPTED, and which items it had stamped before is open (free values, log entry 7). -/
def restampEnd (s : State) (t : Nat) : State :=
  match wttRun s t with
  | some r =>
    if r.op ≠ 2 then s
    else if (instOf s r.inst).gen = r.gen then wttEnd (stampAll s r.inst r.gen (fun _ => true)) t 0
    else
      let n := s.fresh
      let items := (instOf s r.inst).wCount + (instOf s r.inst).wttCount
      wttEnd (tickFresh (stampAll s r.inst r.gen (fun k => Config.freeBit (n + k))) items) t 2
  | none => s

/-! ## Meanings -/

/-- Whether a tile has a mailbox of four. -/
def mbOk (s : State) (t m : Nat) : Bool := decide (t < s.part.tiles) && decide (m < 4)

/-- HOST_REQUEST_RESOLVE (R212). -/
def execHostRequestResolve (t : Nat) (read : WttRead) (s : State) : Res := onTile s t (unfenced s t (resolveNext s t read))

/-- PREFETCH_AGE_EXPIRY (R217 step 4): data of a stream has reached AGE. -/
def execPrefetchAgeExpiry (t k : Nat) (s : State) : Res :=
  onUnit (decide (t < s.part.tiles) && decide (k < 256)) <|
    match streamOf s t k with
    | some x => if x.parts.any (fun p => p.data.isSome) then unfenced s t (dropStream s t k) else s
    | none => s

/-- FENCE_COMPLETE (R221). -/
def execFenceComplete (t : Nat) (s : State) : Res := onTile s t (unfenced s t (fenceEnd s t))

/-- RESTAMP_COMPLETE (R221). -/
def execRestampComplete (t : Nat) (s : State) : Res := onTile s t (unfenced s t (restampEnd s t))

end Sys2Proof.Machine
end

