-- ==== Sys2Proof/Machine/InsCmd.lean ====
section
/-! DEFINITION. The commands of the instance mailboxes and the instance page's own actions (14): create and remove (R286,
R287), bind and unbind (R288, R289), weights (R291), freeze (R296, R298), the dirty log (R301, R304, R308). -/

namespace Sys2Proof.Machine

open Sys2Proof

/-! ## The mailboxes -/

/-- Instance mailbox `m`. -/
abbrev insMb (m : Nat) : Nat := 0x6000100 + 0x80 * m

/-- Refusal reasons (R285). -/
abbrev whyState : Nat := 1
abbrev whyMode : Nat := 2
abbrev whyPool : Nat := 3
abbrev whyRange : Nat := 4
abbrev whyBudget : Nat := 5
abbrev whyLink : Nat := 6
abbrev whyNoFn : Nat := 7
abbrev whyFnBusy : Nat := 8
abbrev whyBar : Nat := 9
abbrev whyBusy : Nat := 10
abbrev whyPreempted : Nat := 11

/-- The command running on an instance, by its mailbox. -/
def setBusy (s : State) (i : Nat) (x : Option Nat) : State :=
  { s with ins := { s.ins with busy := Tbl.set none s.ins.busy i x } }

/-- Ends a command with REFUSED and a reason. -/
def insRefuse (s : State) (t m why : Nat) : State :=
  mbEnd (sf s t (0x6000020 + 4 * m) 0 8 why) t (insMb m) refusedMb

/-- Whether the tile's mode allows a command: COMPOSE and SERVICE, and with `deg` degraded RECOVERY (R285). -/
def insModeOk (s : State) (t : Nat) (deg : Bool) : Bool :=
  mode s t == 2 || mode s t == 3 || (deg && mode s t == 4 && !(tileSt s t).fenced)

/-- A command of an instance mailbox (R285): an index of another tile ends it with BAD_INDEX; a command already running on
the instance, the mode, the state, then the command's own checks refuse it; else it runs. -/
def insCmd (s : State) (t m op : Nat) (modeOk : State → Bool) (stateOk : Inst → Bool)
    (own : State → Nat → Option Nat) (run : State → Nat → State) : State :=
  mbCmd s t (insMb m) op (fun s =>
    let i := mbIndex s t (insMb m)
    if i / 512 ≠ t then mbEnd s t (insMb m) badIndex
    else if (Tbl.get none s.ins.busy i).isSome then insRefuse s t m whyBusy
    else
      let s := setBusy s i (some m)
      if modeOk s = false then insRefuse s t m whyMode
      else if stateOk (instOf s i) = false then insRefuse s t m whyState
      else match own s i with
        | some why => insRefuse s t m why
        | none => run s i)

/-- The end of a mailbox command shown (R84, R309): the instance takes another command, and CMD_DONE is set for every
command but READ. A command that named no instance of the tile leaves the instance of INS_EVT_LAST open: log entry 7. -/
def insMbFinish (s : State) (t m : Nat) : State :=
  let op := gf s t (insMb m) 24 4
  let i := mbIndex s t (insMb m)
  match Tbl.get .running s.bus.mb (key t (insMb m)) with
  | .running => s
  | _ =>
    let s := mbFinish s t (insMb m)
    if op = 1 then s
    else if i / 512 = t then
      insEvent (if Tbl.get none s.ins.busy i = some m then setBusy s i none else s) i 0
    else
      let n := (Config.freeWord s.fresh).toNat % 4096
      evt (wreg (tickFresh s) t 0x6000008 (word (2 ^ 28 + n))) t 38 0

/-! ## Creating and removing -/

/-- The instances of a tile that hold resources, but for `i`. -/
def othersOf (s : State) (i : Nat) : List Inst :=
  (s.ins.recs.filter (fun e => e.1 / 512 == i / 512 && e.1 != i && e.2.state != .free)).map Prod.snd

/-- A pool's record. -/
def poolOf (s : State) (t p : Nat) : PoolRec := Tbl.get {} s.ins.pools (t * 16 + p)

/-- Whether the instances `l` fit a pool's amounts, SHARE_BUDGET apart (R35). -/
def poolHolds (p : PoolRec) (l : List Inst) : Bool :=
  decide (l.length ≤ p.instances) && decide ((l.map Inst.qCount).sum ≤ p.queues) &&
  decide ((l.map Inst.wCount).sum ≤ p.windows) && decide ((l.map Inst.wttCount).sum ≤ p.wttEntries) &&
  decide ((l.map Inst.etCount).sum ≤ p.evcTargets) && decide ((l.map Inst.vCount).sum ≤ p.vectors)

/-- The record CREATE's data words give (R284, R286). -/
def newInst (s : State) (t m i : Nat) : Inst :=
  let w (k : Nat) : Word := mbData s t (insMb m) k
  { state := .unbound, gen := ((instOf s i).gen + 1) % 256, pool := fld (w 0) 12 4, weight := fld (w 1) 0 16,
    qCount := Nat.min 256 (fld (w 3) 16 9), qBase := fld (w 3) 0 14,
    etCount := Nat.min 64 (fld (w 4) 24 7), wCount := Nat.min 64 (fld (w 4) 16 7), wBase := fld (w 4) 0 13,
    etBase := fld (w 5) 22 10, wttBase := fld (w 5) 0 21, wttCount := Nat.min 2097152 (fld (w 6) 0 22),
    vCount := Nat.min 2048 (fld (w 7) 16 12), vBase := fld (w 7) 0 16 }

/-- Whether a range passes a capacity or meets one of another instance; a count of 0 takes nothing. -/
def rangeBad (cap base count : Nat) (others : List (Nat × Nat)) : Bool :=
  count != 0 && (decide (cap < base + count) || others.any (fun o => o.2 != 0 && overlap base count o.1 o.2))

/-- Whether one of the five ranges is bad (R286). -/
def rangesBad (r : Inst) (o : List Inst) : Bool :=
  rangeBad 16384 r.qBase r.qCount (o.map (fun x => (x.qBase, x.qCount))) ||
  rangeBad 8192 r.wBase r.wCount (o.map (fun x => (x.wBase, x.wCount))) ||
  rangeBad 2097152 r.wttBase r.wttCount (o.map (fun x => (x.wttBase, x.wttCount))) ||
  rangeBad 1024 r.etBase r.etCount (o.map (fun x => (x.etBase, x.etCount))) ||
  rangeBad 65536 r.vBase r.vCount (o.map (fun x => (x.vBase, x.vCount)))

/-- CREATE's own checks, in their order (R286). -/
def createBad (s : State) (t m i : Nat) : Option Nat :=
  let r := newInst s t m i
  let o := othersOf s i
  let mates := o.filter (fun x => x.pool == r.pool)
  let p := poolOf s t r.pool
  if poolHolds p (r :: mates) = false then some whyPool
  else if rangesBad r o then some whyRange
  else if p.shareBudget < ((r :: mates).map Inst.weight).sum then some whyBudget
  else none

/-- CREATE (R286). -/
def create (s : State) (t m : Nat) : State :=
  insCmd s t m 3 (fun s => insModeOk s t false) (fun r => r.state == .free) (fun s i => createBad s t m i) (fun s i =>
    let s := setInst s i (newInst s t m i)
    let s := (instQueues s i).foldl (fun s q => queueClear s t q false) s
    mbEnd (evcInstInit (clearVectors s i) i) t (insMb m) (.ok []))

/-- REMOVE (R287): an instance reset, then FREE. -/
def remove (s : State) (t m : Nat) : State :=
  insCmd s t m 4 (fun s => insModeOk s t true) (fun r => r.state == .unbound) (fun _ _ => none) (fun s i =>
    startReset s i { step := 0, flr := false, mb := some (insMb m), removing := true })

/-! ## Binding -/

/-- The function table's entry of a function (R99). -/
def setBind (s : State) (h f : Nat) (x : Option Nat) : State :=
  { s with host := { s.host with bind := Tbl.set none s.host.bind (fnKey h f) x } }

/-- BIND's own checks, in their order (R288). -/
def bindBad (s : State) (t m i : Nat) : Option Nat :=
  let w := mbData s t (insMb m) 2
  let h := fld w 16 5
  let f := fld w 0 15
  if bit (poolOf s t (instOf s i).pool).linkMask h = false then some whyLink
  else match fnRefOf (pfsOf s h) f with
    | none => some whyNoFn
    | some r =>
      if r.pf.manager then some whyNoFn
      else if (boundInst s h f).isSome then some whyFnBusy
      else if (enabledWins s i).any (fun k => !winFits s h f (instWin s i k)) then some whyBar
      else none

/-- On a change of link, queues with a ring in the previous host's memory become DISABLED (R288). -/
def disableHostQueues (s : State) (t i : Nat) : State :=
  (instQueues s i).foldl (fun s q =>
    if qKind s t q = 0 ∨ qf s t q 4 29 1 = 0 then setQf (dropFetched s t q) t q 0 28 4 0 else s) s

/-- Messages of an instance that its PBA holds are tried again (R106). -/
def retryPba (s : State) (i : Nat) : State :=
  (s.host.pba.filter (fun e => e.1 / 2048 == i)).foldl (fun s e => retryVec s i (e.1 % 2048)) s

/-- BIND (R288). -/
def bindInst (s : State) (t m : Nat) : State :=
  insCmd s t m 5 (fun s => insModeOk s t false) (fun r => r.state == .unbound) (fun s i => bindBad s t m i) (fun s i =>
    let w := mbData s t (insMb m) 2
    let h := fld w 16 5
    let f := fld w 0 15
    let r := instOf s i
    let s := setBind (setInst s i { r with state := .bound, fn := some (h, f), lastLink := some h }) h f (some i)
    let s := if r.lastLink.any (fun l => l != h) then
        let s := setInst s i { instOf s i with hseq := (r.hseq + 1) % 65536, fromLink := r.lastLink.getD 0 }
        disableHostQueues (instEvent s i 3) t i
      else s
    mbEnd (retryPba s i) t (insMb m) (.ok []))

/-- Ends a binding (R289). -/
def unbindInst (s : State) (i : Nat) : State :=
  match (instOf s i).fn with
  | some (h, f) =>
    let s := logEnd (endLocks (setBind s h f none) h f) i
    setInst s i { instOf s i with state := .unbound, fn := none }
  | none => s

/-- UNBIND (R289). -/
def unbindCmd (s : State) (t m : Nat) : State :=
  insCmd s t m 6 (fun s => insModeOk s t true) (fun r => r.state == .bound && r.frozen) (fun _ _ => none) (fun s i =>
    mbEnd (unbindInst s i) t (insMb m) (.ok []))

/-- A host-link event removed the bound function (R50, R289). -/
def unbindByLink (s : State) (i : Nat) : State := insEvent (unbindInst s i) i 2

/-! ## Freeze, resume, reset, weight -/

/-- FREEZE, steps 1 and 2 (R296). -/
def freezeCmd (s : State) (t m : Nat) : State :=
  insCmd s t m 7 (fun s => insModeOk s t false) (fun r => r.state != .free && !r.frozen) (fun _ _ => none) (fun s i =>
    let w := mbData s t (insMb m) 2
    let r := instOf s i
    let s := setInst s i { r with frozen := true, released := false, handover := bit w 31, toLink := fld w 26 5 }
    let s := dropStreams (instEvent s i 1) i
    let s := (instQueues s i).foldl (fun s q => dropFetched s t q) s
    notice { s with ins := { s.ins with freezes := Tbl.set none s.ins.freezes i (some (insMb m)) } } i 1)

/-- Whether a queue of a frozen instance has started descriptors or an entry it still writes; one that has halted stays HALTED. -/
def queueRuns (s : State) (t q : Nat) : Bool :=
  let e := eng s t q
  !e.runs.isEmpty || e.settling || e.skipped.any (fun x => x.2)

/-- FREEZE ends (R296 steps 3 and 4): started descriptors, resolved host reads, and the instance's reads and writes have
ended, and no instance reset runs (R307). -/
def freezeEnd (s : State) (i : Nat) : State :=
  match Tbl.get none s.ins.freezes i with
  | none => s
  | some mb =>
    let t := homeTile i
    let reads := s.dma.tags.any (fun e => e.1 / 4096 == t && e.2.any (fun g => g.inst == i && !g.quar))
    if (instOf s i).resetting ∨ (instQueues s i).any (queueRuns s t) ∨ ¬ (readsOut s i).isEmpty ∨ reads ∨
        s.wtt.ahead.any (fun a => a.2 == i) ∨ writesOnWay s i then s
    else mbEnd { s with ins := { s.ins with freezes := Tbl.set none s.ins.freezes i none } } t mb (.ok [])

/-- RESUME (R298). -/
def resumeCmd (s : State) (t m : Nat) : State :=
  insCmd s t m 8 (fun s => insModeOk s t false) (fun r => r.frozen) (fun _ _ => none) (fun s i =>
    let s := setInst s i { instOf s i with frozen := false, released := false }
    mbEnd (notice (instEvent s i 2) i 2) t (insMb m) (.ok []))

/-- RESET of the mailbox (R285, R293). -/
def resetCmd (s : State) (t m : Nat) : State :=
  insCmd s t m 9 (fun s => insModeOk s t true) (fun r => r.state != .free) (fun _ _ => none) (fun s i =>
    startReset s i { step := 0, flr := false, mb := some (insMb m) })

/-- SET_WEIGHT (R291). -/
def setWeightCmd (s : State) (t m : Nat) : State :=
  let w (s : State) : Nat := fld (mbData s t (insMb m) 1) 0 16
  insCmd s t m 10 (fun s => insModeOk s t false) (fun r => r.state != .free)
    (fun s i =>
      let r := instOf s i
      let mates := (othersOf s i).filter (fun x => x.pool == r.pool)
      if (poolOf s t r.pool).shareBudget < w s + (mates.map Inst.weight).sum then some whyBudget else none)
    (fun s i => mbEnd (setInst s i { instOf s i with weight := w s }) t (insMb m) (.ok []))

/-! ## The dirty log -/

/-- LOG_CLEAR of the mailbox (R304). -/
def logClearCmd (s : State) (t m : Nat) : State :=
  insCmd s t m 11 (fun s => insModeOk s t false) (fun r => r.state == .bound)
    (fun s i => if bit (logOf s i).cfg 0 then none else some whyState)
    (fun s i => logClear s i (some (insMb m)))

/-- CLEAR written in LOG_CMD (R304, R308): it starts while no CLEAR runs. -/
def logCmdClear (s : State) (i : Nat) : State :=
  if (instOf s i).state = .free ∨ bit (logOf s i).state 31 then s else logClear s i none

/-- CLEAR ends (R304). -/
def logClearEnd (s : State) (i : Nat) : State :=
  let l := logOf s i
  let t := homeTile i
  if bit l.state 31 = false ∨ l.clearEnts ≠ 0 ∨ l.clearWaits.any (fun w => s.brg.posted.any (fun p => p.serial == w)) then s
  else
    let kept := (Tbl.get [] s.ins.filter t).filter (fun e => e.1 != i || e.2.1 == l.round)
    let s := { s with ins := { s.ins with filter := Tbl.set [] s.ins.filter t kept } }
    let s := sf s t 0x600000C 0 17 kept.length
    let s := setLog s i { l with state := setBit l.state 31 false, clearWaits := [], clearMb := none, lost := false,
                                 clearTail := word (b2n l.lost * 2 ^ 31 + l.newAt) }
    match l.clearMb with
    | some mb => mbEnd s t mb (.ok [word l.newAt])
    | none => s

/-- Setting LOG_CFG.EN (R308): TAIL takes LOG_HEAD, PHASE 1, a new round. -/
def logEnable (s : State) (i : Nat) : State :=
  let l := logOf s i
  if (instOf s i).state = .free ∨ bit l.cfg 0 then s
  else setLog s i { l with cfg := setBit l.cfg 0 true, round := l.round + 1,
                           state := setBit (setFld l.state 0 20 l.head) 28 true }

/-- INST_CTRL.RELEASE written (R299, R308). -/
def releaseInst (s : State) (i : Nat) : State :=
  let r := instOf s i
  if r.frozen then insEvent (setInst s i { r with released := true }) i 5 else s

/-- READ of an instance's record (R285). -/
def instRead (s : State) (t m : Nat) : State :=
  mbCmd s t (insMb m) 1 (fun s =>
    let i := mbIndex s t (insMb m)
    mbEnd s t (insMb m) (if i / 512 = t then .ok (instWords s i) else badIndex))

/-- WRITE of an instance's record (R285): REFUSED, WRONG_STATE. -/
def instWrite (s : State) (t m : Nat) : State :=
  insCmd s t m 2 (fun _ => true) (fun _ => false) (fun _ _ => none) (fun s _ => s)

/-! ## Meanings -/

/-- FREEZE_COMPLETE (R296). -/
def execFreezeComplete (i : Nat) (s : State) : Res := onUnit (instOk s i) (unfenced s (homeTile i) (freezeEnd s i))

/-- LOG_CLEAR_COMPLETE (R304). -/
def execLogClearComplete (i : Nat) (s : State) : Res := onUnit (instOk s i) (unfenced s (homeTile i) (logClearEnd s i))

/-- DIRTY_LOG_ENTRY_WRITE (R301). -/
def execDirtyLogEntryWrite (i : Nat) (s : State) : Res := onUnit (instOk s i) (unfenced s (homeTile i) (logDrain s i))

end Sys2Proof.Machine
end

