-- ==== Sys2Proof/Machine/Str.lean ====
section
/-! DEFINITION. The image controller (02): the image in force applied at its scopes (R49, R50), the choice at start-up
(R46), and the meanings of its commands (R47, R48). -/

namespace Sys2Proof.Machine

open Sys2Proof

/-! ## Applying the image -/

/-- PORTS of a tile (R33, R10, R11, R139, R161). -/
def applyPorts (s : State) (t : Nat) (p : PortsRec) : State :=
  let s := { s with host := { s.host with
    hostBif := Tbl.set 0 s.host.hostBif t p.hostBif
    maxRate := (List.range 4).foldl (fun tb k => Tbl.set 0 tb (4 * t + k) p.maxRate) s.host.maxRate } }
  (List.range 8).foldl (fun s n =>
    let two := p.localBif / 2 ^ (n / 2) % 2 == 1
    let there := n % 2 == 0 || two
    let rate := p.localRate / 4 ^ (n / 2) % 4 + 1
    let s := sf s t (lnk n 0x40) 0 11 (if two then 512 else if there then 1024 else 0)
    let s := sf s t (lnk n 0xC) 16 16 (if there then p.lodeId.getD n 0 else 0)
    let s := sf s t (lnk n 0x54) 0 14 (if two then 1024 else 2048)
    let s := sf (sf s t (lnk n 4) 10 2 rate) t (lnk n 4) 8 2 (if two then 2 else 3)
    { s with lode := { s.lode with localRate := Tbl.set 3 s.lode.localRate (slotKey t n) rate } }) s

/-- POOLS of a tile (R35). -/
def applyPools (s : State) (t : Nat) (x : Image) : State :=
  let s := { s with ins := { s.ins with pools := Tbl.keep (fun k => k / 16 != t) s.ins.pools } }
  (x.pools.filter (fun p => p.1 == t)).foldl (fun s p =>
    { s with ins := { s.ins with pools := Tbl.set {} s.ins.pools (t * 16 + p.2.1) p.2.2 } }) s

/-- A source's EVC_SRC under one record (R36, R310). -/
def evcSrcUnder (t src : Nat) (v : Word) (r : EvcRec) : Word :=
  match r with
  | .range tile first last group prio flags _ =>
    if tile = t ∧ first ≤ src ∧ src ≤ last then
      let v := setFld v 16 8 group
      if 26624 ≤ src ∧ src < 26638 then v
      else
        let v := setFld (setFld v 24 4 prio) 31 1 flags
        if 22528 ≤ src ∧ src < 22592 then setFld (setFld v 30 1 (flags / 2)) 29 1 (flags / 4) else v
    else v
  | .hold _ _ _ => v

/-- Whether a record names a source of the tile. -/
def evcNames (t src : Nat) (r : EvcRec) : Bool :=
  match r with
  | .range tile first last _ _ _ _ => tile == t && decide (first ≤ src) && decide (src ≤ last)
  | .hold _ _ _ => false

/-- EVCMAP of a tile (R36, R310, R316, R328): over the values an absent EVCMAP gives. -/
def applyEvc (s : State) (t : Nat) (x : Image) : State :=
  let lo := key t 0x7020000
  let named := (List.range 32768).filter (fun src => x.evc.any (evcNames t src))
  let srcs := named.filterMap (fun src =>
    let d := regReset t (evcSrc src)
    let v := x.evc.foldl (fun v r => evcSrcUnder t src v r) d
    if v = d then none else some (lo + 4 * src, v))
  let s := { s with regs := s.regs.filter (fun e => e.1 < lo) ++ srcs ++ s.regs.filter (fun e => lo + 131072 ≤ e.1) }
  let s := x.evc.foldl (fun s r =>
    match r with
    | .range tile first last _ _ _ glitch =>
      if tile = t then
        (List.range 64).foldl (fun s p =>
          if first ≤ 22528 + p ∧ 22528 + p ≤ last then sf s t (0x7046000 + 4 * p) 0 8 glitch else s) s
      else s
    | .hold tile g us => if tile = t then sf s t (0x7044000 + 4 * g) 0 16 us else s) s
  s.evc.pins.foldl (fun s e => if e.1 / 64 = t then sf s t (0x7046000 + 4 * (e.1 % 64)) 31 1 (b2n e.2) else s) s

/-- SWITCH, in every tile (R37, R206). -/
def applySwitch (s : State) (x : Image) : State :=
  (List.range s.part.tiles).foldl (fun s t =>
    let s := (List.range 4).foldl (fun s c =>
      let (w, a) := match (x.switch.filter (fun r => r.1 == c)).getLast? with
        | some (_, w, a) => (w, a)
        | none => (8, 1000)
      wreg s t (0x3000000 + 4 * c) (word (a * 65536 + w))) s
    wreg s t 0x3000010 (word x.cut)) s

/-- MCAST (R38, R199): members as 2 × local port + sublink, each once. -/
def applyMcast (s : State) (x : Image) : State :=
  let members (l : List Nat) : List Nat := l.foldl (fun a m => insNat (m % 32 * 2 + m / 32) a) []
  { s with swc := { s.swc with groups := x.mcast.foldl (fun tb g => Tbl.set [] tb g.1 (members g.2)) [] } }

/-- FAULT, over the classes and timers of R332 (R39, R348); class B of a cause that cannot be attributed acts as C (R333). -/
def applyFault (s : State) (x : Image) : State :=
  (List.range s.part.tiles).foldl (fun s t =>
    (List.range 14).foldl (fun s b =>
      (List.range 8).foldl (fun s c =>
        let mine := x.faults.filter (fun r =>
          (r.tile == t || r.tile == 0xFF) && r.block == b && (causesOf r.cause).contains c)
        let w := match faultDefault b c with
          | some (_, fixed, attr) => mine.foldl (fun w r =>
              let cls := if r.cls = 1 ∧ ¬ attr then 2 else r.cls
              setFld (if fixed then w else setFld w 30 2 cls) 0 24 r.us) (word (faultCfgReset b c))
          | none => 0
        wreg s t (fltB b (0x20 + 4 * c)) w) s) s) s

/-! ## A link's shape (R50) -/

/-- The functions an image gives a link, in PF order. -/
def imageShape (x : Image) (h : Nat) : List PfRec :=
  (List.range 8).flatMap (fun p => x.funcs.filter (fun r => r.link == h && r.pf == p))

/-- The manager function's link in an image. -/
def imageManager (x : Image) : Option Nat := (List.find? PfRec.manager x.funcs).map PfRec.link

/-- STR_STATUS.PENDING follows the pending registers. -/
def pendingRefresh (s : State) : State :=
  sf s 0 0xA000000 5 1 (b2n (rreg s 0 0xA000010 != 0 || rreg s 0 0xA000014 != 0))

/-- A link takes the shape `l`: instances whose function is gone are unbound (R50, R289). -/
def takeShape (s : State) (h : Nat) (l : List PfRec) : State :=
  let s := { s with host := { s.host with shape := Tbl.set [] s.host.shape h l
                                          cfg := Tbl.keep (fun x => x / 1024 / 65536 != h) s.host.cfg } }
  (boundTo s h).foldl (fun s i =>
    match (instOf s i).fn with
    | some (_, f) => if (fnRefOf l f).any (fun r => !r.pf.manager) then s else unbindByLink s i
    | none => s) s

/-- A link leaves reset and takes its shape from the active image (R50). A link that the change of the manager function's
place touches keeps its shape until package reset (R49), and so does every link in the recovery shape. -/
def leaveReset (s : State) (h : Nat) : State :=
  if recoveryShape s then s else
  let x := slotRecords s (activeSlot s)
  let old := managerLink s
  let new := imageManager x
  if old ≠ new ∧ (old = some h ∨ new = some h) then s
  else pendingRefresh (sf (takeShape s h (imageShape x h)) 0 0xA000010 h 1 0)

/-- What a tile's reset applies of the active image (R49, R67 step 7): PORTS, POOLS, EVCMAP and its host links' shapes. -/
def applyTile (s : State) (t : Nat) : State :=
  if recoveryShape s then s else
  let x := slotRecords s (activeSlot s)
  let s := match x.ports[t]? with
    | some p => applyPorts s t p
    | none => s
  let s := applyEvc (applyPools s t x) t x
  let s := (List.range 4).foldl (fun s k => leaveReset s (4 * t + k)) s
  pendingRefresh (sf s 0 0xA000014 t 1 0)

/-! ## Start-up (R46, R59) -/

/-- A candidate's image bytes: candidates 1 and 2 the active and inactive MRAM slots, 3 and 4 their flash copies. -/
def candidateBytes (s : State) (active k : Nat) : List Byte :=
  let slot := if k % 2 = 1 then active else 1 - active
  if k ≤ 2 then slotImage s slot else imageBytes (fun n => flashRead s (flashSlot slot) n)

/-- Tries the candidates from `k` on: the first that passes, the load report's entries, the last failure's code. -/
def tryCandidates (s : State) (active : Nat) : Nat → Nat → List Ent → Nat → Option (Nat × Image) × List Ent × Nat
  | 0, _, ents, code => (none, ents, code)
  | n + 1, k, ents, code =>
    let _ := code
    match verifyImage (candidateBytes s active k) s.part.tiles s.otp.floor s.otp.keyHash with
    | (.ok x, e) => (some (k, x), ents ++ e, 0)
    | (.error c, e) =>
      tryCandidates s active n (k + 1) (ents ++ e ++ [{ kind := 3, sect := k, orig := some c, loaded := some 0 }]) c

/-- Copies a flash slot's image into its MRAM slot. -/
def restoreSlot (s : State) (slot : Nat) : State :=
  mramWrite s slot 0 (flashRead s (flashSlot slot) slotBytes)

/-- Step 5 of the start-up: the candidates verified in order, the one that passes made the active slot, and the STR
registers as Fiddlehead leaves them (R46, R47). The answer is the candidate used, 0 for the recovery shape. -/
def chooseImage (s : State) : State × Nat :=
  let active := activeSlot s
  let (found, ents, code) := tryCandidates s active 4 1 [] 0
  let s := putReport s ents ((found.map (fun x => x.2.maker)).getD 0)
  let s := sf (wreg s 0 0xA000008 (word s.otp.floor)) 0 0xA000000 2 1 (b2n s.otp.keyHash.isSome)
  let s := sf s 0 0xA000000 16 8 code
  match found with
  | some (k, x) =>
    let slot := if k % 2 = 1 then active else 1 - active
    let s := if 2 < k then restoreSlot s slot else s
    let s := { s with otp := { s.otp with marker := [slot, slot, slot] } }
    (wreg (sf (sf s 0 0xA000000 0 1 slot) 0 0xA000000 3 1 0) 0 0xA00000C (word x.seq), k)
  | none => (sf (sf s 0 0xA000000 0 1 active) 0 0xA000000 3 1 1, 0)

/-- The recovery shape's manager function (R46, R78): the fused identity, on host link 0. -/
def recoveryFn (s : State) : PfRec :=
  let f := s.core.fuses
  { link := 0, pf := 0, manager := true, vendor := f.vendor.toNat, device := f.device.toNat,
    subVendor := f.subVendor.toNat, subsystem := f.subsystem.toNat, revision := f.revision.toNat,
    classCode := f.classCode.toNat }

/-- Steps 6 and 7 of the start-up: every part of the chosen image applied, in the recovery shape the manager function
alone; GALLERY and the TEST flag are read by the start-up itself. -/
def loadTables (s : State) : State :=
  if recoveryShape s then takeShape s 0 [recoveryFn s]
  else
    let x := slotRecords s (activeSlot s)
    let s := applyFault (applyMcast (applySwitch s x) x) x
    (List.range s.part.tiles).foldl (fun s t =>
      let s := match x.ports[t]? with
        | some p => applyPorts s t p
        | none => s
      let s := applyEvc (applyPools s t x) t x
      (List.range 4).foldl (fun s k => takeShape s (4 * t + k) (imageShape x (4 * t + k))) s) s

/-! ## Commands (R47, R48) -/

/-- A write of STR_CMD (R48): ignored while BUSY; codes 0 and 7 start nothing. PENDING at the write decides whether the
command is blocked. -/
def strCmd (s : State) (cmd : Nat) : State :=
  if s.str.run.isSome then s else
  let s := wreg s 0 0xA000004 (word cmd)
  if cmd = 0 ∨ 6 < cmd then s
  else
    let blocked := gf s 0 0xA000000 5 1 = 1 ∧ (cmd = 1 ∨ cmd = 2 ∨ cmd = 4 ∨ cmd = 5)
    sf { s with str := { s.str with run := some (cmd, decide blocked) } } 0 0xA000000 4 1 1

/-- A flash copy of a slot starts, or waits behind the one running (R48). -/
def startCopy (s : State) (slot : Nat) : State :=
  sf { s with str := { s.str with copies := s.str.copies ++ [slot] } } 0 0xA000000 7 1 1

/-- A command's code: OK or a result code (R47). -/
abbrev StrRes := State × Nat

/-- The inactive slot has been written: it is no longer verified. -/
def unverify (s : State) : State := sf s 0 0xA000000 1 1 0

/-- VERIFY (R46, R51). -/
def strVerify (s : State) : StrRes :=
  let img := slotImage s (1 - activeSlot s)
  let r := verifyImage img s.part.tiles s.otp.floor s.otp.keyHash
  let s := putReport s r.2 (leAt img 0x18 4)
  match r.1 with
  | .ok _ => (sf s 0 0xA000000 1 1 1, 0)
  | .error c => (unverify s, c)

/-- The links whose functions or vendor-specific capabilities two images give differently. -/
def linksDiffer (old new : Image) (n : Nat) : List Nat :=
  (List.range n).filter (fun h => imageShape old h != imageShape new h)

/-- The tiles whose PORTS, POOLS or EVCMAP records two images give differently. -/
def tilesDiffer (old new : Image) (n : Nat) : List Nat :=
  let evcOf (x : Image) (t : Nat) : List EvcRec := x.evc.filter (fun r => match r with
    | .range u _ _ _ _ _ _ => u == t
    | .hold u _ _ => u == t)
  (List.range n).filter (fun t =>
    old.ports[t]? != new.ports[t]? ||
    old.pools.filter (fun p => p.1 == t) != new.pools.filter (fun p => p.1 == t) || evcOf old t != evcOf new t)

/-- Whether two images differ in something only a package reset applies. -/
def packageDiffer (old new : Image) : Bool :=
  imageManager old != imageManager new || old.gallery != new.gallery || old.test != new.test

/-- ACTIVATE (R49): one update of the marker; SWITCH, MCAST and FAULT act at once, the rest awaits its scope. In the
recovery shape everything awaits package reset (R63). -/
def strActivate (s : State) : StrRes :=
  if gf s 0 0xA000000 1 1 = 0 then (s, 10) else
  let was := activeSlot s
  let slot := 1 - was
  let old := slotRecords s was
  let new := slotRecords s slot
  let s := { s with otp := { s.otp with marker := [slot, slot, slot] } }
  let s := wreg (sf (unverify s) 0 0xA000000 0 1 slot) 0 0xA00000C (word new.seq)
  let s :=
    if recoveryShape s then sf s 0 0xA000014 8 1 1
    else
      let s := applyFault (applyMcast (applySwitch s new) new) new
      let s := (linksDiffer old new (4 * s.part.tiles)).foldl (fun s h => sf s 0 0xA000010 h 1 1) s
      let s := (tilesDiffer old new s.part.tiles).foldl (fun s t => sf s 0 0xA000014 t 1 1) s
      if packageDiffer old new then sf s 0 0xA000014 8 1 1 else s
  (startCopy (pendingRefresh s) slot, 0)

/-- COMMIT_FLOOR (R45): the floor never falls; in the recovery shape no image is active until ACTIVATE has made one so. -/
def strFloor (s : State) : StrRes :=
  if recoveryShape s ∧ gf s 0 0xA000014 8 1 = 0 then (s, 0) else
  let f := Nat.max s.otp.floor (slotRecords s (activeSlot s)).secVer
  (wreg { s with otp := { s.otp with floor := f } } 0 0xA000008 (word f), 0)

/-- ENROL (R43). A body of another MAGIC or FORMAT ends with BAD_HEADER and a KEY_KIND other than 2 with KEY_MISMATCH: no rule names their
codes, nor the order of the checks (DESIGN CHOICE: log entries 34 and 67). -/
def strEnrol (s : State) : StrRes :=
  let rec_ := slotRead s (1 - activeSlot s) 848
  let body := rec_.take 64
  let sig := bytesAt rec_ 64 784
  if s.otp.keyHash.isSome then (s, 9)
  else if leAt body 0 4 ≠ 0x4D5A454E ∨ leAt body 4 4 ≠ 1 then (s, 1)
  else if sigOk sig body = false then (s, 2)
  else if leAt sig 4 4 ≠ 2 ∨ keyHashOf sig ≠ s.core.fuses.rootHash then (s, 3)
  else
    let s := { s with otp := { s.otp with keyHash := some (BitVec.ofNat 256 (beNat (bytesAt body 16 32)))
                                          makerId := leAt body 8 4 } }
    (sf s 0 0xA000000 2 1 1, 0)

/-- ERASE_INACTIVE (R48): what an erased byte reads as is log entry 5's. -/
def strErase (s : State) : StrRes :=
  let slot := 1 - activeSlot s
  let a := slot * 0x200000
  (unverify { s with mem := { s.mem with mram := s.mem.mram.filter (fun c => c.1 < a || a + slotBytes ≤ c.1) } }, 0)

/-- What a command does by its code. -/
def strRun (s : State) (cmd : Nat) : StrRes :=
  match cmd with
  | 1 => strVerify s
  | 2 => strActivate s
  | 3 => strFloor s
  | 4 => strEnrol s
  | 5 => strErase s
  | _ => (startCopy (startCopy s 0) 1, 0)

/-- The running command ends (R48). -/
def strDone (s : State) : State :=
  match s.str.run with
  | none => s
  | some (cmd, blocked) =>
    let (s, code) := if blocked then (s, 8) else strRun s cmd
    sf (sf { s with str := { s.str with run := none } } 0 0xA000000 16 8 code) 0 0xA000000 4 1 0

/-- The flash copy running ends: the slot's bytes are in flash, and the next copy begins (R44, R48). -/
def copyDone (s : State) : State :=
  match s.str.copies with
  | [] => s
  | slot :: rest =>
    let s := flashWrite { s with str := { s.str with copies := rest } } (flashSlot slot) (slotRead s slot slotBytes)
    sf s 0 0xA000000 7 1 (b2n (!rest.isEmpty))

/-- A write of STR_IMG_DATA (R47, R48): ignored while PENDING and beyond 1 MiB; the address advances. -/
def imgWrite (s : State) (be : BitVec 4) (v : Word) : State :=
  let a := (rreg s 0 0xA000020).toNat
  let slot := 1 - activeSlot s
  let s' := if gf s 0 0xA000000 5 1 = 1 ∨ slotBytes ≤ a then s
    else unverify (mramWrite s slot a (wordBytes (mergeBytes (word (leNat (mramRead s slot a 4))) be v)))
  wreg s' 0 0xA000020 (word (a + 4))

/-! ## Meanings -/

/-- STR_COMMAND_DONE (R48). -/
def execStrCommandDone (s : State) : Res := .next (strDone s)

/-- FLASH_COPY_DONE (R48). -/
def execFlashCopyDone (s : State) : Res := .next (copyDone s)

end Sys2Proof.Machine
end

