-- ==== Sys2Proof/Machine/Attest.lean ====
section
/-! DEFINITION. Attestation and link encryption (R111, R112): the DOE mailbox of PF 0, the SPDM profile and its measurements, and the
IDE streams. The layouts of DOE objects and of SPDM messages are those of the specifications R90 and R111 name, PRESUMED by log
entry 20. -/

namespace Sys2Proof.Machine

open Sys2Proof

/-! ## IDE streams (R112) -/

/-- HPT_LINK_STATUS.SECURE_STREAMS after a change. -/
def secureRefresh (s : State) (h : Nat) : State :=
  setHls s h 0 4 (s.host.secure.filter (fun e => ofLink h e.1)).length

/-- An IDE stream of a link becomes Secure. -/
def streamSecure (s : State) (h k : Nat) : State :=
  secureRefresh { s with host := { s.host with
    secure := Tbl.ins s.host.secure (h * 256 + k) ()
    insecure := Tbl.del s.host.insecure (h * 256 + k) } } h

/-- IDE_CHECK_FAIL (R112): a Secure stream goes to Insecure. -/
def ideFail (s : State) (h k : Nat) : State :=
  if (Tbl.find? s.host.secure (h * 256 + k)).isNone then s
  else
    let s := { s with host := { s.host with
      secure := Tbl.del s.host.secure (h * 256 + k)
      insecure := Tbl.ins s.host.insecure (h * 256 + k) () } }
    aerLog (evt (secureRefresh s h) (h / 4) (h % 4) 4) h 0 aerIde false

/-! ## Measurements (R46, R111) -/

/-- The image in a slot, its bytes 0 to IMAGE_LEN − 1, as R46 measures it. -/
def imageDigest (s : State) (slot : Nat) : List Byte := sha256 (slotImage s slot)

/-- A measurement of the package by its index, as link `h` is told it (R111). While the link awaits its reset, the image it presents is
that of the inactive slot (R48, R49). The fuse set's byte form and, in the recovery shape, the images measured are open: log entry 15. -/
def measurement (s : State) (h k : Nat) : List Byte :=
  let active := activeSlot s
  match k with
  | 1 => sha256 (flashRead s (gf s 0 0x11C 4 2 * 0x800000) 0x400000)
  | 2 => if recoveryShape s then Config.noImageDigest else imageDigest s (if gf s 0 0xA000010 h 1 = 1 then 1 - active else active)
  | 3 =>
    let f := s.core.fuses
    sha256 (Config.fuseBytes [f.vendor.toNat, f.device.toNat, f.classCode.toNat, f.revision.toNat, f.subVendor.toNat, f.subsystem.toNat,
                              f.serial.toNat, f.major.toNat, f.minor.toNat, f.rootHash.toNat])
  | _ => if recoveryShape s then Config.noImageDigest else imageDigest s active

/-- The measurement block of an index: one SHA-256 value. -/
def measurementBlock (s : State) (h k : Nat) : List Byte :=
  [BitVec.ofNat 8 k, 1, 35, 0, 1, 32, 0] ++ measurement s h k

/-! ## SPDM 1.3 (R111) -/

/-- The byte of a version: 1.3. -/
abbrev spdmVersion : Byte := 0x13

/-- An ERROR message. -/
def spdmError (code arg : Nat) : List Byte := [spdmVersion, 0x7F, BitVec.ofNat 8 code, BitVec.ofNat 8 arg]

/-- The strongest of two codes that a requester offers and the profile has. -/
def selectOf (offered first second : Nat) : Nat :=
  if offered &&& first ≠ 0 then first else if offered &&& second ≠ 0 then second else 0

/-- ALGORITHMS: RSASSA-PSS 3072 or RSASSA 3072, SHA-256, secp384r1, AES-256-GCM, of those that the request offers. -/
def spdmAlgorithms (msg : List Byte) : List Byte :=
  [spdmVersion, 0x63, 4, 0] ++ leBytes 2 52 ++ [BitVec.ofNat 8 (leAt msg 6 1 % 2), 0] ++ leBytes 4 2 ++
  leBytes 4 (selectOf (leAt msg 8 4) 8 4) ++ leBytes 4 (selectOf (leAt msg 12 4) 1 1) ++ List.replicate 16 0 ++
  [2, 0x20] ++ leBytes 2 0x10 ++ [3, 0x20] ++ leBytes 2 2 ++ [4, 0x20] ++ leBytes 2 0 ++ [5, 0x20] ++ leBytes 2 1

/-- MEASUREMENTS of the index asked for: 0 gives their number, 0xFF all four; what follows the record, a nonce, a signature where
one is asked for, is open: log entry 15. -/
def spdmMeasurements (s : State) (h n : Nat) (msg : List Byte) : List Byte :=
  let k := leAt msg 3 1
  let ks := if k = 0xFF then [1, 2, 3, 4] else [k]
  let rest := Config.spdmAnswer n msg
  if k = 0 then [spdmVersion, 0x60, 4, 0, 0, 0, 0, 0] ++ rest
  else if k = 0xFF ∨ k ≤ 4 then
    let blocks := ks.flatMap (measurementBlock s h)
    [spdmVersion, 0x60, 0, 0, BitVec.ofNat 8 ks.length] ++ leBytes 3 blocks.length ++ blocks ++ rest
  else spdmError 1 0

/-- Whether a request code is one the profile answers: GET_DIGESTS, GET_CERTIFICATE, CHALLENGE, GET_CAPABILITIES, KEY_EXCHANGE, FINISH,
HEARTBEAT, KEY_UPDATE, END_SESSION, beside those whose answers stand here. -/
def spdmKnown (code : Nat) : Bool := [0x81, 0x82, 0x83, 0xE1, 0xE4, 0xE5, 0xE8, 0xE9, 0xEC].contains code

/-- Headframe's answer to an SPDM message in the clear: version, algorithms and measurements from the profile, Busy to a KEY_EXCHANGE
beyond the fourth session, errors to what the profile does not have, any slot but 0 among it; the rest is open. -/
def spdmReply (s : State) (h n : Nat) (msg : List Byte) : List Byte :=
  let code := leAt msg 1 1
  if code = 0x84 then [0x10, 0x04, 0, 0, 0, 1, 0x00, spdmVersion]
  else if code = 0xE3 then spdmAlgorithms msg
  else if code = 0xE0 then spdmMeasurements s h n msg
  else if code = 0xE4 ∧ 4 ≤ Tbl.get 0 s.host.sessions h then spdmError 3 0
  else if spdmKnown code = false then spdmError 7 code
  else if (code = 0x82 ∨ code = 0x83 ∨ code = 0xE4) ∧ leAt msg (if code = 0xE4 then 3 else 2) 1 % 16 ≠ 0 then spdmError 1 0
  else Config.spdmAnswer n msg

/-! ## The DOE mailbox (R90, R111) -/

/-- The DOE mailbox of a link. -/
def doeOf (s : State) (h : Nat) : Doe := Tbl.get {} s.host.doe h

/-- Replaces it. -/
def setDoe (s : State) (h : Nat) (x : Doe) : State := { s with host := { s.host with doe := Tbl.set {} s.host.doe h x } }

/-- The types of data object: Discovery, CMA/SPDM, Secured CMA/SPDM. -/
abbrev doeDiscovery : Nat := 0
abbrev doeSpdm : Nat := 1
abbrev doeSecured : Nat := 2

/-- A data object: its type, its length in DWs, its contents in whole DWs. -/
def doeObject (ty : Nat) (body : List Byte) : List Byte :=
  let dws := 2 + (body.length + 3) / 4
  [1, 0, BitVec.ofNat 8 ty, 0] ++ leBytes 4 dws ++ bytesAt body 0 (4 * (dws - 2))

/-- An object stands in the mailbox for the host to read. -/
def doeReady (s : State) (h : Nat) (object : List Byte) : State :=
  emit (setDoe s h { doeOf s h with
    wr := []
    rd := object }) (.spdm h object)

/-- An object is refused with the DOE Error bit. -/
def doeRefuse (s : State) (h : Nat) : State :=
  emit (setDoe s h { doeOf s h with
    wr := []
    err := true }) (.doeError h)

/-- Discovery: entry k of the three types, and the next. -/
def discoveryReply (k : Nat) : List Byte :=
  doeObject doeDiscovery ([1, 0, BitVec.ofNat 8 (Nat.min k 2), BitVec.ofNat 8 (if k < 2 then k + 1 else 0)])

/-- What an SPDM object does beside its answer: a KEY_EXCHANGE that is answered opens a session; a session may end or a stream become
Secure in an encrypted exchange, which is open (log entry 15). -/
def spdmAct (s : State) (h n : Nat) (obj : List Byte) : State :=
  let held := Tbl.get 0 s.host.sessions h
  let kex := leAt obj 2 1 == doeSpdm && leAt obj 9 1 == 0xE4 && leAt obj 11 1 % 16 == 0
  let eff := Config.spdmEffect n obj
  let count := if kex then Nat.min 4 (held + 1) else if eff = 1 then held - 1 else held
  let s := { s with host := { s.host with sessions := Tbl.set 0 s.host.sessions h count } }
  if 2 ≤ eff ∧ eff ≤ 10 ∧ 0 < held then streamSecure s h (eff - 2) else s

/-- SPDM_REQUEST: an object arrives whole in the DOE mailbox (R111). One above 32 KiB is refused; an object of a type the mailbox does
not have is discarded. -/
def spdm (s : State) (h : Nat) (obj : List Byte) : State :=
  if hls s h 31 1 = 0 ∨ mode s (linkTile h) ≤ 1 then s
  else
    let s := leaveL1 s h
    let ty := leAt obj 2 1
    if 32768 < obj.length then doeRefuse s h
    else if leAt obj 0 2 ≠ 1 ∨ 2 < ty then setDoe s h { doeOf s h with wr := [] }
    else if ty = doeDiscovery then doeReady s h (discoveryReply (leAt obj 8 1))
    else
      let n := s.fresh
      let answer := if ty = doeSpdm then spdmReply s h n (obj.drop 8) else Config.spdmAnswer n (obj.drop 8)
      doeReady (spdmAct (tickFresh s) h n obj) h (doeObject ty answer)

/-- A configuration write of a DOE register: Abort and Go in the control register, the two data mailboxes. -/
def doeWrite (s : State) (h off : Nat) (v : Word) : State :=
  let x := doeOf s h
  if off = 0x4A8 then
    (if bit v 0 then setDoe s h {}
     else if bit v 31 then (if leAt x.wr 4 3 % 2 ^ 18 * 4 = x.wr.length then spdm s h x.wr else doeRefuse s h)
     else s)
  else if off = 0x4B0 then setDoe s h { x with wr := x.wr ++ wordBytes v }
  else if off = 0x4B4 then setDoe s h { x with rd := x.rd.drop 4 }
  else s

/-- A DOE register as a configuration read shows it: the status with Error and Data Object Ready, the read mailbox. -/
def doeView (s : State) (h off : Nat) : Word :=
  let x := doeOf s h
  if off = 0x4AC then word (4 * b2n x.err + 2 ^ 31 * b2n (!x.rd.isEmpty))
  else if off = 0x4B4 then wordOf (bytesAt x.rd 0 4)
  else 0

end Sys2Proof.Machine
end

