-- ==== Sys2Proof/Machine/HostPort.lean ====
section
/-! DEFINITION. The host ports (05): requests of instances toward hosts and their completions (R101 to R104), messages
(R106), configuration requests (R95 to R97, R105), link events (R60, R61, R92 to R94, R114, R116), attestation and
encryption (R111, R112; Attest). -/

namespace Sys2Proof.Machine

open Sys2Proof

/-! ## The link -/

/-- The highest rate a link trains to: the lower of HOST_MAXRATE and RATE_CAP (R92). In the recovery shape no image gives
HOST_MAXRATE: link 0 trains at 2.5 GT/s (DESIGN CHOICE: log entry 67). -/
def rateLimit (s : State) (h : Nat) : Nat :=
  Nat.max 1 (Nat.min (Tbl.get 0 s.host.maxRate h) (gf s (h / 4) (hpt (h % 4) 4) 8 3))

/-- The code of a link's bifurcated width (R10, R117): x16, x8 or x4. -/
def bifWidth (s : State) (h : Nat) : Nat :=
  match Tbl.get 0 s.host.hostBif (h / 4) with
  | 0 => 5
  | 1 => 4
  | _ => 3

/-- The active width NARROW asks for (R93, R117). -/
def narrowTo (s : State) (h : Nat) : Nat :=
  Nat.max 1 (hls s h 16 4 - gf s (h / 4) (hpt (h % 4) 4) 4 3)

/-- The device asks for the active width NARROW gives, in flit mode (R93). -/
def askNarrow (s : State) (h : Nat) : State :=
  if hls s h 31 1 = 1 ∧ hls s h 30 1 = 1 ∧ hls s h 12 4 ≠ narrowTo s h then emit s (.l0p h (narrowTo s h)) else s

/-- Whether a link's tile lets it train: from COMPOSE on, neither fenced nor under a tile reset (R60). -/
def mayTrain (s : State) (h : Nat) : Bool :=
  let t := linkTile h
  decide (2 ≤ mode s t) && !(tileSt s t).fenced && !(tileSt s t).resetting

/-- DL_UP: a link reaches L0 with its Data Link Layer up (R61, R92, R117). A RETRAIN written while the link was down is
done with this training. -/
def linkUp (s : State) (h rate width : Nat) (flit : Bool) : State :=
  if hls s h 29 1 = 1 ∨ hls s h 31 1 = 1 ∨ hls s h 24 4 = 0 ∨ mayTrain s h = false then s else
  let r := clamp 1 (rateLimit s h) rate
  let w := clamp 1 (bifWidth s h) width
  let s := wreg s (h / 4) (hpt (h % 4) 0)
    (word (2 ^ 31 + b2n (flit || decide (6 ≤ r)) * 2 ^ 30 + 5 * 2 ^ 24 + r * 2 ^ 20 + w * 2 ^ 16 + w * 2 ^ 12))
  let s := sf s (h / 4) (hpt (h % 4) 4) 2 1 0
  askNarrow s h

/-- A link leaves reset: it takes the active image's shape and begins training as soon as its tile lets it (R50, R60). -/
def linkRelease (s : State) (h : Nat) : State :=
  if mayTrain s h then setHls (leaveReset s h) h 24 4 1 else s

/-- PERST_N falls (R114). -/
def perstLow (s : State) (h : Nat) : State :=
  if hls s h 29 1 = 1 ∨ s.core.scanned then s else hostLinkReset (setHls s h 29 1 1) h 0 0

/-- PERST_N rises (R60). -/
def perstHigh (s : State) (h : Nat) : State :=
  if hls s h 29 1 = 0 ∨ s.core.scanned then s else linkRelease (setHls s h 29 1 0) h

/-- A hot reset arrives on a link that is up: everything of R114, and at its end the shape of the active image (R50). -/
def hotReset (s : State) (h : Nat) : State :=
  if hls s h 31 1 = 0 then s else leaveReset (hostLinkReset s h 1 1) h

/-- The Data Link Layer goes down without a reset (R114). -/
def dlDown (s : State) (h : Nat) : State := if hls s h 31 1 = 0 then s else hostLinkReset s h 2 1

/-- A link that is up enters Recovery toward a rate (R92, R117). -/
def intoRecovery (s : State) (h : Nat) : State := emit (setHls s h 24 4 4) (.speed h (rateLimit s h))

/-- A write of RATE_CAP (R92, R117): a cap below the present rate starts a directed speed change. -/
def writeRateCap (s : State) (h v : Nat) : State :=
  let s := sf s (h / 4) (hpt (h % 4) 4) 8 3 (clamp 1 (Nat.max 1 (Tbl.get 0 s.host.maxRate h)) v)
  if hls s h 31 1 = 1 ∧ rateLimit s h < hls s h 20 4 then intoRecovery s h else s

/-- A write of NARROW (R93, R117). -/
def writeNarrow (s : State) (h v : Nat) : State :=
  askNarrow (sf s (h / 4) (hpt (h % 4) 4) 4 3 (Nat.min 4 v)) h

/-- RETRAIN written (R92, R117): a link that is up enters Recovery, where RETRAIN clears, with the rate it now may have. -/
def writeRetrain (s : State) (h : Nat) : State :=
  if hls s h 31 1 = 1 then intoRecovery s h else sf s (h / 4) (hpt (h % 4) 4) 2 1 1

/-- RATE_CHANGED (R92): a speed change or a retrain ends in L0, with the event where the rate is another. -/
def rateDone (s : State) (h rate : Nat) : State :=
  let r := clamp 1 (rateLimit s h) rate
  if hls s h 31 1 = 0 then s
  else
    let same := hls s h 20 4 = r
    let s := setHls s h 24 4 5
    if same then s else evt (setHls s h 20 4 r) (h / 4) (h % 4) 5

/-- L0P_CHANGED (R93). -/
def l0pDone (s : State) (h width : Nat) : State :=
  let w := clamp 1 (hls s h 16 4) width
  if hls s h 31 1 = 0 ∨ hls s h 30 1 = 0 ∨ hls s h 12 4 = w then s else evt (setHls s h 12 4 w) (h / 4) (h % 4) 6

/-- An L0p request of the host is honoured (R93). -/
def hostL0p (s : State) (h width : Nat) : State :=
  if hls s h 31 1 = 0 ∨ hls s h 30 1 = 0 then s else emit s (.l0p h (clamp 1 (hls s h 16 4) width))

/-- ASPM L1 (R94): enabled on PF 0, nothing to send, no non-posted request outstanding. -/
def enterL1 (s : State) (h : Nat) : State :=
  let t := linkTile h
  if hls s h 24 4 = 5 ∧ hls s h 31 1 = 1 ∧ cfgF s h 0 0x60 1 1 = 1 ∧
      s.host.tags.any (fun e => e.2.any (fun x => x.link == h && !x.expired)) = false ∧
      (Tbl.get [] s.host.outq h).isEmpty ∧ (Tbl.get [] s.host.tagWait t).any (fun f => f.dstSub == h % 4) = false ∧
      s.host.inb.any (fun e => e.2.any (fun x => x.link == h)) = false then setHls s h 24 4 6
  else s

/-- WAKE written as 1 (R116). -/
def wakeOn (s : State) (h : Nat) : State :=
  emit { sf s (h / 4) (hpt (h % 4) 4) 3 1 1 with host := { s.host with wakes := Tbl.ins s.host.wakes h () } } (.wake h true)

/-- WAKE_N is released after 10 ms (R116). -/
def wakeOff (s : State) (h : Nat) : State :=
  if (Tbl.find? s.host.wakes h).isSome then
    emit { sf s (h / 4) (hpt (h % 4) 4) 3 1 0 with host := { s.host with wakes := Tbl.del s.host.wakes h } } (.wake h false)
  else s

/-- The LTR message of PF 0, while its mechanism is enabled (R110). -/
def sendLtr (s : State) (h : Nat) : State :=
  if hls s h 31 1 = 1 ∧ cfgF s h 0 0x78 10 1 = 1 then
    emit (leaveL1 s h) (.msg h 0 .ltr (rreg s (h / 4) (hpt (h % 4) 0x1C)))
  else s

/-- A write of HPT_LTR (R110, R117). -/
def writeLtr (s : State) (h : Nat) (v : Word) : State :=
  sendLtr (wreg s (h / 4) (hpt (h % 4) 0x1C) (v &&& 0x9FFF9FFF#32)) h

/-- The Device Readiness Status message (R61), once the link's tile has left FIDDLEHEAD and its configuration space stands. -/
def sayReady (s : State) (h : Nat) : State :=
  if hls s h 31 1 = 0 ∨ mode s (linkTile h) ≤ 1 ∨ (Tbl.find? s.host.drs h).isSome then s
  else
    emit { s with host := { s.host with upTo := Tbl.ins s.host.upTo h (), drs := Tbl.ins s.host.drs h () } }
      (.msg h 0 .drs 0)

/-! ## Messages (R105 to R107) -/

/-- The messages MSI grants (R106): 2 to the power of Multiple Message Enable, at most 32. -/
def msiGranted (s : State) (h f : Nat) : Nat := 2 ^ Nat.min 5 (cfgF s h f 0xA0 20 3)

/-- How a message of vector `v` of function `f` stands, for the vector entry `e` (R106): none while it must wait, else its
address and data. -/
def msgOf (s : State) (h f v : Nat) (e : Vec) : Option (Nat × Word) :=
  if hostUp s h = false ∨ fnExists s h f = false ∨ bme s h f = false then none
  else if cfgF s h f 0x90 31 1 = 1 then
    if cfgF s h f 0x90 30 1 = 1 ∨ bit e.ctl 0 then none else some (pair e.lo e.hi, e.data)
  else if cfgF s h f 0xA0 16 1 = 1 then
    let n := msiGranted s h f
    if bit (cfgWord s h f (0xB0 / 4)) (v % n) then none
    else
      let d := cfgF s h f 0xAC 0 16
      some (pair (cfgWord s h f (0xA4 / 4)) (cfgWord s h f (0xA8 / 4)), word (d / n * n + v % n))
  else none

/-- Sends a message on a link, or refuses it as R101 refuses a posted request. -/
def sendMsi (s : State) (h f a : Nat) (d : Word) : State :=
  if ideRefuses s h a then cf s (h / 4) (hpt (h % 4) 0x14) 0 16
  else emit (leaveL1 s h) (.memWrite h (routingId s h f) a (wordBytes d) false false false none)

/-- A vector entry of an instance. -/
def vecOf (s : State) (i v : Nat) : Vec := Tbl.get {} s.host.vecs (homeTile i * 65536 + (instOf s i).vBase + v)

/-- Sets or clears a PBA bit of an instance. -/
def setPba (s : State) (i v : Nat) (b : Bool) : State :=
  { s with host := { s.host with
      pba := if b then Tbl.ins s.host.pba (i * 2048 + v) () else Tbl.del s.host.pba (i * 2048 + v) } }

/-- MSIX_SEND of an instance's vector (R106); an instance that is not live keeps it in the PBA (R319). -/
def instMsg (s : State) (i v : Nat) : State :=
  if (instOf s i).vCount ≤ v then s
  else match live s i, (instOf s i).fn with
    | true, some (h, f) =>
      match msgOf s h f v (vecOf s i v) with
      | some (a, d) => sendMsi (setPba s i v false) h f a d
      | none => setPba s i v true
    | _, _ => setPba s i v true

/-- MSIX_SEND of a vector of the manager function (R107, R319). -/
def managerMsg (s : State) (v : Nat) : State :=
  match managerLink s with
  | some h =>
    match msgOf s h 0 v (Tbl.get {} s.host.mgrVecs v) with
    | some (a, d) => sendMsi { s with host := { s.host with mgrPba := Tbl.del s.host.mgrPba v } } h 0 a d
    | none => { s with host := { s.host with mgrPba := Tbl.ins s.host.mgrPba v () } }
  | none => { s with host := { s.host with mgrPba := Tbl.ins s.host.mgrPba v () } }

/-- Takes the first of an element out of a list; `none` where it is not there. -/
def takeOut {α : Type} [BEq α] (x : α) : List α → Option (List α)
  | [] => none
  | a :: r => if a == x then some r else (takeOut x r).map (a :: ·)

/-- Whether the PBA holds a message. -/
def pbaHolds (s : State) (i v : Nat) : Bool :=
  if i = managerInst then (Tbl.find? s.host.mgrPba v).isSome else (Tbl.find? s.host.pba (i * 2048 + v)).isSome

/-- MSIX_SEND: a committed message, or one to be tried again that the PBA still holds, is tried. -/
def msixSend (s : State) (i v : Nat) : State :=
  let try_ (s : State) : State := if i = managerInst then managerMsg s v else instMsg s i v
  match takeOut (i, v) s.evc.vecDue with
  | some rest => try_ { s with evc := { s.evc with vecDue := rest } }
  | none =>
    match takeOut (i, v) s.evc.vecRetry with
    | none => s
    | some rest =>
      let s := { s with evc := { s.evc with vecRetry := rest } }
      if pbaHolds s i v then try_ s else s

/-- What a function's PBA holds is tried again once a condition of R106 may have cleared. -/
def retryFn (s : State) (h f : Nat) : State :=
  match fnRefOf (pfsOf s h) f with
  | some ⟨p, none⟩ =>
    if p.manager then
      s.host.mgrPba.foldl (fun s e => retryVec s managerInst e.1) s
    else match boundInst s h f with
      | some i => retryPba s i
      | none => s
  | _ =>
    match boundInst s h f with
    | some i => retryPba s i
    | none => s

/-! ## Requests toward hosts (R101, R102) -/

/-- The function a frame leaves by, if its instance is bound on the link: the bound function, or its physical function for
the dirty log's writes (R101, R301). -/
def issueFn (s : State) (h : Nat) (f : Frame) : Option Nat :=
  match (instOf s f.pkt.inst).state, (instOf s f.pkt.inst).fn with
  | .bound, some (l, g) =>
    if l ≠ h ∨ f.pkt.glob then none
    else if f.asPf then (fnRefOf (pfsOf s h) g).map (fun r => r.pf.pf) else some g
  | _, _ => none

/-- Whether a function may send a frame (R101). -/
def mayIssueFn (s : State) (h g : Nat) (f : Frame) : Bool :=
  fnExists s h g && bme s h g && !ideRefuses s h f.pkt.addr &&
  (f.pasid.isNone || cfgF s h g 0x214 16 1 == 1)

/-- A frame refused at the host port (R101): a non-posted request is answered with NOT_LIVE; a posted one is discarded and
counted, its DMA queue told (R269), and a dirty-log write sets WRITE_ERROR (R301). -/
def refuseIssue (s : State) (h : Nat) (f : Frame) : State :=
  let s := if f.pkt.isReq then s else cf s (h / 4) (hpt (h % 4) 0x14) 0 16
  let s := if f.asPf then logLose s f.pkt.inst 29 else s
  endFrame s f 5

/-- The PCIe tags a function may use, by its own enables (R102): first tag and count. -/
def tagRange (s : State) (h g : Nat) : Nat × Nat :=
  if cfgF s h g 0x488 2 1 = 1 then (0, 16384)
  else if cfgF s h g 0x78 12 1 = 1 then (256, 768)
  else (0, 256)

/-- A tag entry and a PCIe tag for a function, where both are free. -/
def freeHostTag (s : State) (t h g : Nat) : Option (Nat × Nat) :=
  let (lo, n) := tagRange s h g
  let entry := firstFree (fun e => (Tbl.get none s.host.tags (t * 4096 + e)).isSome) 4096 4096 (Config.tagChoice s.fresh)
  let mine := s.host.tags.filterMap (fun e => e.2.bind (fun x =>
    if x.link = h ∧ x.rid = routingId s h g then some x.tag else none))
  let tag := firstFree (fun k => mine.contains (lo + k)) n n (Config.tagChoice (s.fresh + 1))
  match entry, tag with
  | some e, some k => if n ≤ mine.length then none else some (e, lo + k)
  | _, _ => none

/-- A non-posted request takes its tag entry and leaves (R102). -/
def sendRead (s : State) (h g : Nat) (f : Frame) (e tag : Nat) : State :=
  let t := linkTile h
  let rid := routingId s h g
  let len := lenBytes f.pkt.len
  let x : TagEnt := { link := h, fn := g, rid := rid, tag := tag, issuer := f.issuer, inst := f.pkt.inst, gen := f.pkt.gen,
                      glob := f.pkt.glob, addr := f.pkt.addr, len := len, expired := false, links := f.links }
  let s := tickFresh { s with host := { s.host with tags := Tbl.set none s.host.tags (t * 4096 + e) (some x) } } 2
  emit (leaveL1 (tagsRefresh s t) h) (.memRead h rid tag f.pkt.addr len f.pkt.rlx f.pkt.ns f.pasid)

/-- A posted request leaves, in writes no longer than Max_Payload_Size where a partner's WR is longer (R98): nothing waits for it any
more, and its DMA queue is told (R269). -/
def sendWrite (s : State) (h g : Nat) (f : Frame) : State :=
  let s := leaveL1 s h
  let mps := mpsOf s h
  let s := (splitRead mps 33 0 f.pkt.data.length).foldl (fun s x =>
    emit s (.memWrite h (routingId s h g) (f.pkt.addr + x.1) (bytesAt f.pkt.data x.1 x.2) f.pkt.rlx f.pkt.ns f.pkt.ep f.pasid)) s
  let s := settle s f.serial
  match f.issuer with
  | .dmaWr t w => answer s (.dmaWr t w) 0 [] false
  | _ => s

/-- A response reaches the host port that issued its request (R21, R115, R157, R230): the links it has crossed must be in the epochs of
its record, the generation and the instance recorded there must be the frame's own; with no entry, or another's, it is discarded
and counted. A read of a prefetchable location that has completed normally begins a read-ahead (R217). -/
def hostRsp (s : State) (h : Nat) (f : Frame) : State :=
  let late (s : State) : State := cf s (h / 4) (hpt (h % 4) 0x18) 16 16
  if epochsCurrent s f.links = false then dropLate s { f with credit := none }
  else match f.issuer with
    | .inbound t e =>
      match Tbl.get none s.host.inb (t * 1024 + e) with
      | some b =>
        if b.inst = f.pkt.inst ∧ b.gen = f.pkt.gen then
          let s := completeInb s t e f.pkt.addr f.pkt.data f.pkt.ep f.pkt.rlx f.pkt.ns
          match b.ahead, f.pkt.addr with
          | some (bar, pos, winEnd), 0 => startStream s b.inst bar pos winEnd
          | _, _ => s
        else late s
      | none => late s
    | _ => late s

/-- HOST_ISSUE: the oldest frame the switch core has given a link (R101, R102). -/
def hostIssue (s : State) (h : Nat) : State :=
  match Tbl.get [] s.host.outq h with
  | [] => s
  | f :: rest =>
    let s := { s with host := { s.host with outq := Tbl.set [] s.host.outq h rest } }
    if f.pkt.isRsp then hostRsp (leaveL1 s h) h f
    else match issueFn s h f with
      | none => refuseIssue s h f
      | some g =>
        if mayIssueFn s h g f = false then refuseIssue s h f
        else if f.pkt.isReq then
          let t := linkTile h
          let waits := (Tbl.get [] s.host.tagWait t).any (fun w => w.dstSub == h % 4 && issueFn s h w == some g)
          match (if waits then none else freeHostTag s t h g) with
          | some (e, k) => sendRead s h g f e k
          | none => { s with host := { s.host with tagWait := Tbl.app s.host.tagWait t [f] } }
        else sendWrite s h g f

/-- The first waiting request of a tile that may leave or must be refused now, with what becomes of it (R102). -/
def tagWaitGo (s : State) (t : Nat) : List Frame → List Frame → State
  | _, [] => s
  | before, f :: rest =>
    let h := 4 * t + f.dstSub
    let out := { s with host := { s.host with tagWait := Tbl.set [] s.host.tagWait t (before ++ rest) } }
    match issueFn s h f with
    | none => refuseIssue out h f
    | some g =>
      if mayIssueFn s h g f = false then refuseIssue out h f
      else if before.any (fun w => w.dstSub == f.dstSub && issueFn s h w == some g) then tagWaitGo s t (before ++ [f]) rest
      else match freeHostTag s t h g with
        | some (e, k) => sendRead out h g f e k
        | none => tagWaitGo s t (before ++ [f]) rest

/-! ## Completions (R102, R103) -/

/-- The answer to a device's read, sent on to its issuer (R21): read data of a DMA tag travels to its tile as a frame; a
held read's part is taken where its slot stands in the epoch and generation of the request, and is late otherwise (R181). -/
def hostAnswer (s : State) (t : Nat) (x : TagEnt) (status : Nat) (data : List Byte) (ep : Bool) : State :=
  let p : Pkt := { ty := if status = 0 then .rspD else .rsp, cls := 2, len := if status = 0 then lenField x.len else 0,
                   inst := x.inst, gen := x.gen, glob := x.glob, ep := ep && status == 0, addr := status,
                   data := if status = 0 then data else [] }
  match x.issuer with
  | .dmaTag u _ =>
    let (k, s) := newSerial s
    enter s
      { serial := k, pkt := p, srcTile := t, srcPort := 0, srcSub := x.link % 4, dstTile := u, dstPort := 8, issuer := x.issuer, links := x.links }
  | iss =>
    if epochsCurrent s x.links = false then
      dropLate s { serial := 0, pkt := p, srcTile := t, srcPort := 0, dstTile := t, dstPort := 0, links := x.links }
    else if ¬ x.glob ∧ (instOf s x.inst).gen ≠ x.gen then
      (match iss with
       | .held u n _ _ => evt (cf s u (ltp n 0x18) 16 16) u (ltpRow n) 4
       | _ => s)
    else answer s iss status p.data p.ep

/-- Frees a tag entry. -/
def freeHostEnt (s : State) (t e : Nat) : State :=
  tagsRefresh { s with host := { s.host with tags := Tbl.set none s.host.tags (t * 4096 + e) none } } t

/-- The LTP status of a completion status (R108): Completer Abort, else Unsupported Request. -/
def cplStatus (c : Nat) : Nat := if c = 0 then 0 else if c = 4 then 2 else 1

/-- A completion TLP (R102, R103, R108): a timed-out entry stays occupied until the last of its late completions. -/
def takeCpl (s : State) (h : Nat) (c : Cpl) : State :=
  let t := linkTile h
  let s := leaveL1 s h
  match List.find? (fun (e : Nat × Option TagEnt) => e.1 / 4096 == t && e.2.any (fun x =>
      x.link == h && x.rid == c.rid.toNat && x.tag == c.tag.toNat)) s.host.tags with
  | some (k, some x) =>
    let e := k % 4096
    if x.expired then
      let s := cf s t (hpt (h % 4) 0x18) 16 16
      let got := x.got ++ c.data
      if c.status.toNat ≠ 0 ∨ x.len ≤ got.length then endQuarantine (freeHostEnt s t e) x.issuer
      else { s with host := { s.host with tags := Tbl.set none s.host.tags k (some { x with got := got }) } }
    else
      let st := cplStatus c.status.toNat
      let s := if c.poisoned then aerLog s h x.fn aerPoison true else s
      if st ≠ 0 then hostAnswer (freeHostEnt s t e) t x st [] false
      else
        let got := x.got ++ c.data
        let bad := x.poison || c.poisoned
        if x.len ≤ got.length then hostAnswer (freeHostEnt s t e) t x 0 (got.take x.len) bad
        else { s with host := { s.host with
          tags := Tbl.set none s.host.tags k (some { x with got := got, poison := bad }) } }
  | _ => aerLog (cf s t (hpt (h % 4) 0x18) 0 16) h 0 aerUnexpected true

/-- A read toward a host times out (R103, R108): its issuer is answered with TIMEOUT, and its entry stays occupied. -/
def readExpires (s : State) (t e : Nat) : State :=
  match Tbl.get none s.host.tags (t * 4096 + e) with
  | some x =>
    if x.expired then s
    else
      let s := { s with host := { s.host with
        tags := Tbl.set none s.host.tags (t * 4096 + e) (some { x with expired := true }) } }
      hostAnswer (aerLog s x.link x.fn aerTimeout false) t x 4 [] false
  | none => s

/-- The quarantine of a timed-out entry ends (R103). -/
def quarantineEnds (s : State) (t e : Nat) : State :=
  match Tbl.get none s.host.tags (t * 4096 + e) with
  | some x => if x.expired then endQuarantine (freeHostEnt s t e) x.issuer else s
  | none => s

/-! ## Configuration space (R95 to R97, R105, R114) -/

/-- The VFs of a PF, by function number. -/
def vfsOf (s : State) (h p : Nat) : List Nat :=
  let l := pfsOf s h
  match l[p]? with
  | some r => (List.range r.totalVfs).map (fun v => p + firstVf l p + v)
  | none => []

/-- Resets the instances bound to functions, each as a link event of R114. -/
def resetFns (s : State) (h : Nat) (flr : Bool) (l : List Nat) : State :=
  l.foldl (fun s f => match boundInst s h f with
    | some i => startReset s i (plainReset flr)
    | none => s) s

/-- VF Enable is cleared: the VFs cease, and each instance bound to one is reset (R114). -/
def vfsCease (s : State) (h p : Nat) : State :=
  let vfs := vfsOf s h p
  resetFns (vfs.foldl (fun s f => unlock (cfgClear s h f) h f) s) h false vfs

/-- An FLR (R114): of a VF or of a PF, which takes its VFs with it; of the manager function, which resets its configuration
and MSI-X state. -/
def flr (s : State) (h f : Nat) : State :=
  match fnRefOf (pfsOf s h) f with
  | none => s
  | some ⟨p, v⟩ =>
    if fnExists s h f = false then s
    else if p.manager then
      { cfgClear s h f with host := { (cfgClear s h f).host with mgrVecs := [], mgrPba := [] } }
    else
      let s := if v.isNone then vfsCease s h f else s
      resetFns (unlock (cfgClear s h f) h f) h true [f]

/-- What a configuration read shows: the stored word, MSI-X Table Size (R105), the link's widest width, its speed, width and flit mode,
Transactions Pending, MSI's pending bits, the DOE mailbox and the states of the IDE streams (2 is Secure). -/
def cfgView (s : State) (h f dw : Nat) : Word :=
  let w := cfgWord s h f dw
  let mgr := (fnRefOf (pfsOf s h) f).any (fun r => r.pf.manager)
  match 4 * dw with
  | 0x58 => setBit w 21 (s.host.tags.any (fun e => e.2.any (fun x => x.link == h && x.fn == f && !x.expired)))
  | 0x5C => setFld w 4 6 (2 ^ (bifWidth s h - 1))
  | 0x80 => setFld w 26 1 (hls s h 30 1)
  | 0x4AC => if f = 0 then doeView s h 0x4AC else w
  | 0x4B4 => if f = 0 then doeView s h 0x4B4 else w
  | 0x60 => setFld (setFld w 16 4 (hls s h 20 4)) 20 6 (if hls s h 16 4 = 0 then 0 else 2 ^ (hls s h 16 4 - 1))
  | 0x90 =>
    if mgr then w
    else
      let n := match boundInst s h f with
        | some i => (instOf s i).vCount
        | none => 0
      setFld w 16 11 (n - 1)
  | 0xB4 =>
    if cfgF s h f 0xA0 0 8 ≠ 5 then w
    else match boundInst s h f with
      | some i => packBits (fun b => s.host.pba.any (fun e => e.1 / 2048 == i && e.1 % 2048 % msiGranted s h f == b))
      | none => 0
  | off =>
    if f = 0 ∧ ideStatus off then
      setFld w 0 4 (if (Tbl.find? s.host.secure (h * 256 + (if off = 0x4D0 then 0 else (off - 0x4D4) / 32 + 1))).isSome then 2 else 0)
    else w

/-- A configuration write with the effects the manual gives its fields: an FLR, VF Enable cleared, LTR enabled, and the
conditions of R106 for pending messages. Writes of a reserved power state leave it. -/
def cfgWrite (s : State) (h f dw : Nat) (be : BitVec 4) (v : Word) : State :=
  match fnRefOf (pfsOf s h) f with
  | none => s
  | some r =>
    let old := cfgWord s h f dw
    let m := cfgMask (pfsOf s h) r dw &&& beMask be
    let new := ((old &&& ~~~m) ||| (v &&& m)) &&& ~~~(v &&& beMask be &&& cfgW1c dw)
    let off := 4 * dw
    let new := if off = 0x44 ∧ (fld new 0 2 = 1 ∨ fld new 0 2 = 2) then setFld new 0 2 (fld old 0 2) else new
    let s := setCfg s h f dw new
    if f = 0 ∧ 0x4A8 ≤ off ∧ off < 0x4B8 then doeWrite s h off (v &&& beMask be)
    else if off = 0x58 ∧ bit (v &&& beMask be) 15 then flr s h f
    else if off = 0x1A8 ∧ bit old 0 ∧ ¬ bit new 0 then vfsCease s h f
    else if off = 0x78 ∧ f = 0 ∧ ¬ bit old 10 ∧ bit new 10 then sendLtr s h
    else if off = 0x04 ∨ off = 0x44 ∨ off = 0x90 ∨ off = 0xA0 ∨ off = 0xB0 then retryFn s h f
    else s

/-- PCI-PM L1 (R90): a link whose physical functions are all in D3hot goes to L1 once it has nothing to send. -/
def pmL1 (s : State) (h : Nat) : State :=
  let l := pfsOf s h
  if hls s h 24 4 = 5 ∧ 0 < l.length ∧ (List.range l.length).all (fun f => d3hot s h f) then setHls s h 24 4 6 else s

/-- CONFIG_REQUEST (R61, R97, R115): not answered on a link that is down or of a fenced tile; retry status until the link's
configuration space stands; Unsupported Request for a function that does not exist. A write gives the link its bus
number. -/
def configRequest (s : State) (h f bus off : Nat) (wr : Option (BitVec 4 × Word)) : State :=
  let t := linkTile h
  if hls s h 31 1 = 0 ∨ (tileSt s t).fenced then s
  else
    let s := leaveL1 s h
    if mode s t ≤ 1 ∨ (Tbl.find? s.host.upTo h).isNone then emit s (.cfgCpl h f 2 0)
    else if fnExists s h f = false then emit s (.cfgCpl h f 1 0)
    else match wr with
      | none => pmL1 (emit s (.cfgCpl h f 0 (cfgView s h f (off / 4 % 1024)))) h
      | some (be, v) =>
        let s := { s with host := { s.host with bus := Tbl.set 0 s.host.bus h ((bus + 256 - f / 256) % 256) } }
        pmL1 (emit (cfgWrite s h f (off / 4 % 1024) be v) (.cfgCpl h f 0 0)) h

/-! ## Meanings -/

/-- A command of host link `h`: a link its port's bifurcation leaves unused does nothing (R10). -/
def onLink (s : State) (h : Nat) (k : State) : Res :=
  onUnit (decide (h < 4 * s.part.tiles)) (if linkPresent s h then k else s)

/-- CONFIG_REQUEST (R97). -/
def execConfigRequest (h f : Nat) (bus : BitVec 8) (off : Nat) (wr : Option (BitVec 4 × Word)) (s : State) : Res :=
  onLink s h (configRequest s h f bus.toNat off wr)

/-- DEVICE_READINESS_STATUS (R61). -/
def execDeviceReadinessStatus (h : Nat) (s : State) : Res := onLink s h (sayReady s h)

/-- HOST_ISSUE (R101). -/
def execHostIssue (h : Nat) (s : State) : Res := onLink s h (unfenced s (h / 4) (hostIssue s h))

/-- HOST_TAG_WAIT (R102). -/
def execHostTagWait (t : Nat) (s : State) : Res := onTile s t (unfenced s t (tagWaitGo s t [] (Tbl.get [] s.host.tagWait t)))

/-- HOST_COMPLETION (R102). -/
def execHostCompletion (h : Nat) (c : Cpl) (s : State) : Res :=
  onLink s h (if hls s h 31 1 = 1 then takeCpl s h c else s)

/-- HOST_READ_TIMEOUT (R103). -/
def execHostReadTimeout (t e : Nat) (s : State) : Res :=
  onUnit (decide (t < s.part.tiles) && decide (e < 4096)) (unfenced s t (readExpires s t e))

/-- HOST_TAG_QUARANTINE_END (R103). -/
def execHostTagQuarantineEnd (t e : Nat) (s : State) : Res :=
  onUnit (decide (t < s.part.tiles) && decide (e < 4096)) (unfenced s t (quarantineEnds s t e))

/-- MSIX_SEND (R106). -/
def execMsixSend (i v : Nat) (s : State) : Res := onUnit (instOk s i || i == managerInst) (msixSend s i v)

/-- ASPM_L1_ENTRY (R94). -/
def execAspmL1Entry (h : Nat) (s : State) : Res := onLink s h (enterL1 s h)

/-- HOST_L0P_REQUEST (R93). -/
def execHostL0pRequest (h : Nat) (width : BitVec 4) (s : State) : Res := onLink s h (hostL0p s h width.toNat)

/-- WAKE_TIMEOUT (R116). -/
def execWakeTimeout (h : Nat) (s : State) : Res := onLink s h (unfenced s (h / 4) (wakeOff s h))

/-- SPDM_REQUEST (R111). -/
def execSpdmRequest (h : Nat) (object : List Byte) (s : State) : Res := onLink s h (spdm s h object)

/-- IDE_CHECK_FAIL (R112): a link has one link stream and eight selective ones (R90). -/
def execIdeCheckFail (h stream : Nat) (s : State) : Res :=
  onUnit (decide (h < 4 * s.part.tiles) && decide (stream < 9)) (ideFail s h stream)

/-- PERST_ASSERT (R114). -/
def execPerstAssert (h : Nat) (s : State) : Res := onLink s h (perstLow s h)

/-- PERST_DEASSERT (R60). -/
def execPerstDeassert (h : Nat) (s : State) : Res := onLink s h (perstHigh s h)

/-- HOT_RESET (R114). -/
def execHotReset (h : Nat) (s : State) : Res := onLink s h (hotReset s h)

/-- DL_DOWN (R114). -/
def execDlDown (h : Nat) (s : State) : Res := onLink s h (dlDown s h)

/-- FLR_INSTANCE_FUNCTION (R114). -/
def execFlrInstanceFunction (h f : Nat) (s : State) : Res := onLink s h (flr s h f)

/-- FLR_PF (R114). -/
def execFlrPf (h f : Nat) (s : State) : Res :=
  onLink s h (if (fnRefOf (pfsOf s h) f).any (fun r => r.vf.isNone) then flr s h f else s)

/-- FLR_MANAGER_FUNCTION (R114). -/
def execFlrManagerFunction (s : State) : Res :=
  .next (match managerLink s with
    | some h => flr s h 0
    | none => s)

/-- DL_UP (R61). -/
def execDlUp (h : Nat) (rate width : BitVec 4) (flit : Bool) (s : State) : Res :=
  onLink s h (linkUp s h rate.toNat width.toNat flit)

/-- RATE_CHANGED (R92). -/
def execRateChanged (h : Nat) (rate : BitVec 4) (s : State) : Res := onLink s h (rateDone s h rate.toNat)

/-- L0P_CHANGED (R93). -/
def execL0pChanged (h : Nat) (width : BitVec 4) (s : State) : Res := onLink s h (l0pDone s h width.toNat)

end Sys2Proof.Machine
end

