-- ==== Sys2Proof/Machine/Train.lean ====
section
/-! DEFINITION. Training blocks (R126): their layout, their CRC-16, their polarity (R124), and the two levels they are signalled
with on board reach. -/

namespace Sys2Proof.Machine

open Sys2Proof

/-- The types of a training block (R126); any other is ignored. -/
abbrev syncBlock : Nat := 1
abbrev identBlock : Nat := 2
abbrev eqBlock : Nat := 3
abbrev alignBlock : Nat := 4
abbrev repairBlock : Nat := 5

/-- The fields of a training block (R126): `rate` and `width` are codes of CAPS, `steps` the four steps in their order, `failed`
the failed physical receive lanes. -/
structure Block where
  ty : Nat
  lane : Nat
  identity : Nat
  epoch : Nat
  rate : Nat := 0
  width : Nat := 0
  offered : Bool := false
  wanted : Bool := false
  preset : Nat := 0
  steps : List Int := [0, 0, 0, 0]
  failed : List Nat := []
  deriving DecidableEq, Repr

/-- `k` shift steps of the CRC-16, polynomial 0x1021, most significant bit first. -/
def crc16Shift : Nat → BitVec 16 → BitVec 16
  | 0, c => c
  | k + 1, c => crc16Shift k (if c.getLsbD 15 then c <<< 1 ^^^ 0x1021#16 else c <<< 1)

/-- CRC-16, polynomial 0x1021, initial value 0xFFFF, not reflected, no final XOR (R126). -/
def crc16 (l : List Byte) : BitVec 16 :=
  l.foldl (fun c b => crc16Shift 8 (c ^^^ ((b.setWidth 16 : BitVec 16) <<< 8))) 0xFFFF#16

/-- SYNC as it is sent, byte 0x3C first. -/
def syncWord : List Byte := [0x3C, 0xA5, 0x5A, 0xC3]

/-- The map of failed lanes, bit b for physical lane b, in 13 bytes. -/
def repairMap (failed : List Nat) : List Byte :=
  (List.range 13).map (fun k => BitVec.ofNat 8 (((List.range 8).map (fun j => if failed.contains (8 * k + j) then 2 ^ j else 0)).sum))

/-- The 32 bytes of a training block (R126). -/
def blockBytes (b : Block) : List Byte :=
  let body := syncWord ++ [BitVec.ofNat 8 b.ty, BitVec.ofNat 8 (b.lane % 128)] ++ leBytes 2 b.identity ++ leBytes 2 b.epoch ++
    [BitVec.ofNat 8 (b.rate % 4 + 4 * (b.width % 4) + 16 * b2n b.offered + 32 * b2n b.wanted), BitVec.ofNat 8 (b.preset % 16)] ++
    b.steps.map (fun v => BitVec.ofNat 8 (unsigned 8 v)) ++ repairMap b.failed ++ [0]
  body ++ (leBytes 2 (crc16 body).toNat).reverse

/-- A requested step: values outside −8 to +7 clamp. -/
def stepOf (v : Nat) : Int := if signed 8 v < -8 then -8 else if 7 < signed 8 v then 7 else signed 8 v

/-- A training block as it is received on a lane of the right polarity; one whose CRC fails is ignored (R126). -/
def readBlock (l : List Byte) : Option Block :=
  if l.length ≠ 32 ∨ l.take 4 ≠ syncWord ∨ leBytes 2 (crc16 (l.take 30)).toNat ≠ (l.drop 30).reverse then none
  else
    let caps := leAt l 10 1
    some
      { ty := leAt l 4 1, lane := leAt l 5 1 % 128, identity := leAt l 6 2, epoch := leAt l 8 2
        rate := caps % 4, width := caps / 4 % 4, offered := caps / 16 % 2 == 1, wanted := caps / 32 % 2 == 1
        preset := leAt l 11 1 % 16
        steps := (List.range 4).map (fun k => stepOf (leAt l (12 + k) 1))
        failed := (List.range 104).filter (fun b => leAt l (16 + b / 8) 1 / 2 ^ (b % 8) % 2 == 1) }

/-- A block on a board-reach lane, and whether the lane is inverted, which the sync word shows (R124). -/
def readLane (l : List Byte) : Option (Block × Bool) :=
  if l.take 4 = syncWord.map (~~~ ·) then (readBlock (l.map (~~~ ·))).map (·, true) else (readBlock l).map (·, false)

/-- The levels of a training block on board reach: −3 and +3 alone, no FEC and no scrambling (R126); a 1 is the high level
(DESIGN CHOICE: log entry 66). -/
def blockLevels (l : List Byte) : List Int := l.flatMap (fun b => (List.range 8).map (fun k => if b.getLsbD k then 3 else -3))

end Sys2Proof.Machine
end

