-- ==== Sys2Proof/Machine/Phy.lean ====
section
/-! DEFINITION. The physical layer of the Lode links (06): training (R127 to R131), live changes (R132 to R135), lock loss
(R136) and the declarations of link-down by command (R137). -/

namespace Sys2Proof.Machine

open Sys2Proof

/-! ## Parts of training -/

/-- The image's LOCAL_RATE of a slot, the highest rate its end offers (R33, R126). -/
def ownRate (s : State) (t n : Nat) : Nat := Tbl.get 3 s.lode.localRate (slotKey t n)

/-- The widest width a slot offers: x8, or x4 on a sublink (R11). -/
def ownWidth (s : State) (t n : Nat) : Nat := if bifurcated s t (n / 2) then 2 else 3

/-- TARGET_RATE and TARGET_WIDTH. -/
def targetRate (s : State) (t n : Nat) : Nat := gf s t (lnk n 4) 10 2

/-- TARGET_WIDTH. -/
def targetWidth (s : State) (t n : Nat) : Nat := gf s t (lnk n 4) 8 2

/-- Whether the logical lanes 0 to W − 1 of a width code all locked. -/
def lanesHold (lanes : BitVec 8) (w : Nat) : Bool := (List.range (2 ^ w)).all (fun i => lanes.getLsbD i)

/-- The widest width code, at most `most`, whose logical lanes from 0 on locked; 0 for none (R124, R128). -/
def bestWidth (lanes : BitVec 8) (most : Nat) : Nat :=
  if 3 ≤ most ∧ lanesHold lanes 3 then 3 else if 2 ≤ most ∧ lanesHold lanes 2 then 2
  else if 1 ≤ most ∧ lanesHold lanes 1 then 1 else 0

/-- The own identity of a slot. -/
def ownIdentity (s : State) (t n : Nat) : Nat := gf s t (lnk n 0xC) 16 16

/-- Whether a slot is in training: DETECT to ALIGN. -/
def trains (s : State) (t n : Nat) : Bool := decide (1 ≤ linkState s t n) && decide (linkState s t n ≤ 5)

/-- What a training has found of its lanes and its partner goes; the coefficients stay. -/
def LinkSt.untrained (x : LinkSt) : LinkSt :=
  { x with
    lanes := []
    inverted := []
    precodeTx := false
    precodeRx := false
    aim := none
    rxFailed := []
    txFailed := [] }

/-- A training attempt ends: DETECT, TRAIN_FAIL, and a lower target rate for the next (R127). -/
def trainFail (s : State) (t n : Nat) : State :=
  let x := linkSt s t n
  let s := setLink s t n { x.untrained with rateDrop := if n < 8 then Nat.min 2 (x.rateDrop + 1) else 0 }
  evt (sf (setLinkState s t n 1) t (lnk n 0) 29 1 0) t (phyRow n) 6

/-- A link becomes ACTIVE in its new epoch (R128, R147), from the superframe or lane seeding that ALIGN has begun (R121, R123). -/
def goActive (s : State) (t n rate width epoch : Nat) : State :=
  let s := sf s t (lnk n 0x40) 16 16 (Nat.max epoch (linkEpoch s t n))
  let s := sf (sf (setLinkState s t n 6) t (lnk n 0) 16 4 rate) t (lnk n 0) 12 4 width
  startEpoch (emit s (.train t n rate width)) t n

/-! ## Board-reach training (R124 to R129) -/

/-- The physical lanes of a board-reach link. -/
def physLanes (s : State) (t n : Nat) : Nat := if bifurcated s t (n / 2) then 4 else 8

/-- The logical lanes that locked in one order (R124): lane i has come in on physical lane i, or reversed on the i-th from the top. -/
def lanesIn (x : LinkSt) (phys : Nat) (rev : Bool) : BitVec 8 :=
  BitVec.ofNat 8 (((List.range phys).map (fun i =>
    if x.lanes.any (fun e => e.1 == (if rev then phys - 1 - i else i) && e.2.1 == i) then 2 ^ i else 0)).sum)

/-- SYNC notes what a block shows of its lane; the last block counts. -/
def noteLane (x : LinkSt) (lane : Nat) (b : Block) (inv : Bool) : LinkSt :=
  { x with lanes := x.lanes.filter (fun e => e.1 != lane) ++ [(lane, b.lane, inv)] }

/-- The end of step 2 (R124, R127, R128): on to IDENTIFY, unless the logical lanes 0 and 1 fail in both orders. -/
def endSync (s : State) (t n : Nat) (wanted : Bool) : State :=
  let x := linkSt s t n
  let phys := physLanes s t n
  if bestWidth (lanesIn x phys false) 3 = 0 ∧ bestWidth (lanesIn x phys true) 3 = 0 then s
  else
    setLinkState (setLink s t n { x with
      precodeAsk := wanted
      inverted := (x.lanes.filter (fun e => e.2.2)).map Prod.fst }) t n 3

/-- IDENTIFY takes the partner's IDENT (R127 to R129): equal identities stay here; else rate, width, epoch and precoding are fixed, and
both ends move to the target rate.A CAPS code of 0 is taken as 1 (DESIGN CHOICE: log entry 66). -/
def identify (s : State) (t n : Nat) (b : Block) : State :=
  let x := linkSt s t n
  let s := sf s t (lnk n 0xC) 0 16 b.identity
  if b.identity = ownIdentity s t n then evt (sf s t (lnk n 0) 29 1 1) t (phyRow n) 8
  else
    let most := Nat.min (targetWidth s t n) (Nat.min (ownWidth s t n) (Nat.max 1 b.width))
    let w0 := bestWidth (lanesIn x (physLanes s t n) false) most
    let w1 := bestWidth (lanesIn x (physLanes s t n) true) most
    let rate := Nat.min (ownRate s t n) (Nat.min (targetRate s t n) b.rate) - x.rateDrop
    let both := gf s t (lnk n 4) 3 1 == 1 && b.offered
    let s := sf (sf s t (lnk n 0) 29 1 0) t (lnk n 0) 28 1 (b2n (decide (w0 < w1)))
    setLinkState (setLink s t n { x with
      peerRate := b.rate
      peerWidth := b.width
      precodeTx := both && b.wanted
      precodeRx := both && x.precodeAsk
      aim := some (Nat.max 1 rate, Nat.max w0 w1, b.epoch) }) t n 4

/-- EQUALISE takes what the partner asks of the transmitter of its block's lane, at the rate aimed at (R126). -/
def tune (s : State) (t n : Nat) (b : Block) : State :=
  let x := linkSt s t n
  match x.aim with
  | some (rate, _, _) => setLink s t n { x with coef := Tbl.ins x.coef (rate * 8 + b.lane % 8) (b.preset, b.steps) }
  | none => s

/-- ALIGN ends (R127): ACTIVE at the rate and width fixed. -/
def endAlign (s : State) (t n : Nat) : State :=
  let x := linkSt s t n
  match x.aim with
  | some (rate, w, epoch) =>
    let s := sf s t (lnk n 0) 27 1 (b2n (x.precodeTx || x.precodeRx))
    goActive (setLink s t n { x with
      rateDrop := 0
      aim := none }) t n rate w epoch
  | none => s

/-- One step of a board-reach training (R127). -/
def trainStep (t n : Nat) (s : State) (e : TrainStep) : State :=
  match linkState s t n, e with
  | 1, .block lane bytes =>
    (match readLane bytes with
     | some (b, inv) =>
       if b.ty = syncBlock ∧ lane < physLanes s t n then setLinkState (setLink s t n (noteLane (linkSt s t n).untrained lane b inv)) t n 2
       else s
     | none => s)
  | 2, .block lane bytes =>
    (match readLane bytes with
     | some (b, inv) => if lane < physLanes s t n then setLink s t n (noteLane (linkSt s t n) lane b inv) else s
     | none => s)
  | 2, .locked wanted => endSync s t n wanted
  | 3, .block _ bytes =>
    (match readLane bytes with
     | some (b, _) => if b.ty = identBlock then identify s t n b else s
     | none => s)
  | 4, .block _ bytes =>
    (match readLane bytes with
     | some (b, _) => if b.ty = eqBlock then tune s t n b else s
     | none => s)
  | 4, .tuned => setLinkState s t n 5
  | 5, .aligned => endAlign s t n
  | _, _ => s

/-- LINK_TRAINING: a board-reach link trains as far as these steps take it (R127). -/
def trainBoard (s : State) (t n : Nat) (steps : List TrainStep) : State :=
  if trains s t n = false ∨ mode s t ≤ 1 then s else steps.foldl (trainStep t n) s

/-! ## Tile-link training (R130, R131) -/

/-- The failed lanes as LNK_REPAIR0 or LNK_REPAIR1 shows four of them. -/
def repairWord (l : List Nat) : Word :=
  word (((l.take 4).zipIdx.map (fun (x, k) => (128 + x % 128) * 256 ^ k)).sum)

/-- The lanes that the PRBS test fails: more than 2 bit errors (R130). -/
def failedLanes (errors : List Nat) : List Nat := (List.range 104).filter (fun k => decide (2 < errors.getD k 0))

/-- The physical lane that carries logical lane `i` (R131): the i-th that the receiver did not fail. -/
def laneOf (failed : List Nat) (i : Nat) : Option Nat := ((List.range 104).filter (fun k => !failed.contains k))[i]?

/-- The WIDTH code both directions run at (R131): 96 lanes, 48, or 0 where the link does not train. -/
def tileWidth (rx tx : List Nat) : Nat :=
  let most := Nat.max rx.length tx.length
  if most ≤ 8 then 5 else if most ≤ 56 then 4 else 0

/-- The PRBS test of every lane ends (R130, R139). -/
def endPrbs (s : State) (t n : Nat) (errors : List Nat) : State :=
  let bad := failedLanes errors
  let s := setLink s t n { linkSt s t n with rxFailed := bad }
  let s := sf s t (lnk n 0) 0 7 bad.length
  wreg (wreg s t (lnk n 0x20) (repairWord bad)) t (lnk n 0x24) (repairWord (bad.drop 4))

/-- What a repair that uses spare lanes or half the lanes raises (R131). -/
def repairReport (s : State) (t n w : Nat) : State :=
  let s := if (linkSt s t n).rxFailed ≠ [] ∨ w = 4 then evt s t (phyRow n) 7 else s
  if w = 4 then recordFault s t 2 4 none n else s

/-- The partner's REPAIR block (R130): its identity and epoch, and the lanes to send on from now. -/
def takeRepair (s : State) (t n : Nat) (b : Block) : State :=
  let x := linkSt s t n
  let w := tileWidth x.rxFailed b.failed
  let s := sf s t (lnk n 0xC) 0 16 b.identity
  if w = 0 then trainFail s t n
  else setLinkState (setLink s t n { x with
    txFailed := b.failed
    aim := some (4, w, b.epoch) }) t n 5

/-- One step of a tile link's training (R130). -/
def tileStep (t n : Nat) (s : State) (e : TileStep) : State :=
  match linkState s t n, e with
  | 1, .clock => setLinkState s t n 2
  | 2, .prbs errors => setLinkState (endPrbs s t n errors) t n 3
  | 3, .block bytes =>
    (match readBlock bytes with
     | some b => if b.ty = repairBlock then takeRepair s t n b else s
     | none => s)
  | 5, .aligned =>
    (match (linkSt s t n).aim with
     | some (rate, w, epoch) => repairReport (goActive (setLink s t n { linkSt s t n with aim := none }) t n rate w epoch) t n w
     | none => s)
  | _, _ => s

/-- TILE_LINK_TRAINING: a tile link trains as far as these steps take it (R130). -/
def trainTile (s : State) (t n : Nat) (steps : List TileStep) : State := steps.foldl (tileStep t n) s

/-! ## What the lanes carry while a link trains (R126) -/

/-- The type of the blocks a slot sends, back to back on every lane; none while it sends flits or is silent. A link in RECOVER sends
ALIGN blocks, a tile link SYNC blocks (R136). -/
def blockType (s : State) (t n : Nat) : Option Nat :=
  match linkState s t n with
  | 1 => some syncBlock
  | 2 => some syncBlock
  | 3 => some (if n < 8 then identBlock else repairBlock)
  | 4 => some eqBlock
  | 5 => some alignBlock
  | 8 => some (if n < 8 then alignBlock else syncBlock)
  | _ => none

/-- The training block a slot sends on a lane (R126). What its equaliser asks of the partner is open: log entry 66. -/
def sentBlock (s : State) (t n lane : Nat) : Option (List Byte) :=
  (blockType s t n).map (fun ty =>
    let ask := Config.eqRequest (slotKey t n) lane
    let b : Block := { ty := ty, lane := lane, identity := ownIdentity s t n, epoch := linkEpoch s t n }
    blockBytes (if n < 8 then
      { b with
        rate := ownRate s t n
        width := ownWidth s t n
        offered := gf s t (lnk n 4) 3 1 == 1
        wanted := (linkSt s t n).precodeAsk
        preset := (ask.extractLsb' 0 4).toNat
        steps := (List.range 4).map (fun k => signed 4 (ask.extractLsb' (4 + 4 * k) 4).toNat) }
      else { b with failed := (linkSt s t n).rxFailed }))

/-! ## Live changes -/

/-- Queues a link-management message (R132, R144). -/
def sendMsg (s : State) (t n : Nat) (msg : List Byte) : State :=
  let x := linkSt s t n
  setLink s t n { x with msgs := x.msgs ++ [msg] }

/-- A link-management message of 8 bytes (R132). -/
def linkMsg (kind req identity rate width : Nat) : List Byte :=
  [BitVec.ofNat 8 kind, BitVec.ofNat 8 req] ++ leBytes 2 identity ++ [BitVec.ofNat 8 (rate + 4 * width), 0, 0, 0]

/-- A target clamped to what both ends support (R132); a code of 0, which no row of the table names, is taken as 1 (DESIGN CHOICE: log
entry 63). -/
def clampTarget (s : State) (t n rate width : Nat) : Nat × Nat :=
  let x := linkSt s t n
  (clamp 1 (Nat.max 1 (Nat.min (ownRate s t n) x.peerRate)) rate,
   clamp 1 (Nat.max 1 (Nat.min (ownWidth s t n) x.peerWidth)) width)

/-- The rate and width a link runs at. -/
def linkShape (s : State) (t n : Nat) : Nat × Nat := (gf s t (lnk n 0) 16 4, gf s t (lnk n 0) 12 4)

/-- CHANGE written (R132 to R135): an LCR is sent, or the request ends at once. In CHANGE or RECOVER with no request open it is ignored,
LAST_RESULT unchanged: R135 names no result for it (DEDUCED, log entry 47). -/
def writeChange (s : State) (t n : Nat) : State :=
  if 8 ≤ n ∨ gf s t (lnk n 0) 30 1 = 1 then s
  else if linkState s t n ≠ 6 then
    (if linkState s t n = 7 ∨ linkState s t n = 8 then s else endChange s t n 5)
  else
    let (rate, width) := clampTarget s t n (targetRate s t n) (targetWidth s t n)
    if linkShape s t n = (rate, width) then endChange s t n 1
    else
      let x := linkSt s t n
      let req := match x.reqNum with
        | some r => (r + 1) % 256
        | none => (Config.firstReqNum (slotKey t n)).toNat
      let s := setLink s t n { x with reqNum := some req, change := some ⟨req, rate, width, false, true⟩ }
      let s := sf (sf s t (lnk n 0) 30 1 1) t (lnk n 4) 0 1 1
      sendMsg s t n (linkMsg 1 req (ownIdentity s t n) rate width)

/-- Step 1 of an accepted change (R133): CHANGE, one PAUSE flit is owed, and no NAK is sent (R150). -/
def startChange (s : State) (t n req rate width : Nat) (ours : Bool) : State :=
  let x := linkSt s t n
  let s := setLink s t n { x with change := some ⟨req, rate, width, true, ours⟩, pausing := true, pauseDue := false, nakHeld := true }
  sf (setLinkState s t n 7) t (lnk n 0) 30 1 1

/-- A change is accepted by this end's LCR_ACK: step 1 begins once that has been sent (R133). -/
def acceptChange (s : State) (t n req rate width : Nat) (ours : Bool) : State :=
  let x := linkSt s t n
  sf (setLink s t n { x with change := some ⟨req, rate, width, true, ours⟩, pauseDue := true }) t (lnk n 0) 30 1 1

/-- An LCR arrives (R132, R134, R135). -/
def takeLcr (s : State) (t n req identity rate0 width0 : Nat) : State :=
  if 8 ≤ n ∨ linkAlive s t n = false then s else
  let own := ownIdentity s t n
  let (rate, width) := clampTarget s t n rate0 width0
  let ack (s : State) : State := sendMsg s t n (linkMsg 2 req own rate width)
  if linkState s t n ≠ 6 then sendMsg s t n (linkMsg 3 req own rate width)
  else match (linkSt s t n).change with
    | some c =>
      if c.accepted then sendMsg s t n (linkMsg 3 req own rate width)
      else if c.rate = rate ∧ c.width = width then acceptChange (ack s) t n c.req rate width true
      else if own < identity then s
      else acceptChange (ack (evt (endChange s t n 2) t (phyRow n) 4)) t n req rate width false
    | none =>
      if linkShape s t n = (rate, width) then ack s else acceptChange (ack s) t n req rate width false

/-- An LCR_ACK arrives: the open request with its number is accepted (R132, R133). -/
def takeAck (s : State) (t n req : Nat) : State :=
  match (linkSt s t n).change with
  | some c =>
    if c.ours ∧ ¬ c.accepted ∧ c.req = req ∧ linkState s t n = 6 then startChange s t n c.req c.rate c.width true else s
  | none => s

/-- An LCR_REFUSE arrives: the open request ends with REFUSED. -/
def takeRefuse (s : State) (t n req : Nat) : State :=
  match (linkSt s t n).change with
  | some c => if c.ours ∧ ¬ c.accepted ∧ c.req = req then evt (endChange s t n 3) t (phyRow n) 5 else s
  | none => s

/-- 10 µs without an answer: the request ends with TIMEOUT. -/
def changeTimeout (s : State) (t n : Nat) : State :=
  match (linkSt s t n).change with
  | some c => if c.ours ∧ ¬ c.accepted then endChange s t n 4 else s
  | none => s

/-- Every unacknowledged flit is queued for resending, in order (R133, R136). -/
def replayAll (s : State) (t n : Nat) : State :=
  let x := linkSt s t n
  setLink s t n { x with
    resend := x.replay.map (fun f => (f.seq, 0))
    pausing := false
    paused := false
    pauseDue := false
    badRun := 0
    codewords := []
    locklossRun := false }

/-- A live change reaches ACTIVE (R133 step 4). -/
def finishChange (s : State) (t n : Nat) : State :=
  match (linkSt s t n).change with
  | some c =>
    if linkState s t n = 7 ∧ c.accepted then
      let last := gf s t (lnk n 0) 8 4
      let s := sf (sf (setLinkState s t n 6) t (lnk n 0) 16 4 c.rate) t (lnk n 0) 12 4 c.width
      let s := emit (endChange s t n (if c.ours then 0 else last)) (.train t n c.rate c.width)
      evt (replayAll s t n) t (phyRow n) 3
    else s
  | none => s

/-! ## Down, disable, lock loss -/

/-- DOWN written or DISABLE set (R137): a link that is up sends DOWN and is declared down. -/
def commandDown (s : State) (t n : Nat) (held : Bool) : State :=
  if linkAlive s t n then declareDown (sendDown s t n) t n held
  else if held then setLinkState s t n 0 else s

/-- DISABLE set (R125, R139). -/
def disableLink (s : State) (t n : Nat) : State := commandDown (sf s t (lnk n 4) 2 1 1) t n true

/-- Lock is lost (R136): RECOVER, keeping its state; queued resends are dropped (R160). Inside a change the timer starts
instead (R135). -/
def loseLock (s : State) (t n : Nat) : State :=
  let x := linkSt s t n
  if linkState s t n = 6 then
    evt (setLinkState (setLink s t n { x with resend := [], badRun := 0, codewords := [], locklossRun := true }) t n 8) t (phyRow n) 0
  else if linkState s t n = 7 then setLink s t n { x with locklossRun := true }
  else s

/-- RECOVER ends in ACTIVE, from a new ALIGN, in the same epoch (R136). -/
def recovered (s : State) (t n : Nat) : State :=
  let s := emit (setLinkState s t n 6) (.train t n (gf s t (lnk n 0) 16 4) (gf s t (lnk n 0) 12 4))
  evt (cf (replayAll s t n) t (lnk n 0x1C) 0 16) t (phyRow n) 1

/-- A tile link's recovery (R136): steps 2 to 4 of R130, a new test and repair of every lane, without identities or epochs; one that
fails too many lanes does not end. -/
def recoverTile (s : State) (t n : Nat) (steps : List TileStep) : State :=
  match steps with
  | [.prbs errors, .block bytes, .aligned] =>
    let s := endPrbs s t n errors
    (match readBlock bytes with
     | some b =>
       let x := linkSt s t n
       let w := tileWidth x.rxFailed b.failed
       if b.ty ≠ repairBlock ∨ w = 0 then s
       else repairReport (recovered (sf (setLink s t n { x with txFailed := b.failed }) t (lnk n 0) 12 4 w) t n) t n w
     | none => s)
  | _ => s

/-- RECOVERY_COMPLETE (R136): a board-reach link keeps rate, width, lanes and coefficients; a tile link retrains. -/
def recover (s : State) (t n : Nat) (steps : List TileStep) : State :=
  if linkState s t n ≠ 8 then s else if n < 8 then recovered s t n else recoverTile s t n steps

/-- LNK_LOCKLOSS_TMR elapses (R137). -/
def lockTimer (s : State) (t n : Nat) : State :=
  if linkState s t n = 8 ∨ (linkState s t n = 7 ∧ (linkSt s t n).locklossRun) then declareDown s t n false else s

/-! ## Meanings -/

/-- Whether slot `n` of tile `t` is a local slot of the part. -/
def localOk (s : State) (t n : Nat) : Bool := decide (t < s.part.tiles) && decide (n < 8)

/-- Whether slot `n` of tile `t` is a slot of the part. -/
def slotOk (s : State) (t n : Nat) : Bool := decide (t < s.part.tiles) && decide (n < slotCount)

/-- LINK_TRAINING (R127). -/
def execLinkTraining (t n : Nat) (steps : List TrainStep) (s : State) : Res := onUnit (localOk s t n) (trainBoard s t n steps)

/-- TRAINING_STEP_TIMEOUT (R127): an attempt under way fails; a board-reach link waits in DETECT without bound, and one that waits in
IDENTIFY on equal identities stays there (R129). -/
def execTrainingStepTimeout (t n : Nat) (s : State) : Res :=
  onUnit (slotOk s t n)
    (if trains s t n ∧ gf s t (lnk n 0) 29 1 = 0 ∧ (8 ≤ n ∨ linkState s t n ≠ 1) then trainFail s t n else s)

/-- IDENTIFY_RETRY (R129). -/
def execIdentifyRetry (t n : Nat) (identity : BitVec 16) (s : State) : Res :=
  onUnit (localOk s t n) <|
    if linkState s t n = 3 then
      let s := sf s t (lnk n 0xC) 0 16 identity.toNat
      if identity.toNat = ownIdentity s t n then evt (sf s t (lnk n 0) 29 1 1) t (phyRow n) 8
      else sf s t (lnk n 0) 29 1 0
    else s

/-- TILE_LINK_TRAINING (R130). -/
def execTileLinkTraining (t n : Nat) (steps : List TileStep) (s : State) : Res :=
  onUnit (slotOk s t n && decide (8 ≤ n)) (trainTile s t n steps)

/-- LCR_RECEIVE (R134). -/
def execLcrReceive (t n : Nat) (reqNum : BitVec 8) (identity : BitVec 16) (rate width : BitVec 2) (s : State) : Res :=
  onUnit (slotOk s t n) (takeLcr s t n reqNum.toNat identity.toNat rate.toNat width.toNat)

/-- LCR_ACK_RECEIVE (R133). -/
def execLcrAckReceive (t n : Nat) (reqNum : BitVec 8) (s : State) : Res :=
  onUnit (slotOk s t n) (takeAck s t n reqNum.toNat)

/-- LCR_REFUSE_RECEIVE (R135). -/
def execLcrRefuseReceive (t n : Nat) (reqNum : BitVec 8) (s : State) : Res :=
  onUnit (slotOk s t n) (takeRefuse s t n reqNum.toNat)

/-- LCR_TIMEOUT (R132). -/
def execLcrTimeout (t n : Nat) (s : State) : Res := onUnit (slotOk s t n) (changeTimeout s t n)

/-- LIVE_CHANGE_COMPLETE (R133). -/
def execLiveChangeComplete (t n : Nat) (s : State) : Res := onUnit (slotOk s t n) (finishChange s t n)

/-- DOWN_RECEIVE (R137). -/
def execDownReceive (t n : Nat) (s : State) : Res :=
  onUnit (slotOk s t n) (if linkAlive s t n then declareDown s t n false else s)

/-- LOCK_LOSS (R136). -/
def execLockLoss (t n : Nat) (s : State) : Res := onUnit (slotOk s t n) (loseLock s t n)

/-- RECOVERY_COMPLETE (R136). -/
def execRecoveryComplete (t n : Nat) (steps : List TileStep) (s : State) : Res := onUnit (slotOk s t n) (recover s t n steps)

/-- LOCKLOSS_TIMER_EXPIRY (R137). -/
def execLocklossTimerExpiry (t n : Nat) (s : State) : Res := onUnit (slotOk s t n) (lockTimer s t n)

end Sys2Proof.Machine
end

