-- ==== Sys2Proof/Machine/Age.lean ====
section
/-! DEFINITION. The calendar (R350 to R354), the canary monitors (R355), the core-voltage request (R357 to R359), re-planning
(R360 to R363), maintenance windows (R364) and the ageing history (R365). -/

namespace Sys2Proof.Machine

open Sys2Proof

/-! ## The calendar -/

/-- The calendar's time in units of 2^-32 s. -/
def CalSt.total (c : CalSt) : Nat := c.sec * 2 ^ 32 + c.sub

/-- Sets the calendar's time. -/
def CalSt.at (c : CalSt) (n : Nat) : CalSt := { c with sec := n / 2 ^ 32 % 2 ^ 48, sub := n % 2 ^ 32 }

/-- CAL_STATUS (R354). -/
def calStatus (s : State) : Word :=
  word (b2n s.cal.valid * 2 ^ 31 + b2n s.cal.substitute * 2 ^ 30 + b2n s.cal.slewing * 2 ^ 29 + b2n s.cal.following * 2 ^ 28)

/-- A write of CAL_TRIM (R354): the nearest allowed trim. -/
def writeTrim (s : State) (v : Int) : State :=
  { s with cal := { s.cal with trim := if v < -1048576 then -1048576 else if 1048576 < v then 1048576 else v } }

/-- CAL_TRIM as it reads. -/
def trimWord (s : State) : Word := word (unsigned 22 s.cal.trim)

/-- What of the trim the next tick takes (R350): a free share within the bounds that keep each tick's step between 131,040 and 131,104
units and the sum of a round exact. While the calendar follows the ring, the ring's correction stands in its place (R382). -/
def tickShare (c : CalSt) (n : Nat) : Int :=
  let left := 32767 - (c.round : Int)
  let rest := c.trim - c.given
  let x := Config.trimSpread n
  if c.following then (if x < -32 then -32 else if 32 < x then 32 else x)
  else
    let lo := if rest - 32 * left < -32 then -32 else rest - 32 * left
    let hi := if 32 < rest + 32 * left then 32 else rest + 32 * left
    if x < lo then lo else if hi < x then hi else x

/-- What a slew adds at its `n`-th tick: 500 ppm of a tick, 65.536 units, and never more than is left (R353). -/
def slewShare (c : CalSt) : Int :=
  let k := c.slewTicks
  let step : Int := ((65536 * (k + 1) / 1000 - 65536 * k / 1000 : Nat) : Int)
  if c.slew < 0 then (if c.slew < -step then -step else c.slew) else if step < c.slew then step else c.slew

/-- One tick of the calendar (R350). -/
def calTick (c : CalSt) (n : Nat) : CalSt :=
  let a := tickShare c n
  let b := slewShare c
  let c := c.at (((c.total : Int) + 131072 + a + b).toNat)
  { c with round := if c.round = 32767 then 0 else c.round + 1, given := if c.round = 32767 then 0 else c.given + a,
           slew := c.slew - b, slewTicks := if c.slew = b then 0 else c.slewTicks + 1 }

/-- Sets the time, as WRITE and a step of the ring do (R353, R382). -/
def setTime (s : State) (n : Nat) : State :=
  let c := s.cal.at n
  evt { s with cal := { c with valid := true, slew := 0, slewTicks := 0, slewing := false, lastRead := 0 } } 0 39 5

/-- The timestamp mailbox. -/
abbrev tsMb : Nat := 0x9000000

/-- A time as the mailbox's data words. -/
def tsWords (n : Nat) : List Word := [word (n % 2 ^ 32), word (n / 2 ^ 32), word (n / 2 ^ 64 % 65536), 0]

/-- A recorded power time; zero if never recorded. -/
def powerTime : Option (Nat × Nat) → Nat
  | some (sec, sub) => sec * 2 ^ 32 + sub
  | none => 0

/-- The fine time of a READ (R352): between the last tick and the next, never below an earlier READ. What lies between ticks is a free
value, log entry 24. -/
def fineTime (s : State) : Nat :=
  Nat.max s.cal.lastRead (s.cal.total + (Config.freeWord s.fresh).toNat % 131040)

/-- TIMESTAMP_READ (R353). -/
def tsRead (s : State) : State :=
  mbCmd s 0 tsMb 1 (fun s =>
    match mbIndex s 0 tsMb with
    | 0 =>
      let n := fineTime s
      mbEnd { tickFresh s with cal := { s.cal with lastRead := n } } 0 tsMb (.ok (tsWords n))
    | 1 => mbEnd s 0 tsMb (.ok (tsWords (powerTime s.cal.lost)))
    | 2 => mbEnd s 0 tsMb (.ok (tsWords (powerTime s.cal.rise)))
    | _ => mbEnd s 0 tsMb badIndex)

/-- WRITE and SLEW: an index above 2 is bad, and indexes 1 and 2 and a calendar that follows the ring refuse (R353). -/
def tsChange (s : State) (op : Nat) (k : State → State) : State :=
  mbCmd s 0 tsMb op (fun s =>
    if 2 < mbIndex s 0 tsMb then mbEnd s 0 tsMb badIndex
    else if mbIndex s 0 tsMb ≠ 0 ∨ s.cal.following then mbEnd s 0 tsMb refusedMb
    else mbEnd (k s) 0 tsMb (.ok []))

/-- TIMESTAMP_WRITE (R353). -/
def tsWrite (s : State) : State :=
  tsChange s 2 (fun s =>
    setTime s ((mbData s 0 tsMb 0).toNat + (mbData s 0 tsMb 1).toNat * 2 ^ 32 + fld (mbData s 0 tsMb 2) 0 16 * 2 ^ 64))

/-- SLEW (R353). -/
def tsSlew (s : State) : State :=
  tsChange s 3 (fun s =>
    let v := signed 64 (pair (mbData s 0 tsMb 0) (mbData s 0 tsMb 1))
    let v := if v < -4294967296 then -4294967296 else if 4294967296 < v then 4294967296 else v
    { s with cal := { s.cal with slew := v, slewTicks := 0, slewing := true } })

/-- The slew's offset is used up (R353). -/
def slewDone (s : State) : State :=
  if s.cal.slew = 0 then { s with cal := { s.cal with slewing := false, slewTicks := 0 } } else s

/-- No crystal tick for 1 ms (R351): under main power CAL_STOPPED and ticks from SYSCLK, on VBAT the stop flag. -/
def crystalStop (s : State) : State :=
  if s.cal.still ∨ s.cal.dead then s
  else if s.core.pwrgood then
    let s := evt { s with cal := { s.cal with still := true, substitute := true } } 0 39 6
    if mode s 0 = 0 then s else recordFault s 0 9 1 none 0
  else { s with cal := { s.cal with still := true, stopFlag := true } }

/-- The crystal takes over again (R351). -/
def crystalResume (s : State) : State := { s with cal := { s.cal with still := false, substitute := false } }

/-! ## Canary monitors (R355) -/

/-- CANARY_NOW{m} of a tile. -/
def canaryNow (s : State) (t m : Nat) : Word := Tbl.get 0 s.age.now (t * 64 + m)

/-- A canary reading: kept with VALID when in range; out of range it raises CANARY_FAIL and counts in no decision. A fenced tile and
one in OFF or FIDDLEHEAD reads nothing. -/
def takeReading (s : State) (x : Nat × Nat × BitVec 24) : State :=
  let (t, m, v) := x
  if s.part.tiles ≤ t ∨ 64 ≤ m ∨ mode s t ≤ 1 ∨ (tileSt s t).fenced then s
  else
    let k := t * 64 + m
    let w := if m < 48 then v.toNat else v.toNat % 65536
    if Config.canaryInRange m v then
      { s with age := { s.age with now := Tbl.set 0 s.age.now k (word (2 ^ 31 + w)), bad := Tbl.del s.age.bad k } }
    else
      let s := { s with age := { s.age with now := Tbl.set 0 s.age.now k (word w), bad := Tbl.ins s.age.bad k () } }
      recordFault s t 9 3 none m

/-- The worst valid path-delay reading of a tile: slack and monitor (R357). -/
def slackOf (s : State) (t : Nat) : Option (Int × Nat) :=
  ((List.range 16).map (48 + ·)).foldl (fun a m =>
    if bit (canaryNow s t m) 31 then
      let v := signed 16 (fld (canaryNow s t m) 0 16)
      match a with
      | some (b, _) => if v < b then some (v, m) else a
      | none => some (v, m)
    else a) none

/-- AGE_SLACK of a tile follows its readings. -/
def slackRefresh (s : State) (t : Nat) : State :=
  match slackOf s t with
  | some (v, m) => wreg s t 0x900009C (word ((m - 48) * 65536 + unsigned 16 v))
  | none => s

/-- A snapshot of canary readings. -/
def takeReadings (s : State) (l : List (Nat × Nat × BitVec 24)) : State :=
  (List.range s.part.tiles).foldl slackRefresh (l.foldl takeReading s)

/-- The tiles that are neither OFF nor in FIDDLEHEAD. -/
def liveTiles (s : State) : List Nat := (List.range s.part.tiles).filter (fun t => decide (2 ≤ mode s t))

/-- Those of them whose blocks change state: not the fenced ones (R337). -/
def runTiles (s : State) : List Nat := (liveTiles s).filter (fun t => !(tileSt s t).fenced)

/-- The package worst slack S (R357). -/
def worstSlack (s : State) : Option Int :=
  (liveTiles s).foldl (fun a t =>
    match a, slackOf s t with
    | some b, some (v, _) => some (if v < b then v else b)
    | none, some (v, _) => some v
    | a, none => a) none

/-! ## The history (R365) -/

/-- Mean ring-oscillator frequency of a tile against its baseline, in units of 0.01 %. -/
def roShift (s : State) (t : Nat) : Int :=
  let ms := (List.range 48).filter (fun m =>
    bit (canaryNow s t m) 31 && bit (Tbl.get 0 s.age.base (t * 64 + m)) 31)
  let now := (ms.map (fun m => fld (canaryNow s t m) 0 24)).sum
  let base := (ms.map (fun m => fld (Tbl.get 0 s.age.base (t * 64 + m)) 0 24)).sum
  if base = 0 then 0 else ((now : Int) - base) * 10000 / base

/-- A history record's 32 bytes. -/
def histBytes (s : State) (t kind eqChanges : Nat) : List Byte :=
  let (v, m) := (slackOf s t).getD (0, 48)
  let e := Tbl.get {} s.age.eyes t
  leBytes 6 s.cal.sec ++ [BitVec.ofNat 8 kind, BitVec.ofNat 8 t] ++ leBytes 2 (gf s 0 0x9000098 0 16) ++
  leBytes 2 (unsigned 16 v) ++ [BitVec.ofNat 8 m, BitVec.ofNat 8 (gf s t 0xC000010 0 8)] ++
  leBytes 2 (unsigned 16 (roShift s t)) ++ [BitVec.ofNat 8 e.port, BitVec.ofNat 8 e.lane] ++ leBytes 2 e.height ++
  leBytes 2 e.width ++ leBytes 2 eqChanges ++ leBytes 2 (Tbl.get 0 s.age.lanesLow t) ++
  leBytes 2 (Tbl.get 0 s.age.raises t) ++ leBytes 4 (Tbl.get 0 s.age.histSeq t)

/-- Writes a history record (R365). -/
def histPut (s : State) (t kind eqChanges : Nat) : State :=
  let n := Tbl.get 0 s.age.histSeq t
  let s := mramWrite s t (0x1C0000 + 32 * (n % 4096)) (histBytes s t kind eqChanges)
  let s := { s with age := { s.age with histSeq := Tbl.set 0 s.age.histSeq t ((n + 1) % 2 ^ 32)
                                        raises := Tbl.del s.age.raises t } }
  cf (sf s t 0x90000A4 0 12 ((n + 1) % 4096)) t 0x90000A4 16 16

/-- VREQ of the newest history record of tile 0, if there is one (R359). -/
def newestVreq (s : State) : Option Nat :=
  let n := Tbl.get 0 s.age.histSeq 0
  if n = 0 then none else some (leNat (mramRead s 0 (0x1C0000 + 32 * ((n - 1) % 4096) + 8) 2))

/-! ## The core-voltage request (R357 to R359, R399) -/

/-- AGE_VREQ, in units of 0.1 mV. -/
def vreq (s : State) : Nat := gf s 0 0x9000098 0 16

/-- PMBus commands. PRESUMED: log entry 25. -/
abbrev pmbVoutMode : Nat := 0x20
abbrev pmbVoutCommand : Nat := 0x21
abbrev pmbReadVout : Nat := 0x8B

/-- A PMBus transaction with the regulator is sent (R399). A request leaves as its value in 0.1 mV: log entry 25. -/
def pmbusSend (s : State) (command : Nat) : State :=
  emit (sf s 0 0xC00001C 30 1 1) (.pmbus (gf s 0 0xC000018 0 7) command
    (if command = pmbVoutCommand then BitVec.ofNat 16 (vreq s) else 0))

/-- How a PMBus transaction ended (R399): one not acknowledged sets PMB_NACK and waits to be sent again. -/
def pmbusEnd (s : State) (command : Nat) (acked : Bool) : State :=
  if acked then sf (sf { s with pwr := { s.pwr with retry := none } } 0 0xC00001C 31 1 0) 0 0xC00001C 30 1 0
  else evt (sf (sf { s with pwr := { s.pwr with retry := some command } } 0 0xC00001C 31 1 1) 0 0xC00001C 30 1 1) 0 41 3

/-- Sets the request and sends it. -/
def setVreq (s : State) (v : Nat) : State := pmbusSend (wreg s 0 0x9000098 (word v)) pmbVoutCommand

/-- Replaces the voltage loop. -/
def setVolt (s : State) (x : Option VoltRun) : State := { s with age := { s.age with volt := x } }

/-- AGE_GUARD.GUARD of tile 0, which governs the package. -/
def guardOf (s : State) : Int := gf s 0 0x9000088 0 10

/-- AGE_GUARD.HYST of tile 0. -/
def hystOf (s : State) : Int := gf s 0 0x9000088 16 8

/-- Whether nothing may be lowered: a tile is fenced or latched fatal (R357). -/
def noLower (s : State) : Bool :=
  (List.range s.part.tiles).any (fun t => (tileSt s t).fenced || gf s t 0x118 0 1 == 1)

/-- MARGIN_EXHAUSTED of a tile (R363): voltage (0) or a lane (1), with the slack or eye height. -/
def marginFault (s : State) (t kind value : Nat) : State :=
  let e := rreg s t 0x90000A0
  evt (recordFault s t 9 2 none (kind * 2 ^ 40 + fld e 24 8 * 2 ^ 32 + fld e 16 8 * 2 ^ 24 + value)) t 39 2

/-- The slack of a tile whose voltage margin is exhausted (R363): the request at 0.85 V and the slack below GUARD. -/
def voltExhausted (s : State) (t : Nat) : Option Int :=
  match slackOf s t with
  | some (v, _) => if vreq s = 8500 ∧ v < guardOf s then some v else none
  | none => none

/-- An out-of-schedule raise ends (R358, R363, R365): RAISED, a record at most once in 10 minutes, the margins judged. -/
def raiseEnds (s : State) : State :=
  (runTiles s).foldl (fun s t =>
    let s := evt s t 39 1
    let recent : Bool := match Tbl.get none s.age.lastRaise t with
      | some l => decide (s.cal.sec < l + 600)
      | none => false
    let s := if recent then
        { s with age := { s.age with raises := Tbl.set 0 s.age.raises t (Nat.min 65535 (Tbl.get 0 s.age.raises t + 1)) } }
      else histPut { s with age := { s.age with lastRaise := Tbl.set none s.age.lastRaise t (some s.cal.sec) } } t 1 0
    match voltExhausted s t with
    | some v => marginFault (sf s t 0x9000084 29 1 1) t 0 (unsigned 16 v)
    | none => s) s

/-- The voltage loop ends. -/
def voltEnds (s : State) (x : VoltRun) : State :=
  let s := setVolt s none
  if x.plan ∨ x.steps = 0 then s else raiseEnds s

/-- The voltage loop goes on from a measured S (R358, R361): one step up below GUARD, one step down at GUARD + HYST in a re-plan where
nothing forbids it, else the end. A re-plan makes at most 8 steps, but for a raise that has fallen due (R366). -/
def voltGo (s : State) (x : VoltRun) : State :=
  match worstSlack s with
  | none => voltEnds s x
  | some v =>
    let may := !x.plan || decide (x.steps < 8)
    if v < guardOf s ∧ vreq s < 8500 ∧ (may ∨ x.due) then
      let before := vreq s
      setVolt (setVreq s (Nat.min 8500 (before + 25))) (some { x with steps := x.steps + 1, before := before, lowered := false })
    else if x.plan ∧ may ∧ guardOf s + hystOf s ≤ v ∧ 6500 < vreq s ∧ noLower s = false then
      let before := vreq s
      setVolt (setVreq s (Nat.max 6500 (before - 25))) (some { x with steps := x.steps + 1, before := before, lowered := true })
    else voltEnds s x

/-- VOLTAGE_RAISE_STEP: 2 ms after a step the regulator has answered and S is measured again (R358, R361, R399). A step not
acknowledged is not made, and the loop ends; a lowering that leaves S below GUARD, or that a fence overtakes, is undone. -/
def voltStep (s : State) (readings : List (Nat × Nat × BitVec 24)) (acked : Bool) : State :=
  match s.age.volt with
  | none => s
  | some x =>
    let s := pmbusEnd (takeReadings s readings) pmbVoutCommand acked
    if acked = false then voltEnds (wreg s 0 0x9000098 (word x.before)) { x with steps := x.steps - 1 }
    else
      let short : Bool := match worstSlack s with
        | some v => decide (v < guardOf s)
        | none => false
      if x.lowered ∧ short then voltEnds (setVreq s x.before) x
      else if x.lowered ∧ noLower s then voltGo (setVreq s x.before) x
      else voltGo s x

/-- Whether tile 0's Headframe runs: from COMPOSE on. -/
def headframe0 (s : State) : Bool := decide (2 ≤ mode s 0)

/-- CANARY_SAMPLE: the one-second sample (R355, R358). -/
def canarySample (s : State) (readings : List (Nat × Nat × BitVec 24)) : State :=
  let s := takeReadings s readings
  match worstSlack s with
  | some v =>
    if v < guardOf s - hystOf s ∧ headframe0 s then
      match s.age.volt with
      | some x => setVolt s (some { x with due := true })
      | none => if vreq s < 8500 then voltGo s ⟨false, 0, vreq s, false, true⟩ else s
    else s
  | none => s

/-! ## Re-planning (R360 to R363) -/

/-- AGE_STATUS.PLANNING. -/
def planning (s : State) : Bool := s.age.plan.isSome

/-- Step 1 of a re-plan (R361), and the first turn of its voltage loop. -/
def planStart (s : State) (readings : List (Nat × Nat × BitVec 24)) : State :=
  let all := runTiles s
  let eqs := all.filter (fun t => mode s t == 3)
  let s := takeReadings s readings
  let s := all.foldl (fun s t =>
    let s := sf s t 0x9000084 31 1 1
    if mode s t = 3 then s else stf s t 0x9000084 8 8) s
  let s := { s with age := { s.age with plan := some { tiles := eqs, recs := all } } }
  match s.age.volt with
  | some _ => s
  | none => voltGo s ⟨true, 0, vreq s, false, false⟩

/-- REPLAN_START (R360, R366). -/
def replanStart (s : State) (readings : List (Nat × Nat × BitVec 24)) : State :=
  if s.cal.sec % 86400 ≠ gf s 0 0x9000090 0 17 ∨ gf s 0 0x9000080 1 1 = 0 ∨ headframe0 s = false then s
  else if planning s then (runTiles s).foldl (fun s t => stf s t 0x9000084 8 8) s
  else planStart s readings

/-- PLAN_NOW written on tile 0 (R360). -/
def planNow (s : State) (readings : List (Nat × Nat × BitVec 24)) : State :=
  if planning s ∨ headframe0 s = false then s else planStart s readings

/-- The settings of an equaliser trial that stand: the change of code and the eye height. -/
def eqChoices (x : EqTrial) : List (Int × Nat) :=
  let l : List (Int × Option Nat) := [(0, some x.height0), (1, x.up), (-1, x.down)]
  let l := l.filterMap (fun c => c.2.map (fun h => (c.1, h)))
  let top := (l.map Prod.snd).foldl Nat.max 0
  l.filter (fun c => c.2 == top)

/-- EQ_TRIAL_END (R362, R366): the setting with the largest eye height is kept; between equals the choice is free, log entry 16. -/
def eqTrial (s : State) (t n : Nat) (x : EqTrial) : State :=
  match s.age.plan with
  | none => s
  | some p =>
    let k := (t * 11 + n) * 128 + x.lane
    if p.tiles.contains t = false ∨ mode s t ≠ 3 ∨ linkState s t n ≠ 6 ∨ 8 ≤ x.lane ∨ p.lanes.contains k ∨
        gf s t 0x900008C 0 8 + 8 ≤ x.height0 then s
    else
      let p := { p with lanes := p.lanes ++ [k] }
      if x.disturbed then { s with age := { s.age with plan := some p } }
      else
        let l := eqChoices x
        let c := (l.getD ((Config.freeWord s.fresh).toNat % l.length) (0, 0)).1
        let p := if c = 0 then p else { p with changes := Tbl.set 0 p.changes t (Tbl.get 0 p.changes t + 1) }
        tickFresh { s with age := { s.age with plan := some p, eq := Tbl.set 0 s.age.eq k (Tbl.get 0 s.age.eq k + c) } }

/-- AGE_EYE_MIN of a port code's kind. -/
def eyeMin (s : State) (t port : Nat) : Nat :=
  match port / 16 with
  | 0 => gf s t 0x900008C 16 8
  | 1 => gf s t 0x900008C 0 8
  | _ => gf s t 0x900008C 8 8

/-- The lane whose eye lies furthest below, or nearest above, its minimum (R356). -/
def worstEye (s : State) (t : Nat) : List EyeSt → Option EyeSt
  | [] => none
  | e :: r =>
    match worstEye s t r with
    | none => some e
    | some f => if e.height + eyeMin s t f.port ≤ f.height + eyeMin s t e.port then some e else some f

/-- Step 4 for one tile (R361, R363, R365): its eyes judged, its record written, its margins reported. -/
def planTile (s : State) (p : PlanRun) (t : Nat) (eyes : List EyeSt) : State :=
  let low := eyes.filter (fun e => decide (e.height < eyeMin s t e.port))
  let w := (worstEye s t eyes).getD {}
  let s := { s with age := { s.age with eyes := Tbl.set {} s.age.eyes t w
                                        lanesLow := Tbl.set 0 s.age.lanesLow t low.length
                                        lowPorts := Tbl.set [] s.age.lowPorts t (low.foldl (fun a e => insNat e.port a) []) } }
  let s := wreg s t 0x90000A0 (word (w.port * 2 ^ 24 + w.lane * 2 ^ 16 + w.height))
  let s := histPut s t 0 (Tbl.get 0 p.changes t)
  let v := voltExhausted s t
  let s := sf (sf s t 0x9000084 29 1 (b2n v.isSome)) t 0x9000084 28 1 (b2n (!low.isEmpty))
  let s := match v with
    | some x => marginFault s t 0 (unsigned 16 x)
    | none => if low.isEmpty then s else marginFault s t 1 w.height
  let s := sf (cf s t 0x9000084 0 8) t 0x9000084 31 1 0
  evt s t 39 0

/-! ## Maintenance windows (R364) -/

/-- Whether a port code lies in AGE_MAINT.SCOPE. -/
def inScope (scope port : Nat) : Bool :=
  match port / 16 with
  | 0 => scope.testBit 7
  | 1 => scope.testBit (port % 16 / 2)
  | _ => scope.testBit (4 + (port % 16 - 8))

/-- What Headframe does once on a port with a lane counted low: `none` where there is nothing to lower. -/
def maintPort (s : State) (t port : Nat) : Option State :=
  let n := port % 16
  match port / 16 with
  | 0 =>
    let cap := gf s t (hpt n 4) 8 3
    if cap ≤ 1 then none else some (writeRateCap s (4 * t + n) (cap - 1))
  | 1 =>
    if linkState s t n ≠ 6 ∨ (linkShape s t n).1 ≤ 1 then none
    else some (writeChange (sf (sf s t (lnk n 4) 10 2 ((linkShape s t n).1 - 1)) t (lnk n 4) 8 2 (linkShape s t n).2) t n)
  | _ => if linkAlive s t n then some (commandDown s t n false) else none

/-- The actions of an open window, one port at a time. -/
def maintAct (s : State) (t : Nat) : State :=
  let ports := (Tbl.get [] s.age.lowPorts t).filter (inScope (gf s t 0x9000094 0 8))
  ports.foldl (fun s p =>
    match maintPort s t p with
    | some s => evt (histPut s t 2 0) t 39 3
    | none => s) { s with age := { s.age with maintDue := Tbl.del s.age.maintDue t } }

/-- A maintenance window closes (R364). -/
def maintEnd (s : State) (t : Nat) : State :=
  if gf s t 0x9000084 30 1 = 0 then s
  else
    let s := { s with age := { s.age with maintDue := Tbl.del s.age.maintDue t, maintTicks := Tbl.del s.age.maintTicks t } }
    evt (sf (sf s t 0x9000094 8 8 0) t 0x9000084 30 1 0) t 39 4

/-- A keyed write of AGE_MAINT (R364, R366): MINUTES 0 ends the window; granted during a re-plan, its actions wait for step 4. -/
def maintWrite (s : State) (t minutes scope : Nat) : State :=
  if minutes = 0 then sf (maintEnd s t) t 0x9000094 0 8 scope
  else
    let s := sf (wreg s t 0x9000094 (word (minutes * 256 + scope))) t 0x9000084 30 1 1
    let s := { s with age := { s.age with maintTicks := Tbl.del s.age.maintTicks t } }
    if mode s t ≤ 1 ∨ (tileSt s t).fenced then s
    else if planning s then { s with age := { s.age with maintDue := Tbl.set false s.age.maintDue t true } }
    else maintAct s t

/-- REPLAN_END (R361 step 4): once the voltage loop has ended, every tile that takes part is judged, and the actions of windows
granted meanwhile follow. -/
def replanEnd (s : State) (eyes : List (Nat × BitVec 8 × Nat × Nat × Nat)) : State :=
  match s.age.plan, s.age.volt with
  | some p, none =>
    let mine (t : Nat) : List EyeSt := eyes.filterMap (fun e =>
      if e.1 = t then some ⟨e.2.1.toNat, e.2.2.1, e.2.2.2.1, e.2.2.2.2⟩ else none)
    let s := p.recs.foldl (fun s t => unfenced s t (planTile s p t (mine t))) s
    let s := { s with age := { s.age with plan := none } }
    s.age.maintDue.foldl (fun s e => maintAct s e.1) s
  | _, _ => s

/-- A tile reset during a re-plan: that tile's part is abandoned (R366). -/
def planForget (s : State) (t : Nat) : State :=
  match s.age.plan with
  | some p => { s with age := { s.age with plan := some { p with tiles := p.tiles.filter (· != t), recs := p.recs.filter (· != t) } } }
  | none => s

/-! ## Meanings -/

/-- CRYSTAL_STOP (R351). -/
def execCrystalStop (s : State) : Res := .next (crystalStop s)

/-- CRYSTAL_RESUME (R351). -/
def execCrystalResume (s : State) : Res := .next (crystalResume s)

/-- SLEW_END (R353). -/
def execSlewEnd (s : State) : Res := .next (slewDone s)

/-- CANARY_SAMPLE (R358). -/
def execCanarySample (readings : List (Nat × Nat × BitVec 24)) (s : State) : Res := .next (canarySample s readings)

/-- VOLTAGE_RAISE_STEP (R358). -/
def execVoltageRaiseStep (readings : List (Nat × Nat × BitVec 24)) (acked : Bool) (s : State) : Res :=
  .next (voltStep s readings acked)

/-- REPLAN_START (R360). -/
def execReplanStart (readings : List (Nat × Nat × BitVec 24)) (s : State) : Res := .next (replanStart s readings)

/-- EQ_TRIAL_END (R362). -/
def execEqTrialEnd (t n : Nat) (trial : EqTrial) (s : State) : Res := onUnit (localOk s t n) (unfenced s t (eqTrial s t n trial))

/-- REPLAN_END (R361). -/
def execReplanEnd (eyes : List (Nat × BitVec 8 × Nat × Nat × Nat)) (s : State) : Res := .next (replanEnd s eyes)

/-- MAINT_WINDOW_END (R364). -/
def execMaintWindowEnd (t : Nat) (s : State) : Res := onTile s t (unfenced s t (maintEnd s t))

end Sys2Proof.Machine
end

