-- ==== Sys2Proof/Machine/Gal.lean ====
section
/-! DEFINITION. The Gallery ring (18), but for what a request does at its target: frames (R372, R373), roles (R371), breaks (R375), the
remote mailboxes as far as the issuing package goes (R376, R378), alarm summaries (R381) and time (R382, R383). -/

namespace Sys2Proof.Machine

open Sys2Proof

/-! ## Frames -/

/-- A bit of GAL_STATUS. -/
def galBit (s : State) (b : Nat) : Bool := bit (rreg s 0 0xB000000) b

/-- Writes a bit of GAL_STATUS. -/
def setGalBit (s : State) (b : Nat) (v : Bool) : State := sf s 0 0xB000000 b 1 (b2n v)

/-- The package's identity in force. -/
def galId (s : State) : Nat := gf s 0 0xB000000 13 5

/-- Whether the package acts as manager. -/
def galManager (s : State) : Bool := galBit s 31

/-- Whether the ring runs: main power and RESET_N high (R374). -/
def ringRuns (s : State) : Bool := s.core.pwrgood && s.core.resetN

/-- A frame's bytes, SOF and EOF apart (R372). -/
def ringBytes (kind src dest flags seq status arg : Nat) (payload : List Byte) : List Byte :=
  let b : List Byte := [BitVec.ofNat 8 kind, BitVec.ofNat 8 src, BitVec.ofNat 8 dest, BitVec.ofNat 8 flags] ++ leBytes 2 seq ++
    [BitVec.ofNat 8 payload.length, BitVec.ofNat 8 status] ++ leBytes 8 arg ++ payload
  b ++ leBytes 4 (crc32c b).toNat

/-- Sends a frame on both rings, and keeps it among the last 64 sent (R373). -/
def ringSend (s : State) (kind dest flags seq status arg : Nat) (payload : List Byte) : State :=
  let a := ringBytes kind (galId s) dest flags seq status arg payload
  let b := ringBytes kind (galId s) dest (flags + 1) seq status arg payload
  let s := emit (emit s (.ring false a)) (.ring true b)
  { s with gal := { s.gal with sent := (a :: b :: s.gal.sent).take 128 } }

/-- The next SEQ, for a request or a broadcast. -/
def ringSeq (s : State) : Nat × State :=
  (s.gal.seq, { s with gal := { s.gal with seq := (s.gal.seq + 1) % 65536 } })

/-- Whether a frame's KIND is one of the table. -/
def kindOk (k : Nat) : Bool := k == 1 || k == 2 || (decide (0x10 ≤ k) && decide (k ≤ 0x15))

/-- Whether a received frame is whole: length, CRC and KIND (R372). -/
def ringOk (l : List Byte) : Bool :=
  decide (20 ≤ l.length) && l.length == 20 + leAt l 6 1 && decide (leAt l 6 1 ≤ 64) && kindOk (leAt l 0 1) &&
  leAt l (l.length - 4) 4 == (crc32c (l.take (l.length - 4))).toNat

/-! ## Roles, HELLO (R371, R375, R381) -/

/-- HELLO_SEND (R371, R381). -/
def helloSend (s : State) : State :=
  if ringRuns s = false then s
  else
    let (n, s) := ringSeq s
    let arg := b2n (galManager s) + 2 * b2n (galBit s 30) + 4 * b2n (galBit s 29)
    ringSend s 1 0x80 0 n 0 arg (wordBytes (alarmSummary s))

/-- GAL_STATUS.PACKAGES follows GAL_SEEN. -/
def countSeen (s : State) : State :=
  sf s 0 0xB000000 0 6 ((List.range 32).filter (fun p => bit (rreg s 0 0xB00000C) p)).length

/-- The conflict of two managers (R371), and the manager heard. -/
def hearRole (s : State) (p : Nat) (manager : Bool) : State :=
  if manager = false then s
  else if galManager s then
    let s := evt s 0 40 5
    if p < galId s then sf (sf (setGalBit (setGalBit s 31 false) 30 true) 0 0xB000000 8 5 p) 0 0xB000000 7 1 1 else s
  else sf (sf s 0 0xB000000 8 5 p) 0 0xB000000 7 1 1

/-- A HELLO is taken (R371, R375, R381). -/
def takeHello (s : State) (p arg : Nat) (summary : Word) : State :=
  let back := (Tbl.find? s.gal.lost p).isSome
  let s := setGalBit (sf s 0 0xB00000C p 1 1) 28 false
  let s := countSeen { s with gal := { s.gal with lost := Tbl.del s.gal.lost p
                                                  clash := if arg.testBit 2 then Tbl.ins s.gal.clash p () else Tbl.del s.gal.clash p } }
  let s := if back then evt s 0 40 3 else s
  let s := hearRole s p (arg.testBit 0)
  if galManager s ∧ rreg s 0 (0xB000080 + 4 * p) ≠ summary then evt (wreg s 0 (0xB000080 + 4 * p) summary) 0 40 6 else s

/-- PACKAGE_LOST: no HELLO from a package for 10 ms (R375). -/
def packageLost (s : State) (p : Nat) : State :=
  if p = galId s ∨ bit (rreg s 0 0xB00000C) p = false then s
  else
    let s := countSeen (sf s 0 0xB00000C p 1 0)
    evt { s with gal := { s.gal with lost := Tbl.ins s.gal.lost p () } } 0 40 2

/-- A ring receiver goes down (R375); a package alone on its board raises no fault (R371). -/
def rxDown (s : State) (ringB : Bool) : State :=
  let b := if ringB then 26 else 27
  let o := if ringB then 27 else 26
  if galBit s b = false then s
  else
    let s := setGalBit s b false
    if galBit s 28 then s
    else if galBit s o then evt (recordFault s 0 11 1 none (b2n ringB)) 0 40 (b2n ringB)
    else recordFault s 0 11 2 none 0

/-- A ring receiver is up (R375). -/
def rxUp (s : State) (ringB : Bool) : State :=
  if ringRuns s then setGalBit s (if ringB then 26 else 27) true else s

/-! ## Remote mailboxes at the issuer (R376, R378) -/

/-- Remote mailbox `m`. -/
abbrev rmtMb (m : Nat) : Nat := 0xB000100 + 0x80 * m

/-- GAL_RMT_DEST{m}. -/
abbrev rmtDest (m : Nat) : Nat := 0xB000300 + 4 * m

/-- Replaces a mailbox's request. -/
def setRmt (s : State) (m : Nat) (x : Option Rmt) : State :=
  { s with gal := { s.gal with run := Tbl.set none s.gal.run m x } }

/-- A request ends: OK with its data, or REFUSED with a reason. -/
def rmtEnd (s : State) (m : Nat) (reason : Nat) (data : List Word) : State :=
  let s := setRmt s m none
  if reason = 0 then mbEnd s 0 (rmtMb m) (.ok data)
  else mbEnd (sf s 0 (rmtDest m) 24 8 reason) 0 (rmtMb m) refusedMb

/-- Whether an operation's MB_INDEX is out of its range (R376); DIST_IMG carries 20 bits of it (R372). -/
def rmtBad (op off count : Nat) : Bool :=
  match op with
  | 3 => off % 4 != 0 || decide (2 ^ 32 < off + 4 * count)
  | 4 => off % 4 != 0 || decide (2 ^ 32 < off + 4 * count)
  | 5 => off % 4 != 0 || decide (2 ^ 20 < off + 64)
  | 7 => off % 64 != 0 || decide (0x400000 ≤ off)
  | _ => off % 4 != 0

/-- The ARG of a request's frame (R372). -/
def rmtArg (x : Rmt) : Nat :=
  match x.op with
  | 3 => x.off + (x.count - 1) * 2 ^ 32
  | 4 => x.off + (x.count - 1) * 2 ^ 32
  | 5 => x.off
  | 7 => x.off + x.copy * 2 ^ 24
  | _ => x.copy

/-- The payload of a request's frame: the words it writes. -/
def rmtPayload (x : Rmt) : List Byte :=
  if x.op = 4 then (x.data.take x.count).flatMap wordBytes
  else if x.op = 5 ∨ x.op = 7 then x.data.flatMap wordBytes else []

/-- Why a request is not sent, as a reason code. -/
def rmtWhy (s : State) (dest : Nat) : Option Nat :=
  if galBit s 29 then some 6
  else if galManager s = false then some 1
  else if bit (rreg s 0 0xB00000C) dest = false then some 3
  else if (Tbl.find? s.gal.clash dest).isSome then some 6
  else none

/-- A command of a remote mailbox (R376): a request to the package's own identity is served here, any other is sent on both rings. -/
def rmtStart (s : State) (m op : Nat) : State :=
  mbCmd s 0 (rmtMb m) op (fun s =>
    let off := mbIndex s 0 (rmtMb m)
    let d := rreg s 0 (rmtDest m)
    let count := fld d 0 5
    if rmtBad op off count then mbEnd s 0 (rmtMb m) badIndex
    else
      let dest := fld d 8 5
      let x : Rmt := { op := op, dest := dest, seq := 0, off := off, count := count, copy := fld d 16 1, isLocal := dest == galId s
                       data := (List.range 16).map (mbData s 0 (rmtMb m)) }
      if dest = galId s then setRmt s m (some x)
      else match rmtWhy s dest with
        | some why => rmtEnd s m why []
        | none =>
          let (n, s) := ringSeq s
          ringSend (setRmt s m (some { x with seq := n })) (0x10 + (op - 3)) dest 0 n 0 (rmtArg x) (rmtPayload x))

/-- REMOTE_TIMEOUT: no response within the operation's time (R378). -/
def rmtTimeout (s : State) (m : Nat) : State :=
  match Tbl.get none s.gal.run m with
  | some x => if x.isLocal then s else rmtEnd s m 2 []
  | none => s

/-- A payload as words. -/
def payloadWords (l : List Byte) (n : Nat) : List Word := (List.range n).map (fun k => wordOf (bytesAt l (4 * k) 4))

/-- A response is taken: it ends the request it echoes, or is late (R376, R378). -/
def takeResponse (s : State) (src kind seq status : Nat) (payload : List Byte) : State :=
  let mine (m : Nat) : Bool := match Tbl.get none s.gal.run m with
    | some x => !x.isLocal && x.dest == src && x.seq == seq && kind == 0x10 + (x.op - 3)
    | none => false
  match (List.range 4).find? mine with
  | some m => rmtEnd s m status (if kind = 0x10 then payloadWords payload 16 else [])
  | none => cf s 0 0xB00001C 16 16

/-! ## Time (R382, R383) -/

/-- TIME_SEND: the manager's TIME for its next whole second (R382). -/
def timeSend (s : State) : State :=
  if ringRuns s = false ∨ galManager s = false ∨ galBit s 29 then s
  else
    let (n, s) := ringSeq s
    let s := ringSend s 2 0x80 (4 * b2n s.cal.valid) n 0 (s.cal.sec + 1) []
    setGalBit { s with gal := { s.gal with syncDue := true } } 25 true

/-- GAL_SYNC_TRIM in units of 2^-32 s. -/
def syncTrim (s : State) : Nat := gf s 0 0xB000010 0 8 * 2 ^ 32 / 1000000000

/-- GAL_SYNC_ERR: e in ns, saturating (R385). -/
def syncErr (e : Int) : Nat :=
  let ns := e * 1000000000 / 4294967296
  unsigned 16 (if ns < -32767 then -32767 else if 32767 < ns then 32767 else ns)

/-- GAL_SYNC_EDGE at a worker (R382): a step while it does not follow or is more than 1 ms off; else a correction without a step. -/
def syncEdge (s : State) : State :=
  if ringRuns s = false ∨ galManager s then s
  else
    let s := setGalBit s 25 true
    match s.gal.time with
    | none => s
    | some sec =>
      let s := { s with gal := { s.gal with time := none } }
      if galBit s 29 then s
      else
        let goal : Nat := sec * 2 ^ 32 + syncTrim s
        let e : Int := (fineTime s : Int) - (goal : Int)
        let s := sf (tickFresh s) 0 0xB000014 0 16 (syncErr e)
        if s.cal.following = false ∨ 4294967 < e.natAbs then
          let s := setTime s goal
          { s with cal := { s.cal with following := true } }
        else s

/-- SYNC_LOST: no edge within 1.5 s of the expected one (R383). -/
def syncLost (s : State) : State :=
  if galManager s ∨ galBit s 25 = false then s else evt (setGalBit s 25 false) 0 40 4

/-- FOLLOWING_TIMEOUT: 3 s without an edge (R383). -/
def followEnd (s : State) : State := { s with cal := { s.cal with following := false } }

/-! ## Meanings -/

/-- HELLO_SEND (R371). -/
def execHelloSend (s : State) : Res := .next (helloSend s)

/-- RING_RX_DOWN (R375). -/
def execRingRxDown (ringB : Bool) (s : State) : Res := .next (rxDown s ringB)

/-- RING_RX_UP (R375). -/
def execRingRxUp (ringB : Bool) (s : State) : Res := .next (rxUp s ringB)

/-- PACKAGE_LOST (R375). -/
def execPackageLost (p : Nat) (s : State) : Res := onUnit (decide (p < 32)) (packageLost s p)

/-- REMOTE_TIMEOUT (R378). -/
def execRemoteTimeout (m : Nat) (s : State) : Res := onUnit (decide (m < 4)) (rmtTimeout s m)

/-- TIME_SEND (R382). -/
def execTimeSend (s : State) : Res := .next (timeSend s)

/-- GAL_SYNC_EDGE (R382). -/
def execGalSyncEdge (s : State) : Res := .next (syncEdge s)

/-- SYNC_LOST (R383). -/
def execSyncLost (s : State) : Res := .next (syncLost s)

/-- FOLLOWING_TIMEOUT (R383). -/
def execFollowingTimeout (s : State) : Res := .next (followEnd s)

end Sys2Proof.Machine
end

