-- ==== Sys2Proof/Machine/LinkLayer.lean ====
section
/-! DEFINITION. The link layer at work (07): sending and receiving flits, acknowledgement and selective resend, credits, protocol
errors, and the packets a flit delivers (R145, R167, R168). -/

namespace Sys2Proof.Machine

open Sys2Proof

/-! ## Sending (R142, R151) -/

/-- Whether a frame queued for a slot waits for credit of class `c`. -/
def waitsCredit (s : State) (t n c : Nat) : Bool :=
  (List.range 12).any (fun i => match headOf s t (4 + n) i c with
    | some (_, _, x) => !hasCredit s t n c x.f.pkt.units
    | none => false)

/-- The data flit that carries an LCR_ACK has left: its change begins (R133). -/
def pauseBegin (s : State) (t n : Nat) : State :=
  let x := linkSt s t n
  match x.change with
  | some c => if x.pauseDue && x.msgs.isEmpty then startChange s t n c.req c.rate c.width c.ours else s
  | none => s

/-- FLIT_TRANSMIT: one flit time of a sender that is ACTIVE, or that owes its PAUSE flit (R133, R142, R151). A data flit that waits
for a full window and a packet that waits for credit are counted in each flit time (R161). -/
def flitSend (s : State) (t n : Nat) : State :=
  let x := linkSt s t n
  if x.paused ∨ ¬ (linkState s t n = 6 ∨ (linkState s t n = 7 ∧ x.pausing)) then s else
  let busy := canPack x.msgs x.txq && !x.pausing
  let room := decide (x.replay.length < windowOf s t n)
  let s := if busy && !room then cf s t (lnk n 0x80) 0 16 else s
  let s := if (List.range 4).any (fun c => waitsCredit s t n c) then cf s t (lnk n 0x84) 0 16 else s
  match nextResend x with
  | some (f, why) =>
    sendResend (setLink s t n { x with resend := x.resend.dropWhile (fun r => r.1 != f.seq) }) t n f why
  | none =>
    if busy && room then pauseBegin (sendData s t n) t n
    else putFlit s t n { seqHdr (nextSeq s t n) with idle := true } []

/-! ## Receiving: protocol errors and the reverse path -/

/-- A protocol error (R159): DOWN is sent, the link declared down, the fault raised. -/
def protoError (s : State) (t n : Nat) : State :=
  let s := declareDown (evt (sendDown s t n) t (llRow n) 4) t n false
  recordFault s t 2 2 none n

/-- A flit is acknowledged: what its tails carried has landed (R226, R227, R269); on a tile link the frames go on. -/
def ackFlit (n : Nat) (s : State) (f : Flit) : State :=
  if 8 ≤ n then s else
  f.tails.foldl (fun s e =>
    let s := settle s e.1
    match e.2 with
    | .dmaWr t w => answer s (.dmaWr t w) 0 [] false
    | _ => s) s

/-- An ACK (R151): the state, and whether it acknowledges a flit never sent. -/
def takeAckField (s : State) (t n ack : Nat) : State × Bool :=
  let x := linkSt s t n
  let last := gf s t (lnk n 0x44) 0 12
  let k := seqDist ack ((last + 1) % 4096)
  if k < x.replay.length then
    let done := x.replay.take (k + 1)
    let s := setLink s t n { x with replay := x.replay.drop (k + 1),
                                    resend := x.resend.filter (fun r => !done.any (fun f => f.seq == r.1)) }
    (done.foldl (ackFlit n) (sf s t (lnk n 0x44) 0 12 ack), false)
  else (s, ack != last)

/-- A NAK (R151). -/
def takeNak (s : State) (t n q : Nat) : State :=
  let x := linkSt s t n
  if x.replay.any (fun f => f.seq == q) && !x.resend.any (fun r => r.1 == q) then
    setLink s t n { x with resend := x.resend ++ [(q, 1)] }
  else cf s t (lnk n 0x60) 0 16

/-- A credit total (R153, R154): the state, and whether the shared count would pass 16,383. -/
def takeCredits (s : State) (t n c total : Nat) : State × Bool :=
  let x := linkSt s t n
  let d := (total + 4096 - x.crHeld.get c % 4096) % 4096
  let r := crRsv s t n c
  let toR := Nat.min d (reserveUnits - r)
  let shared := crShared s t n + (d - toR)
  if 16383 < shared then (s, true)
  else
    let s := setLink s t n { x with crHeld := x.crHeld.set c total }
    let s := sf (sf s t (lnk n 0x5C) (8 * c) 8 (r + toR)) t (lnk n 0x58) 0 14 shared
    (sf s t (lnk n 0x7C) 0 16 (Nat.min 16383 (gf s t (lnk n 0x7C) 0 16 + d)), false)

/-! ## Receiving: packets -/

/-- Counts a malformed packet of a local slot (R167). -/
def countMalformed (s : State) (t n : Nat) : State :=
  if n < 8 then evt (cf s t (ltp n 0x14) 0 16) t (ltpRow n) 0 else s

/-- A LINK packet's message (R132, R137). -/
def takeLinkMsg (s : State) (t n : Nat) (m : List Byte) : State :=
  let req := leAt m 1 1
  let target := leAt m 4 1
  match leAt m 0 1 with
  | 1 => takeLcr s t n req (leAt m 2 2) (target % 4) (target / 4 % 4)
  | 2 => takeAck s t n req
  | 3 => takeRefuse s t n req
  | 4 => if linkAlive s t n then declareDown s t n false else s
  | _ => s

/-- A frame made of a packet, for a sample or an answer. -/
def bareFrame (t n : Nat) (p : Pkt) : Frame :=
  { serial := 0, pkt := p, srcTile := t, srcPort := if n < 8 then 1 + n / 2 else n - 3, dstTile := t, dstPort := 10 }

/-- The answer MALFORMED to a request of a partner that breaks a rule (R167, R173, R176). -/
def answerMalformed (s : State) (t n : Nat) (p : Pkt) : State :=
  rspOwn s t n p (linkEpoch s t n) 8 [] none

/-- Takes what a tile link's flit holds of frames beside its bytes: that of the far end's slot (R185). -/
def takeWire (s : State) (t n seq : Nat) : List Seg × State :=
  let k := slotKey (neighbour s.part t n) (farSlot n) * 4096 + seq
  (Tbl.get [] s.lode.wire k, { s with lode := { s.lode with wire := Tbl.del s.lode.wire k } })

/-- The usable rate of a slot at its trained rate and width, in units of 0.1 GB/s, no more than its switch port's (R24, R131): a tile
link 320 GB/s, and 180 GB/s in 48-lane mode. -/
def slotRate (s : State) (t n : Nat) : Nat :=
  if 8 ≤ n then (if gf s t (lnk n 0) 12 4 = 5 then 3200 else 1800)
  else 992 / 2 ^ (3 - gf s t (lnk n 0) 16 4) / 2 ^ (3 - gf s t (lnk n 0) 12 4)

/-- Whether a frame that begins to arrive by a tile link is cut through (R194): its output's bit of CUT_THROUGH, the rates, unicast. A
local port's input never qualifies, since what comes in there goes to no output as slow. -/
def cutsThrough (s : State) (t n : Nat) (f : Frame) : Bool :=
  let o := outOf s t f
  f.mc.isNone && !(f.dstTile == t && f.toWtt) &&
  (if o < 4 then false
   else if o < 12 then bit (rreg s t 0x3000010) 0 && decide (slotRate s t (o - 4) ≤ slotRate s t n)
   else if o < 15 then bit (rreg s t 0x3000010) 1 && decide (slotRate s t (o - 4) ≤ slotRate s t n)
   else decide (o < 17) && bit (rreg s t 0x3000010) 2 && decide (3200 ≤ slotRate s t n))

/-- A frame that a DMA engine has been taking in has come whole: it is delivered (R194). -/
def intoDone (s : State) (t : Nat) : State :=
  let l := Tbl.get [] s.swc.into t
  let whole (f : Frame) : Bool := f.lack == 0 && !f.bad
  let s := { s with swc := { s.swc with into := Tbl.set [] s.swc.into t (l.filter (fun f => !whole f)) } }
  (l.filter whole).foldl (fun s f => deliver s t (outOf s t f) f) s

/-- What a flit holds of a packet that goes on (R194): the head of one that is cut through is handed on; of one whose head has gone,
its further bytes have arrived. -/
def takeCut (s : State) (t n : Nat) (g : Seg) : State :=
  if g.last then s
  else if g.first then
    if cutsThrough s t n g.f then
      let x := linkSt s t n
      sendIn (setLink s t n { x with cut := some g.f.serial }) t (n - 3) 0
        { g.f with credit := some (slotKey t n, g.f.pkt.cls, g.f.pkt.units), lack := g.f.pkt.padded - g.bytes }
    else s
  else if (linkSt s t n).cut = some g.f.serial then mapFrame s t g.f.serial (fun f => { f with lack := f.lack - g.bytes })
  else s

/-- The tail of a packet whose head has been handed on (R194): the frame is whole, or its rest is bad (R195). -/
def endCut (s : State) (t n serial : Nat) (bad : Bool) : State :=
  let x := linkSt s t n
  let s := setLink s t n { x with cut := none }
  if bad then mapFrame s t serial (fun f => { f with bad := true })
  else intoDone (mapFrame s t serial (fun f => { f with lack := 0 })) t

/-- A packet delivered by a slot (R146, R167, R168): `wire` is the frame record of a tile link's packet. -/
def takePacket (s : State) (t n : Nat) (bytes : List Byte) (aborted : Bool) (wire : Option Frame) : State :=
  match PType.ofCode (leAt bytes 0 1) with
  | none => s
  | some ty =>
    let (p, ok) := readPkt ty bytes
    let units := p.units
    let cut := wire.any (fun f => (linkSt s t n).cut == some f.serial)
    let lost (s : State) : State :=
      match wire with
      | some f => if cut then endCut s t n f.serial true else settle (creditReturn s t n f.pkt.cls f.pkt.units) f.serial
      | none => creditReturn s t n p.cls units
    if aborted then
      let s := evt (cf s t (lnk n 0x74) 16 16) t (llRow n) 1
      lost (offer s t 3 (if n < 8 then 1 + n / 2 else n - 3) (wire.getD (bareFrame t n p)))
    else if !ok then
      let s := if n < 8 then evt (cf s t (ltp n 0x14) 16 16) t (ltpRow n) 1 else s
      recordFault (lost s) t 2 3 none n
    else if n < 8 then
      if malformedIn p then
        let s := creditReturn (countMalformed s t n) t n p.ty.class units
        if p.isReq then answerMalformed s t n p else s
      else
        let x := linkSt s t n
        setLink s t n { x with rxq := x.rxq ++ [⟨p, units⟩] }
    else match wire with
      | some f =>
        if cut then endCut s t n f.serial false
        else sendIn s t (n - 3) 0 { f with credit := some (slotKey t n, f.pkt.cls, units) }
      | none => lost s

/-- One message or packet a flit ends, while the link is of the epoch it came in: the state, and the packets so far. -/
def deliverOne (t n epoch total : Nat) (abort : Bool) (frames : List Frame) (acc : State × Nat) (b : List Byte) : State × Nat :=
  if linkEpoch acc.1 t n ≠ epoch then acc
  else if leAt b 0 1 = 1 then (takeLinkMsg acc.1 t n (b.drop 8), acc.2)
  else (takePacket acc.1 t n b (abort && acc.2 + 1 == total) frames[acc.2]?, acc.2 + 1)

/-- The messages and packets a flit ends, in order; its ABORT mark is that of its last packet (R145). -/
def deliverAll (s : State) (t n : Nat) (abort : Bool) (ended : List (List Byte)) (frames : List Frame) : State :=
  let total := (ended.filter (fun b => leAt b 0 1 != 1)).length
  (ended.foldl (deliverOne t n (linkEpoch s t n) total abort frames) (s, 0)).1

/-- Delivers one flit's payload (R144, R145): the state, and whether it is a protocol error. -/
def deliverFlit (s : State) (t n : Nat) (f : Flit) : State × Bool :=
  let x := linkSt s t n
  let u := unpackGo 15 0 f.payload { cur := x.part }
  let s := setLink s t n { x with part := u.cur, began := true, named := x.named.filter (fun q => q != f.seq) }
  let s := sf s t (lnk n 0x48) 16 12 (f.seq + 1)
  if u.undefined then (if n < 8 then evt s t (ltpRow n) 0 else s, true)
  else if firstWrong f.first u.starts then (s, true)
  else
    let r := if 8 ≤ n then takeWire s t n f.seq else ([], s)
    let epoch := linkEpoch r.2 t n
    let s := deliverAll r.2 t n f.abort u.ended ((r.1.filter Seg.last).map Seg.f)
    match r.1.getLast? with
    | some g => (if linkEpoch s t n = epoch then takeCut s t n g else s, false)
    | none => (s, false)

/-- Delivers the flits that the reorder buffer holds in unbroken order (R149). -/
def drainReorder (s : State) (t n epoch : Nat) : Nat → State × Bool
  | 0 => (s, false)
  | fuel + 1 =>
    let x := linkSt s t n
    match x.reorder.find? (fun f => f.seq == rxNext s t n) with
    | none => (s, false)
    | some f =>
      let s := setLink s t n { x with reorder := x.reorder.filter (fun g => g.seq != f.seq) }
      match deliverFlit s t n f with
      | (s, true) => (s, true)
      | (s, false) => if linkEpoch s t n ≠ epoch then (s, false) else drainReorder s t n epoch fuel

/-- LNK_RX_SEQ's count of flits held. -/
def reorderCount (s : State) (t n : Nat) : State := sf s t (lnk n 0x48) 0 11 (linkSt s t n).reorder.length

/-- A data flit (R149): the state, and whether it is a protocol error (R159). -/
def takeData (s : State) (t n : Nat) (h : FlitHdr) (payload : List Byte) : State × Bool :=
  let d := seqDist h.seq (rxNext s t n)
  let w := windowOf s t n
  let f : Flit := { seq := h.seq, first := h.first, abort := h.abort, payload := payload }
  let epoch := linkEpoch s t n
  if w ≤ d then
    if (linkSt s t n).began then (cf s t (lnk n 0x68) 0 16, false) else (s, true)
  else
    let s := markSeen s t n h.seq
    if d = 0 then
      match deliverFlit s t n f with
      | (s, true) => (s, true)
      | (s, false) =>
        if linkEpoch s t n ≠ epoch then (s, false)
        else
          match drainReorder s t n epoch w with
          | (s, true) => (s, true)
          | (s, false) => (if linkEpoch s t n = epoch then reorderCount s t n else s, false)
    else
      let x := linkSt s t n
      if x.reorder.any (fun g => g.seq == h.seq) then (cf s t (lnk n 0x68) 0 16, false)
      else (reorderCount (setLink s t n { x with reorder := x.reorder ++ [f] }) t n, false)

/-- The codewords that have ended on board reach (R136, R139): corrected and uncorrectable ones are counted; 4 uncorrectable of any 8
consecutive lose the lock. -/
def takeCodewords (s : State) (t n : Nat) (l : List Codeword) : State :=
  if 8 ≤ n ∨ linkState s t n < 6 then s
  else l.foldl (fun s c =>
    let s := match c with
      | .clean => s
      | .corrected => cwCount s 0x14
      | .bad => cwCount s 0x18
    let x := linkSt s t n
    let last := (decide (c = .bad) :: x.codewords).take 8
    let s := setLink s t n { x with codewords := last }
    if 4 ≤ (last.filter id).length then loseLock s t n else s) s
where
  /-- One more in a counter of codewords. -/
  cwCount (s : State) (o : Nat) : State := wreg s t (lnk n o) (rreg s t (lnk n o) + 1)

/-- FLIT_RECEIVE (R141, R143, R149): the codewords that have ended with the flit, then the flit. -/
def flitTake (s : State) (t n : Nat) (codewords : List Codeword) (bytes : List Byte) : State :=
  let s := takeCodewords s t n codewords
  let x := linkSt s t n
  if flitOk bytes = false ∧ linkState s t n ≠ 0 then
    let s := cf s t (lnk n 0x68) 16 16
    if 8 ≤ n ∧ (linkState s t n = 6 ∨ linkState s t n = 7) then
      if 15 ≤ x.badRun then loseLock s t n else setLink s t n { x with badRun := x.badRun + 1 }
    else s
  else if ¬ (linkState s t n = 6 ∨ linkState s t n = 7) then s
  else
    let h := flitHdr bytes
    let s := setLink s t n { x with badRun := 0 }
    if h.epoch ≠ linkEpoch s t n % 16 then stf s t (lnk n 0x70) 0 8
    else
      match takeAckField s t n h.ack with
      | (s, true) => protoError s t n
      | (s, false) =>
        let s := match h.nak with
          | some q => takeNak s t n q
          | none => s
        match takeCredits s t n h.crClass h.crTotal with
        | (s, true) => protoError s t n
        | (s, false) =>
          let x := linkSt s t n
          let s := if h.pause then setLink s t n { x with nakHeld := true } else s
          if h.idle then markSeen s t n ((h.seq + 4095) % 4096)
          else match takeData s t n h (bytesAt bytes 8 240) with
            | (s, true) => protoError s t n
            | (s, false) => s

/-! ## Timers -/

/-- NAK_TIMER_EXPIRY: a missing flit may be named again (R150). -/
def nakTimer (s : State) (t n q : Nat) : State :=
  let x := linkSt s t n
  if (missing s t n).contains q then setLink s t n { x with named := x.named.filter (fun r => r != q) } else s

/-- REPLAY_TIMER_EXPIRY: the oldest unacknowledged flit is queued for resending (R151, R160). -/
def replayTimer (s : State) (t n : Nat) : State :=
  let x := linkSt s t n
  match x.replay with
  | f :: _ =>
    if x.resend.any (fun r => r.1 == f.seq) then s else setLink s t n { x with resend := x.resend ++ [(f.seq, 2)] }
  | [] => s

/-! ## Meanings -/

/-- FLIT_TRANSMIT (R142, R151). -/
def execFlitTransmit (t n : Nat) (s : State) : Res := onUnit (slotOk s t n) (flitSend s t n)

/-- FLIT_RECEIVE (R149). -/
def execFlitReceive (t n : Nat) (codewords : List Codeword) (bytes : List Byte) (s : State) : Res :=
  onUnit (slotOk s t n) (flitTake s t n codewords bytes)

/-- NAK_TIMER_EXPIRY (R150). -/
def execNakTimerExpiry (t n : Nat) (seq : BitVec 12) (s : State) : Res :=
  onUnit (slotOk s t n) (nakTimer s t n seq.toNat)

/-- NAK_RESUME (R150). -/
def execNakResume (t n : Nat) (s : State) : Res :=
  onUnit (slotOk s t n) (if linkState s t n = 6 then setLink s t n { linkSt s t n with nakHeld := false } else s)

/-- REPLAY_TIMER_EXPIRY (R151). -/
def execReplayTimerExpiry (t n : Nat) (s : State) : Res :=
  onUnit (slotOk s t n) (if linkState s t n = 6 then replayTimer s t n else s)

/-- CREDIT_STALL_TIMER (R154). -/
def execCreditStallTimer (t n : Nat) (cls : BitVec 2) (s : State) : Res :=
  onUnit (slotOk s t n) (if waitsCredit s t n cls.toNat then evt s t (llRow n) 3 else s)

end Sys2Proof.Machine
end

