-- ==== Sys2Proof/Machine/Ltp.lean ====
section
/-! DEFINITION. Packets from partners (08; taken whatever requests of the device are outstanding, R175) and the bridge behind them (11): writes, held reads, events, responses, timeouts,
the local-side window of the event controller (R326), and locks (R235 to R238). -/

namespace Sys2Proof.Machine

open Sys2Proof

/-! ## The receive pool -/

/-- Takes the packet at the head of a slot's received packets if it passes a test. -/
def takeRx (s : State) (t n : Nat) (p : Pkt → Bool) : Option (RxPkt × State) :=
  let x := linkSt s t n
  match x.rxq with
  | [] => none
  | r :: rest => if p r.pkt then some (r, setLink s t n { x with rxq := rest }) else none

/-- Posted frames that came in by a slot and are not yet on their host link (R228). -/
def slotPosted (s : State) (t n : Nat) (h : Option Nat) : List Nat :=
  (s.brg.posted.filter (fun r => r.fromSlot == some (slotKey t n) && (h.isNone || r.toHost == h))).map PostedRec.serial

/-! ## The local-side window (R326) -/

/-- Whether a GLOBAL access names the local-side window: tile present, LEN 4, aligned, no other address bit. -/
def inLocalWindow (s : State) (p : Pkt) : Bool :=
  decide (p.addr < 0x80000) && decide (p.addr / 65536 < s.part.tiles) && p.addr % 4 == 0 && p.len == 4

/-- Whether target `x` of tile `u` is a LOCAL target of the slot. -/
def ownTarget (s : State) (u x t n : Nat) : Bool :=
  tgtKind s u x == 2 && gf s u (tgtReg x 0) 12 5 == 4 * t + n / 2 && gf s u (tgtReg x 0) 11 1 == n % 2

/-- A read of the local-side window of tile `u` at an offset, from a slot. -/
def localRead (s : State) (u off t n : Nat) : Word × State :=
  if off < 0x600 then (pendWord s u (640 + off / 4), pendRead s u (640 + off / 4))
  else if 0x800 ≤ off ∧ off < 0xE00 then (rreg s u (0x7001000 + 4 * (640 + (off - 0x800) / 4)), s)
  else if 0x1000 ≤ off ∧ off < 0x1600 then (rreg s u (0x7002000 + 4 * (640 + (off - 0x1000) / 4)), s)
  else if 0x2000 ≤ off ∧ off < 0x6000 ∧ off % 16 = 4 then
    let x := (off - 0x2000) / 16
    (if ownTarget s u x t n then rreg s u (tgtReg x 4) else 0, s)
  else (0, s)

/-- A write to a reserved address of a tile (R72, R77); OFFSET is what the access brings (log entry 67). -/
def reservedWrite (s : State) (t off : Nat) : State :=
  wreg (cf s t 0x204 16 16) t 0x208 (word (3 * 2 ^ 28 + off))

/-- A write to the local-side window of tile `u`. -/
def localWrite (s : State) (u off t n : Nat) (v : Word) : State :=
  if off < 0x600 then pendWrite s u (640 + off / 4) 0xF#4 v
  else if 0x800 ≤ off ∧ off < 0xE00 then maskWrite s u (640 + (off - 0x800) / 4) 0xF#4 v
  else if 0x1000 ≤ off ∧ off < 0x1600 then lostWrite s u (640 + (off - 0x1000) / 4) 0xF#4 v
  else if 0x2000 ≤ off ∧ off < 0x6000 ∧ (off % 16 = 4 ∨ off % 16 = 8) then
    let x := (off - 0x2000) / 16
    if ownTarget s u x t n = false then cf s t (ltp n 0x14) 0 16
    else if off % 16 = 8 then (if tgtLocked s u x then s else targetDone s u x (bit v 8) (fld v 0 8))
    else s
  else reservedWrite s u off

/-! ## Writes (R169, R214) -/

/-- What R169 finds of a WR or RD of an instance: an LTP status, or the host address and link. -/
inductive Fit where
  | refused (status : Nat) (win : Option Nat)
  | passes (link fn addr : Nat)
  deriving DecidableEq, Repr

/-- The checks of R169 in their order, at the instance's home tile. -/
def checkUp (s : State) (t n : Nat) (p : Pkt) (wr descBad : Bool) : Fit :=
  if 512 * s.part.tiles ≤ p.inst ∨ live s p.inst = false ∨ (instOf s p.inst).halted ∨ (instOf s p.inst).resetting then .refused 5 none
  else if p.gen ≠ (instOf s p.inst).gen then .refused 7 none
  else match (instOf s p.inst).fn, upstream s p.inst (4 * t + n / 2) (n % 2) p.addr wr descBad with
    | some (h, f), .ok a => .passes h f a
    | some _, .error w => .refused 6 w
    | none, _ => .refused 5 none

/-- A packet of a partner to the local-side window of a tile, on its way to that tile's management port (R326). -/
def localFrame (s : State) (t n serial : Nat) (p : Pkt) (iss : Issuer) (credit : Option (Nat × Nat × Nat)) : Frame :=
  { serial := serial, pkt := { p with tag := 0 }, srcTile := t, srcPort := 1 + n / 2, srcSub := n % 2, dstTile := p.addr / 65536,
    dstPort := 10, links := [(slotKey t n, linkEpoch s t n)], issuer := iss, cargo := .localWin t n, credit := credit }

/-- What the lookup of R214 finds in the ECC of the descriptors it reads; which of the instance's is bad is open (log entry 7). -/
def upEcc (s : State) (p : Pkt) (e : WttRead) : State :=
  let y := instOf s p.inst
  let s' := if e.descBad then tickFresh s else s
  wttEcc s' p.inst (y.wBase + (Config.freeWord s.fresh).toNat % y.wCount) { e with entryBad := false }

/-- WR_RECEIVE: a WR from the partner is sent toward its host, or discarded and counted (R169, R214). -/
def takeWr (s : State) (t n : Nat) (e : WttRead) : State :=
  match takeRx s t n (fun p => p.ty == .wr) with
  | none => s
  | some (r, s) =>
    let p := r.pkt
    let gone (s : State) : State := creditReturn s t n 0 r.units
    if p.glob then
      if inLocalWindow s p then
        let (k, s) := newSerial s
        enter s (localFrame s t n k p .nobody (some (slotKey t n, 0, r.units)))
      else gone (cf s t (ltp n 0x14) 0 16)
    else match checkUp s t n p true e.descBad with
      | .refused 5 _ => gone (cf s t (ltp n 0x10) 0 16)
      | .refused 7 _ => gone (cf s t (ltp n 0x10) 16 16)
      | .refused _ w => gone (upEcc (miss s p.inst missUpNoWindow w) p e)
      | .passes h _ a =>
        let (k, s) := newSerial (upEcc s p e)
        let s := notePosted s { serial := k, inst := p.inst, fromSlot := some (slotKey t n), toHost := some h,
                                toSlot := none, mc := false, fromHost := none, home := homeTile p.inst }
        let s := logWrite s p.inst a false k
        enter s
          { serial := k, pkt := { p with addr := a, tag := 0 }, srcTile := t, srcPort := 1 + n / 2, srcSub := n % 2,
            dstTile := linkTile h, dstPort := 0, dstSub := h % 4, links := [(slotKey t n, linkEpoch s t n)],
            credit := some (slotKey t n, 0, r.units) }

/-! ## Held reads (R173, R174, R233) -/

/-- Whether a lock keeps an RD of the partner from taking a slot (R235, R237): none while a locked read waits, only those of
the locking instance while the port is locked. -/
def intakeShut (s : State) (t n : Nat) (p : Pkt) : Bool :=
  !(lockSt s t n).wait.isEmpty ||
  (bit (rreg s t (ltp n 0xC)) 31 && (p.glob || gf s t (ltp n 0xC) 0 12 != p.inst))

/-- Whether a tag of the partner is already outstanding on a slot (R173). -/
def tagOut (s : State) (t n tag : Nat) : Bool :=
  (linkSt s t n).rdWait.any (fun r => r.pkt.tag == tag) ||
  (List.range 64).any (fun k => (heldRd s t n k).any (fun h => h.pkt.tag == tag))

/-- RD_RECEIVE: an RD from the partner joins those that take held-read slots in arrival order (R174); a tag already
outstanding is answered with MALFORMED (R173). -/
def takeRd (s : State) (t n : Nat) : State :=
  match takeRx s t n (fun p => p.ty == .rd) with
  | none => s
  | some (r, s) =>
    if tagOut s t n r.pkt.tag then answerMalformed (creditReturn (countMalformed s t n) t n 1 r.units) t n r.pkt
    else
      let x := linkSt s t n
      let waits := decide (heldSlots s t n ≤ heldUse s t n + x.rdWait.length) || intakeShut s t n r.pkt
      let s := setLink s t n { x with rdWait := x.rdWait ++ [r] }
      if waits then evt s t (ltpRow n) 3 else s

/-- A held read that the device itself answers at once (R169, R174). -/
def answerHeld (s : State) (t n k : Nat) (p : Pkt) (status : Nat) : State := rspOwn s t n p (linkEpoch s t n) status [] (some k)

/-- Sends the host reads of a held read (R233). -/
def sendHeld (s : State) (t n k h f a : Nat) (p : Pkt) : State :=
  let e := linkEpoch s t n
  let pieces := splitRead (mrrsOf s h f) 33 0 (lenBytes p.len)
  let s := setHeld s t n k (some { pkt := p, parts := pieces.map (fun x => ⟨x.1, x.2, none, [], false⟩), epoch := e,
                                   link := h })
  pieces.zipIdx.foldl (fun s x =>
    let (id, s) := newSerial s
    let q : Pkt := { p with tag := 0, addr := a + x.1.1, len := lenField x.1.2 }
    let fr : Frame := { serial := id, pkt := q, srcTile := t, srcPort := 1 + n / 2, srcSub := n % 2, dstTile := linkTile h,
                        dstPort := 0, dstSub := h % 4, issuer := .held t n k x.2, links := [(slotKey t n, e)] }
    enter s fr) s

/-- HELD_READ_SLOT_TAKE: the oldest RD that may take a slot leaves the receive pool (R174), is checked (R169, R214) and is
sent toward its host, or is answered. -/
def takeSlot (s : State) (t n : Nat) (e : WttRead) : State :=
  let x := linkSt s t n
  match x.rdWait.find? (fun r => !intakeShut s t n r.pkt),
        (List.range (heldSlots s t n)).find? (fun k => (heldRd s t n k).isNone) with
  | some r, some k =>
    let p := r.pkt
    let s := setLink s t n { x with rdWait := x.rdWait.filter (fun q => q.pkt.tag != p.tag) }
    let s := creditReturn s t n 1 r.units
    let parts : List HeldPart := if p.glob then [⟨0, lenBytes p.len, none, [], false⟩] else []
    let s := heldCount (setHeld s t n k (some ⟨p, parts, linkEpoch s t n, 0, none⟩)) t n
    if p.glob then
      if inLocalWindow s p then
        let (id, s) := newSerial s
        enter s (localFrame s t n id p (.held t n k 0) none)
      else answerHeld s t n k p 1
    else match checkUp s t n p false e.descBad with
      | .refused 6 w => answerHeld (upEcc (miss s p.inst missUpNoWindow w) p e) t n k p 6
      | .refused st _ => answerHeld s t n k p st
      | .passes h f a => sendHeld (upEcc s p e) t n k h f a p
  | _, _ => s

/-- LTP_HELD_READ: a read of LTP_HELD shows HIGH_WATER and begins it afresh (R183). -/
def readHeld (s : State) (t n : Nat) : State :=
  let v := rreg s t (ltp n 4)
  emit (sf s t (ltp n 4) 16 7 (fld v 0 7)) (.read t (ltp n 4) v)

/-! ## Events (R177, R228) -/

/-- An EVENT of the partner with action `opx`: it acts once every earlier WR of the link is on its host link. -/
def takeEvent (s : State) (t n opx : Nat) : State :=
  match takeRx s t n (fun p => p.ty == .event && p.opx == opx) with
  | none => s
  | some (r, s) => holdOr (creditReturn s t n 0 r.units) (slotPosted s t n none) (.event t n r.pkt)

/-! ## Responses (R170, R171, R172) -/

/-- The status a partner's response is taken as, and whether it is counted malformed (R170). -/
def rspStatus (r : DevReq) (p : Pkt) : Nat × Bool :=
  let st := p.addr % 16
  if st = 0 then
    let wantsData := r.ty == .rd || r.ty == .atomic
    if (wantsData && p.ty == .rspD && p.len == r.len) || (!wantsData && p.ty == .rsp) then (0, false) else (2, true)
  else (if st = 1 ∨ st = 2 ∨ st = 8 then st else 2, false)

/-- The lock is accepted (R235 step 4): the locked read and those of its function that have come meanwhile may leave as RDs inside it;
with its host's entry gone, the lock ends at once. -/
def lockTaken (s : State) (t n : Nat) : State :=
  let l := lockSt s t n
  match l.begun with
  | none => s
  | some f =>
    let s := setLock s t n { l with begun := none, sent := false, holder := some (f.pkt.inst, f.locked.getD 0),
                                    wait := l.wait.filter (fun g => g.locked != f.locked) }
    let here : Bool := match f.issuer with
      | .inbound u e => (Tbl.get none s.host.inb (u * 1024 + e)).any (fun b => b.inst == f.pkt.inst && b.gen == f.pkt.gen)
      | _ => true
    if here then s else sendLockEnd (purge s t (fun x => x.f.serial == f.serial)) t n

/-- The host link whose earlier posted writes a response of a local slot stays behind (R228): that of the inbound entry or stream that
waits for it. -/
def rspLink (s : State) (r : DevReq) : Option Nat :=
  match r.issuer with
  | .inbound u e => (Tbl.get none s.host.inb (u * 1024 + e)).map Inb.link
  | .stream _ _ => (instOf s r.inst).fn.map Prod.fst
  | .nobody => none
  | .dmaTag _ _ => none
  | .dmaWr _ _ => none
  | .held _ _ _ _ => none
  | .lock _ _ => none

/-- Sends a response on to the port that issued its request (R21), behind the hold of R228. -/
def forwardRsp (s : State) (t n : Nat) (r : DevReq) (p : Pkt) (st units : Nat) : State :=
  let (k, s) := newSerial s
  let q : Pkt := { ty := if st = 0 then .rspD else .rsp, cls := 2, tag := p.tag, len := if st = 0 then p.len else 0,
                   inst := r.inst, gen := r.gen, rlx := p.rlx, ns := p.ns, ep := p.ep && st == 0, addr := st,
                   data := if st = 0 then p.data else [] }
  let h := rspLink s r
  let waits := if p.rlx ∨ h.isNone then [] else slotPosted s t n h
  let fr (dt dp ds : Nat) : Frame :=
    { serial := k, pkt := q, srcTile := t, srcPort := 1 + n / 2, srcSub := n % 2, dstTile := dt, dstPort := dp, dstSub := ds,
      issuer := r.issuer, links := r.links, credit := some (slotKey t n, 2, units) }
  match r.issuer with
  | .inbound u _ => enterAfter s waits false (fr u 0 ((h.getD 0) % 4))
  | .stream u _ => enterAfter s waits false (fr u 12 0)
  | .dmaTag u _ => enter s (fr u 8 0)
  | iss => answer (creditReturn s t n 2 units) iss st q.data q.ep

/-- A late response is discarded and counted (R172, R181). -/
def lateRsp (s : State) (t n : Nat) : State := evt (cf s t (ltp n 0x18) 16 16) t (ltpRow n) 4

/-- RSP_RECEIVE (R170, R172; an answer to a request of an epoch now past is late, R181). -/
def takeRsp (s : State) (t n : Nat) : State :=
  match takeRx s t n Pkt.isRsp with
  | none => s
  | some (r, s) =>
    let p := r.pkt
    let k := (t * 8 + n) * 4096 + p.tag
    match Tbl.find? s.lode.quar k with
    | some iss =>
      let s := ltpTags { s with lode := { s.lode with quar := Tbl.del s.lode.quar k } } t n
      lateRsp (creditReturn (endQuarantine s iss) t n 2 r.units) t n
    | none =>
    if (Tbl.find? s.lode.past k).isSome then
      lateRsp (creditReturn { s with lode := { s.lode with past := Tbl.del s.lode.past k } } t n 2 r.units) t n
    else match Tbl.get none s.lode.tags k with
      | none => countMalformed (creditReturn s t n 2 r.units) t n
      | some d =>
        let s := ltpTags { s with lode := { s.lode with tags := Tbl.set none s.lode.tags k none } } t n
        let (st, bad) := rspStatus d p
        let s := if bad then cf s t (ltp n 0x14) 0 16 else s
        match d.issuer with
        | .lock u m =>
          let s := creditReturn s t n 2 r.units
          if st = 0 then lockTaken (uncross s d.issuer) u m else answer s d.issuer st [] false
        | _ => forwardRsp s t n d p st r.units

/-- LTP_RSP_TIMEOUT: the request ends with TIMEOUT and its tag is quarantined (R172). -/
def rspTimeout (s : State) (t n tag : Nat) : State :=
  let k := (t * 8 + n) * 4096 + tag
  match Tbl.get none s.lode.tags k with
  | none => s
  | some d =>
    let s := { s with lode := { s.lode with
      tags := Tbl.set none s.lode.tags k none, quar := Tbl.ins s.lode.quar k d.issuer } }
    let s := evt (cf (ltpTags s t n) t (ltp n 0x18) 0 16) t (ltpRow n) 2 (some d.inst)
    answer s d.issuer 4 [] false

/-! ## Locks (R235, R236) -/

/-- The stored locked read that waits longest for a local slot: its id, its frame and the port it came in by. -/
def oldestLocked (s : State) (t n : Nat) : Option (Nat × Frame × Nat) :=
  (lockSt s t n).wait.head?.bind (fun f =>
    (List.find? (fun (e : Nat × Stored) => e.1 / 2 ^ 32 == t && e.2.f.serial == f.serial) s.swc.frames).map
      (fun e => (e.1 % 2 ^ 32, f, e.2.inPort)))

/-- LOCK_BEGIN_SEND (R235 step 3): LOCK_BEGIN joins the Control queue of the locked read's input, where it waits for credit as R191 and
ages as R199 give. -/
def lockBegin (s : State) (t n : Nat) : State :=
  let l := lockSt s t n
  match oldestLocked s t n with
  | some (id, f, p) =>
    let (k, s') := newSerial s
    let g : Frame := { serial := k, pkt := { ty := .lockBegin, cls := 3, inst := f.pkt.inst, gen := f.pkt.gen }, srcTile := f.srcTile,
                       srcPort := f.srcPort, srcSub := f.srcSub, dstTile := t, dstPort := 1 + n / 2, dstSub := n % 2,
                       issuer := .lock t n }
    match entryAcct s t p g with
    | some a =>
      if l.begun.isNone ∧ linkAlive s t n ∧ lockMayGo s t n id f then
        let (j, s) := storeFrame (setLock s' t n { l with begun := some f, sent := false }) t p g a 1
        enqueue s t (4 + n) p 3 (j, none) g.pkt.cells
      else s
    | none => s
  | none => s

/-- LOCK_WAIT_EXPIRY (R236): the locked read completes with Completer Abort and no lock is taken. -/
def lockExpiry (s : State) (t n : Nat) : State :=
  match (lockSt s t n).wait with
  | [] => s
  | f :: _ => answer (cf (cancelLocked s t n (fun g => g.serial == f.serial)) t (ltp n 0x24) 16 16) f.issuer 2 [] false

/-! ## Meanings -/

/-- Whether a tile has a local slot. -/
def localSlotOk (s : State) (t n : Nat) : Bool := decide (t < s.part.tiles) && decide (n < 8)

/-- WR_RECEIVE (R169, R214). -/
def execWrReceive (t n : Nat) (read : WttRead) (s : State) : Res := onUnit (localSlotOk s t n) (unfenced s t (takeWr s t n read))

/-- RD_RECEIVE (R173, R174). -/
def execRdReceive (t n : Nat) (s : State) : Res := onUnit (localSlotOk s t n) (unfenced s t (takeRd s t n))

/-- HELD_READ_SLOT_TAKE (R174, R233). -/
def execHeldReadSlotTake (t n : Nat) (read : WttRead) (s : State) : Res := onUnit (localSlotOk s t n) (unfenced s t (takeSlot s t n read))

/-- EVENT_ASSERT (R177). -/
def execEventAssert (t n : Nat) (s : State) : Res := onUnit (localSlotOk s t n) (unfenced s t (takeEvent s t n 0))

/-- EVENT_DEASSERT (R177). -/
def execEventDeassert (t n : Nat) (s : State) : Res := onUnit (localSlotOk s t n) (unfenced s t (takeEvent s t n 1))

/-- EVENT_EDGE (R177). -/
def execEventEdge (t n : Nat) (s : State) : Res := onUnit (localSlotOk s t n) (unfenced s t (takeEvent s t n 2))

/-- RSP_RECEIVE (R170, R171). -/
def execRspReceive (t n : Nat) (s : State) : Res := onUnit (localSlotOk s t n) (unfenced s t (takeRsp s t n))

/-- LTP_RSP_TIMEOUT (R172). -/
def execLtpRspTimeout (t n : Nat) (tag : BitVec 12) (s : State) : Res :=
  onUnit (localSlotOk s t n) (unfenced s t (rspTimeout s t n tag.toNat))

/-- LOCK_BEGIN_SEND (R235). -/
def execLockBeginSend (t n : Nat) (s : State) : Res := onUnit (localSlotOk s t n) (unfenced s t (lockBegin s t n))

/-- LOCK_WAIT_EXPIRY (R236). -/
def execLockWaitExpiry (t n : Nat) (s : State) : Res := onUnit (localSlotOk s t n) (unfenced s t (lockExpiry s t n))

/-- UNLOCK_MESSAGE: the host's Unlock ends every lock of its function (R113, R238). -/
def execUnlockMessage (h f : Nat) (s : State) : Res :=
  onUnit (decide (h < 4 * s.part.tiles)) (if hostUp s h then unlock s h f else s)

end Sys2Proof.Machine
end

