-- ==== Sys2Proof/Machine/Fault.lean ====
section
/-! DEFINITION. The meanings of the fault commands (16; fourteen banks a tile, none reading another, R330): recording, Headframe's service, acknowledgement, expiries, the dump
(R341 to R346) and loss summaries (R390). -/

namespace Sys2Proof.Machine

open Sys2Proof

/-! ## Service, acknowledgement, expiry -/

/-- Headframe's service of the next fault message (R331): an alarm for each new cause of every bank whose source is
pending, the bits cleared, DONE with CHECK. -/
def faultService (s : State) (t : Nat) : State :=
  if mode s t ≤ 1 ∨ (tileSt s t).fenced then s else
  match Tbl.get [] s.evc.hfDue t with
  | [] => s
  | m :: rest =>
    let s := { s with evc := { s.evc with hfDue := Tbl.set [] s.evc.hfDue t rest } }
    let banks := (List.range 14).filter (fun b => pendBit s t (26624 + b))
    let s := banks.foldl (fun s b =>
      let new := rreg s t (fltB b 4)
      let s := (List.range 8).foldl (fun s c => if bit new c then alarm s t (8 * b + c) else s) s
      wreg s t (fltB b 4) 0) s
    targetDone (evcRefresh s t) t (m / 256) true (m % 256)

/-- A write of 1s to FLT_B_CAUSE: causes acknowledged, their class C deadlines ended (R334). -/
def faultAck (s : State) (t b : Nat) (bits : Word) : State :=
  let s := wreg s t (fltB b 0) (rreg s t (fltB b 0) &&& ~~~bits)
  { s with flt := { s.flt with deadlines := s.flt.deadlines.filter (fun d =>
      !(d.tile == t && d.bank == b && d.inst.isNone && bit bits d.cause)) } }

/-- Whether a class B entry is that of an instance in a bank and has not expired. -/
def Deadline.isB (d : Deadline) (t b i : Nat) : Bool :=
  d.tile == t && d.bank == b && !d.fired && (match d.inst with
    | some (j, _) => j == i
    | none => false)

/-- An instance deadline expires (R335, R347): the instance is reset; with its home tile fenced the entry waits for that
tile's reset. -/
def expireB (s : State) (t b i : Nat) : State :=
  if recordsOnly s t then s else
  match List.find? (fun (d : Deadline) => d.isB t b i) s.flt.deadlines with
  | none => s
  | some d =>
    let gen := match d.inst with
      | some (_, g) => g
      | none => 0
    let s := cf s t (fltB b 0x14) 0 16
    let s := recordFaultRec s t b d.cause 1 (some i) gen 1 0 true
    let s := { s with flt := { s.flt with deadlines := s.flt.deadlines.map (fun x =>
      if x.isB t b i then { x with left := 0, fired := true } else x) } }
    startReset s i (plainReset false)

/-- The earliest class C deadline of a bank expires (R337). -/
def expireC (s : State) (t b : Nat) : State :=
  if recordsOnly s t then s else
  match earliest (s.flt.deadlines.filter (fun d => d.tile == t && d.bank == b && d.inst.isNone)) with
  | none => s
  | some d =>
    fenceBy { s with flt := { s.flt with deadlines := s.flt.deadlines.filter (fun x => x != d) } } t b d.cause

/-! ## The dump (R341 to R344) -/

/-- Flash offset of a dump slot. -/
abbrev slotBase (k : Nat) : Nat := 0x2000000 + k * 0x2000000

/-- FLT_DUMP_STATUS's code of a slot: 0 EMPTY, 1 COMPLETE, 2 INCOMPLETE, 3 RELEASED, 4 WRITING. -/
def slotState (s : State) (k : Nat) : Nat := gf s 0 0x8001000 (4 * k) 4

/-- The slot a dump goes to: EMPTY, INCOMPLETE or RELEASED, the one without the newest dump first (R342). -/
def dumpSlot (s : State) : Option Nat :=
  let newest := gf s 0 0x8001000 8 1
  let ok (k : Nat) : Bool := slotState s k == 0 || slotState s k == 2 || slotState s k == 3
  if ok (1 - newest) then some (1 - newest) else if ok newest then some newest else none

/-- Headframe takes the request and begins: the slot is erased and its start record written (R342). What the start
record holds is open: log entry 7. -/
def dumpStart (s : State) : State :=
  if mode s 0 ≤ 1 ∨ s.flt.dump.isSome then s else
  match s.flt.dumpReq with
  | none => s
  | some r =>
    let s := { s with flt := { s.flt with dumpReq := none } }
    match dumpSlot s with
    | none => alarm (sf s 0 0x8001000 29 1 1) 0 115
    | some k =>
      let s := flashErase s (slotBase k) 0x2000000
      let s := flashWrite s (slotBase k + 0xF00) (wordBytes (Config.freeWord s.fresh))
      let s := tickFresh s
      let s := { s with flt := { s.flt with dump := some ⟨r, k, gf s 0 0x8001010 0 32 + 1⟩,
                                             started := Tbl.ins s.flt.started k () } }
      sf (sf s 0 0x8001000 (4 * k) 4 4) 0 0x8001000 31 1 1

/-- The offsets of a tile's registers, in ascending order, but mailbox data and IX data registers (R344). -/
def dumpRegs : List Nat :=
  (List.range 14).flatMap (fun b =>
    ((List.range 0x14000).map (fun k => b * 0x1000000 + 4 * k)).filter (fun off =>
      (findRow off).isSome && (mbDataAt off).isNone && !isIxData off)) ++
  ((List.range 24).map (fun k => 0xE000000 + 4 * k)).filter (fun off => (findRow off).isSome && !isIxData off)

/-- The seven sections of a tile: type, offset in the tile's run, contents (R344). -/
def dumpSections (s : State) (t : Nat) : List (Nat × Nat × List Byte) :=
  [ (1, 0, mramRead s t 0x1E0000 0x20000),
    (2, 0x20000, bytesAt (dumpRegs.flatMap (fun off => leBytes 4 off ++ wordBytes (viewReg s t off)) ++
      leBytes 4 0xFFFFFFFF) 0 0x80000),
    (3, 0xA0000, (List.range 16384).flatMap (fun q => (List.range 16).flatMap (fun n => wordBytes (qw s t q n)))),
    (4, 0x1A0000, (List.range 0x100000).map (fun o => traceByte s t o)),
    (5, 0x2A0000, (List.range 512).flatMap (fun i => (instWords s (t * 512 + i)).flatMap wordBytes)),
    (6, 0x2A4000, (List.range 8192).flatMap (fun n =>
      bytesAt ((Tbl.get [] s.wtt.wins (t * 8192 + n)).flatMap wordBytes) 0 32)),
    (7, 0x2E4000, (List.range 1024).flatMap (fun w => wordBytes (pendWord s t w)) ++
      (List.range 1024).flatMap (fun w => wordBytes (rreg s t (0x7001000 + 4 * w))) ++
      (List.range 1024).flatMap (fun w => wordBytes (rreg s t (0x7002000 + 4 * w)))) ]

/-- A directory entry and the section it names (R343): LOST for a tile reset since the request, LIVE for a tile that
runs. -/
def dumpEntry (s : State) (lost : Bool) (t : Nat) (x : Nat × Nat × List Byte) : List Byte × Nat × List Byte :=
  let data := if lost then x.2.2.map (fun _ => 0) else x.2.2
  let off := 0x1000 + t * 0x2E7000 + x.2.1
  let flags := b2n (!(tileSt s t).fenced) + 2 * b2n lost
  (leBytes 2 x.1 ++ [BitVec.ofNat 8 t, BitVec.ofNat 8 flags] ++ leBytes 4 off ++ leBytes 4 data.length ++
    leBytes 4 (crc32c data).toNat, off, data)

/-- The dump header (R343). -/
def dumpHeader (s : State) (d : DumpRun) : List Byte :=
  let n := s.part.tiles
  let head := leBytes 4 0x4D5A4455 ++ leBytes 2 1 ++ leBytes 2 (7 * n) ++ leBytes 4 (0x1000 + n * 0x2E7000) ++
    leBytes 4 d.seq ++ leBytes 6 d.req.sec ++ [0, 0] ++ leBytes 4 d.req.sub ++
    [BitVec.ofNat 8 d.req.cls, BitVec.ofNat 8 d.req.tile, BitVec.ofNat 8 d.req.block, BitVec.ofNat 8 d.req.cause,
     BitVec.ofNat 8 n, BitVec.ofNat 8 (gf s 0 0x11C 4 2), 0, 0] ++ wordBytes d.req.imageSeq ++
    List.replicate 16 0
  head ++ leBytes 4 (crc32c head).toNat ++ leBytes 4 0xFFFFFFFF

/-- The waiting request steps up when a dump ends (R342). -/
def dumpNext (s : State) : State :=
  sf { s with flt := { s.flt with dump := none, dumpReq := s.flt.dumpWait, dumpWait := none } } 0 0x8001000 30 1 0

/-- The dump completes: directory and sections, then the header (R342). -/
def dumpFinish (s : State) : State :=
  match s.flt.dump with
  | none => s
  | some d =>
    let es := (List.range s.part.tiles).flatMap (fun t =>
      (dumpSections s t).map (dumpEntry s (d.req.lost.contains t) t))
    let s' := es.foldl (fun s e => flashWrite s (slotBase d.slot + e.2.1) e.2.2) s
    let s' := flashWrite s' (slotBase d.slot + 0x40) (es.flatMap (fun e => e.1))
    let s' := flashWrite s' (slotBase d.slot) (dumpHeader s d)
    let s' := sf (sf (sf s' 0 0x8001000 (4 * d.slot) 4 1) 0 0x8001000 8 1 d.slot) 0 0x8001000 31 1 0
    dumpNext (wreg s' 0 0x8001010 (word d.seq))

/-- A keyed RELEASE of a slot (R345, R347, R349): a COMPLETE slot's RELEASED word is programmed to zero; any other slot,
and the one being written, is left. -/
def dumpFree (s : State) (k : Nat) : State :=
  if slotState s k = 1 then
    sf (flashWrite s (slotBase k + 0x3C) [0, 0, 0, 0]) 0 0x8001000 (4 * k) 4 3
  else s

/-! ## Loss summaries (R390) -/

/-- The summary record of a bank, outside the bucket, once the bucket has a token. -/
def faultSummary (s : State) (t b : Nat) : State :=
  let l := Tbl.get {} s.flt.lost (t * 16 + b)
  if l.count = 0 ∨ faultToken s t = false then s else
  let s := recordPut s t (faultBytes s t b l.cause 0 none 0 5
    (Nat.min 0xFFFF l.count * 2 ^ 32 + l.firstS % 2 ^ 32) l.lastS l.lastSub)
  let s := { s with flt := { s.flt with lost := Tbl.set {} s.flt.lost (t * 16 + b) {} } }
  trcEvent (cf (alarm s t 113) t 0xD00000C 0 16) t 2

/-! ## Meanings -/

/-- Whether a bank is one of a tile of the part. -/
def bankOk (s : State) (t b : Nat) : Bool := decide (t < s.part.tiles) && decide (b < 14)

/-- What a cause found leaves in its own block beside the bank: SWC_ECC and WTT_ECC count an uncorrectable error and set
its event (R206, R223); the dirty-log filter entry that DETAIL names is treated as absent (R332). -/
def causeFound (s : State) (t b c : Nat) (inst : Option Nat) (detail : Nat) : State :=
  match b, c with
  | 3, 1 => evt (cf s t 0x3000034 0 16) t 34 5 inst
  | 4, 1 => evt (cf s t 0x4000020 0 16) t 35 6 none
  | 4, 2 => evt (cf s t 0x4000020 0 16) t 35 6 inst
  | 6, 2 =>
    let f := (Tbl.get [] s.ins.filter t).eraseIdx detail
    sf { s with ins := { s.ins with filter := Tbl.set [] s.ins.filter t f } } t 0x600000C 0 17 f.length
  | _, _ => s

/-- FAULT_RECORD (R331): a cause number never raised (R332) records nothing; an instance is taken only for an attributable
cause; SWC_ECC, WTT_ECC and the dirty-log filter follow their causes. -/
def execFaultRecord (t b c : Nat) (inst : Option Nat) (detail : BitVec 48) (s : State) : Res :=
  onUnit (bankOk s t b) <|
    match faultDefault b c with
    | some (_, _, attr) =>
      if mode s t = 0 then s
      else
        let inst := if attr then inst else none
        recordFault (causeFound s t b c inst detail.toNat) t b c inst detail.toNat
    | none => s

/-- HEADFRAME_FAULT_SERVICE (R331). -/
def execHeadframeFaultService (t : Nat) (s : State) : Res := onTile s t (faultService s t)

/-- CLASS_B_EXPIRY (R335). -/
def execClassBExpiry (t b i : Nat) (s : State) : Res := onUnit (bankOk s t b) (expireB s t b i)

/-- CLASS_C_EXPIRY (R337). -/
def execClassCExpiry (t b : Nat) (s : State) : Res := onUnit (bankOk s t b) (expireC s t b)

/-- HF_WATCHDOG (R332): Headframe runs from COMPOSE on. -/
def execHfWatchdog (t : Nat) (s : State) : Res :=
  onTile s t (if mode s t ≤ 1 then s else recordFault s t 0 3 none 0)

/-- DUMP_WRITE (R342). -/
def execDumpWrite (s : State) : Res := .next (dumpStart s)

/-- DUMP_COMPLETE (R342). -/
def execDumpComplete (s : State) : Res := .next (dumpFinish s)

/-- FAULT_LOSS_SUMMARY (R390). -/
def execFaultLossSummary (t b : Nat) (s : State) : Res := onUnit (bankOk s t b) (faultSummary s t b)

end Sys2Proof.Machine
end

