-- ==== Sys2Proof/Machine/Modes.lean ====
section
/-! DEFINITION. Power, start-up and resets (03, 20): power good and power down (R59, R398), the package start (R59, R63, R69), package
reset (R66), mode commands (R55), tile reset (R56, R67), tests (R64) and boundary scan (R65). -/

namespace Sys2Proof.Machine

open Sys2Proof

/-! ## Mode commands (R54, R55) -/

/-- GLB_MODE_CMD written with its KEY: a command starts unless one runs. -/
def modeCmd (s : State) (t : Nat) (c : ModeCmd) : State :=
  if gf s t 0x10C 0 1 = 1 then s
  else sf (setTile s t { tileSt s t with modeCmd := some c }) t 0x10C 0 1 1

/-- Whether no instance is homed in a tile. -/
def tileEmpty (s : State) (t : Nat) : Bool :=
  !(s.ins.recs.any (fun e => e.1 / 512 == t && e.2.state != .free))

/-- What a mode command comes to (R55, R57): the mode it enters, or its RESULT. -/
def modeOutcome (s : State) (t : Nat) (c : ModeCmd) : Except Nat Nat :=
  let degradable := mode s t = 2 ∨ mode s t = 3
  match c with
  | .service => if mode s t ≠ 2 then .error 1 else if recoveryShape s then .error 4 else .ok 3
  | .recovery => if degradable then .ok 4 else .error 1
  | .test => if mode s t ≠ 2 then .error 1 else if tileEmpty s t then .ok 5 else .error 2

/-- Messages that the PBAs hold are tried again for instances that a tile's entry into SERVICE has made live (R106, R319). -/
def wakeMessages (s : State) (t : Nat) : State :=
  (s.ins.recs.filter (fun e => live s e.1 && (homeTile e.1 == t || (instLink s e.1).any (fun h => linkTile h == t)))).foldl
    (fun s e => retryPba s e.1) s

/-- MODE_COMMAND_DONE: the running command completes (R55). -/
def modeDone (s : State) (t : Nat) : State :=
  match (tileSt s t).modeCmd with
  | none => s
  | some c =>
    let out := modeOutcome s t c
    let s := sf (setTile s t { tileSt s t with modeCmd := none }) t 0x10C 0 1 0
    match out with
    | .error r => sf s t 0x10C 16 8 r
    | .ok m => wakeMessages (setMode (sf s t 0x10C 16 8 0) t m 2) t

/-! ## Tests (R64) -/

/-- The ports a test acts on: the host port of the tile that carries the manager function's link is passed over. -/
def testPorts (s : State) (t : Nat) (ports : BitVec 8) : BitVec 8 :=
  if (managerLink s).any (fun h => linkTile h == t) then ports &&& 0x7F#8 else ports

/-- GLB_TEST_CTRL written with a test to start: only in TEST, and only while none runs. -/
def testStart (s : State) (t code : Nat) (ports : BitVec 8) : State :=
  if mode s t ≠ 5 ∨ gf s t 0x124 0 1 = 1 then s
  else
    let s := wreg s t 0x120 (word (ports.toNat * 256 + code))
    wreg (setTile s t { tileSt s t with test := some ⟨code, testPorts s t ports⟩ }) t 0x124 1

/-- A test's outcome in GLB_TEST_STATUS. -/
def testEnd (s : State) (t errors : Nat) (failed : BitVec 8) : State :=
  wreg (setTile s t { tileSt s t with test := none }) t 0x124
    (word (Nat.min 65535 errors * 65536 + failed.toNat * 256 + b2n (errors == 0) * 2))

/-- TEST written as 0 while test 2, 3 or 4 runs: it stops, PORTS unchanged. -/
def testStop (s : State) (t errors : Nat) (failed : BitVec 8) : State :=
  match (tileSt s t).test with
  | some x =>
    if x.code = 1 then s
    else testEnd (sf s t 0x120 0 4 0) t errors (if errors = 0 then 0 else failed &&& x.ports)
  | none => s

/-- A tile's keys in a table by tile × `n` + index. -/
def ofTile (t n k : Nat) : Bool := k / n == t

/-- The memories a test rewrites: windows, translation entries, queue contexts, instances, vectors, trace records, and the replay and
reorder buffers of the tile's Lode links (R64). -/
def bistMem (s : State) (t : Nat) : State :=
  let other (n k : Nat) : Bool := !ofTile t n k
  { s with
    wtt := { s.wtt with
      wins := Tbl.keep (other 8192) s.wtt.wins
      ents := Tbl.keep (other 2097152) s.wtt.ents
      streams := Tbl.keep (other 256) s.wtt.streams }
    dma := { s.dma with
      qctx := Tbl.keep (other (16384 * 16)) s.dma.qctx
      eng := Tbl.keep (other 16384) s.dma.eng }
    ins := { s.ins with
      recs := Tbl.keep (other 512) s.ins.recs
      logs := Tbl.keep (other 512) s.ins.logs
      filter := Tbl.del s.ins.filter t }
    host := { s.host with
      vecs := Tbl.keep (other 65536) s.host.vecs
      pba := Tbl.keep (other (512 * 2048)) s.host.pba }
    lode := { s.lode with
      links := s.lode.links.map (fun e =>
        if e.1 / slotCount = t then (e.1, { e.2 with replay := [], resend := [], reorder := [], part := [], txq := [] }) else e)
      wire := Tbl.keep (other (slotCount * 4096)) s.lode.wire }
    trc := { s.trc with recs := Tbl.keep (other (16 * 8192)) s.trc.recs } }

/-- The buffers of a tile's host port, but for those of the link that carries the manager function, are emptied by a test (R64). -/
def bistHost (s : State) (t : Nat) : State :=
  let kept (h : Nat) : Bool := managerLink s == some h
  let waits := Tbl.get [] s.host.tagWait t
  { s with host := { s.host with
    inb := s.host.inb.filter (fun e => e.1 / 1024 != t || e.2.any (fun b => kept b.link))
    tags := s.host.tags.filter (fun e => e.1 / 4096 != t || e.2.any (fun x => kept x.link))
    tagWait := Tbl.set [] s.host.tagWait t (waits.filter (fun f => kept (4 * t + f.dstSub)))
    outq := Tbl.keep (fun h => h / 4 != t || kept h) s.host.outq } }

/-- The frames that a tile holds anywhere go with its frame buffer in a test (R64): nothing waits for a posted one any more. -/
def bistFrames (s : State) (t : Nat) : State :=
  let at_ (n : Nat) (tb : Tbl (List Frame)) : List Frame := (tb.filter (fun e => ofTile t n e.1)).flatMap Prod.snd
  let links := s.lode.links.filter (fun e => e.1 / slotCount == t)
  let gone := (s.swc.frames.filter (fun e => e.1 / 2 ^ 32 == t)).map (fun e => e.2.f) ++ at_ 64 s.swc.ingress ++ at_ 12 s.swc.waiting ++
    at_ 1 s.swc.into ++ at_ 1 s.swc.mgmt ++ links.flatMap (fun e => e.2.txq.map TxJob.f)
  let s := { s with
    swc := { s.swc with
      ingress := Tbl.keep (fun k => !ofTile t 64 k) s.swc.ingress
      waiting := Tbl.keep (fun k => !ofTile t 12 k) s.swc.waiting
      into := Tbl.del s.swc.into t
      mgmt := Tbl.del s.swc.mgmt t }
    host := { s.host with resolve := Tbl.del s.host.resolve t } }
  gone.foldl (fun s f => lostWhole s f) (purge s t (fun _ => true))

/-- The arrays of a tile after memory BIST (R64): windows and WTT entries zero, queue contexts, EVC state, inline store and
dirty-log filter at their reset values, with what the image gives written again, instance records FREE with GEN 255, trace
buffer zero, frames, packets and host-port buffers gone. -/
def bistClear (s : State) (t : Nat) : State :=
  let gone := (s.ins.recs.filter (fun e => e.1 / 512 == t)).map Prod.fst
  let s := gone.foldl (fun s i => unbindInst s i) s
  let s := evcClear (bistHost (bistFrames s t) t) t
  let s := stageRefresh (tagsRefresh (bistMem s t) t) t
  let s := wreg (wreg s t 0x5000004 0) t 0x600000C 0
  let s := if recoveryShape s then s else applyEvc s t (slotRecords s (activeSlot s))
  evcRefresh s t

/-- BIST_DONE: memory BIST ends (R64). -/
def bistDone (s : State) (t errors : Nat) : State :=
  match (tileSt s t).test with
  | some x => if x.code = 1 then testEnd (bistClear s t) t errors 0 else s
  | none => s

/-! ## Links after a start or a tile reset -/

/-- Local links leave DISABLED unless DISABLE holds them (R125). -/
def startLocals (s : State) (t : Nat) : State :=
  (List.range 8).foldl (fun s n =>
    if (n % 2 = 0 ∨ bifurcated s t (n / 2)) ∧ gf s t (lnk n 4) 2 1 = 0 ∧ linkState s t n = 0 then setLinkState s t n 1 else s) s

/-- Host links whose PERST_N is high begin training (R60). -/
def startHosts (s : State) (t : Nat) : State :=
  (tileLinks s t).foldl (fun s h => if hls s h 29 1 = 0 then setHls s h 24 4 1 else s) s

/-! ## Package reset and power -/

/-- What no reset clears, with every volatile field at its reset value (R66): fuses, memories, the image controller's kept words, the
records' places, the calendar, canary baselines, flash marks; and the model's own fields. -/
def bareState (s : State) : State :=
  { part := s.part
    core := { fuses := s.core.fuses, pwrgood := s.core.pwrgood, resetN := false, mgrSel := s.core.mgrSel,
              pkgId := s.core.pkgId, thermtrip := s.core.thermtrip, tapScan := s.core.tapScan }
    mem := s.mem
    evc := { pins := s.evc.pins }
    flt := { recSeq := s.flt.recSeq, started := s.flt.started }
    otp := s.otp
    cal := s.cal
    age := { base := s.age.base, histSeq := s.age.histSeq }
    gal := { hfBad := s.gal.hfBad }
    modes := s.modes.map (fun e => (e.1, setFld e.2 16 8 0))
    outbox := s.outbox
    fresh := s.fresh
    ticks := s.ticks
    pending := s.pending }

/-- Copies the bits of a mask of a register from an older state. -/
def keepBits (old s : State) (t off : Nat) (m : Word) : State :=
  wreg s t off ((rreg old t off &&& m) ||| (rreg s t off &&& ~~~m))

/-- The registers that outlast package reset, as Fiddlehead and Headframe find them again (R340, R341, R365): places in the record
rings, dump slots, and the levels of PERST_N. `bits` of FLT_DUMP_STATUS are kept. -/
def keepPlaces (old s : State) (bits : Word) : State :=
  let s := (List.range s.part.tiles).foldl (fun s t =>
    let s := keepBits old (keepBits old s t 0x8000E00 0xFFF#32) t 0x90000A4 0xFFF#32
    (List.range 4).foldl (fun s k => keepBits old s t (hpt k 0) 0x20000000#32) s) s
  let s := keepBits old (keepBits old s 0 0x8001000 bits) 0 0x8001010 0xFFFFFFFF#32
  [0, 1].foldl (fun s k => if slotState s k = 4 then sf s 0 0x8001000 (4 * k) 4 2 else s) s

/-- Releases every WAKE_N that is asserted (R116). -/
def releaseWakes (s : State) (mine : Nat → Bool) : State :=
  let on := (s.host.wakes.map Prod.fst).filter mine
  let s := { s with host := { s.host with wakes := Tbl.keep (fun h => !mine h) s.host.wakes } }
  on.foldl (fun s h => emit s (.wake h false)) s

/-- PACKAGE_RESET: RESET_N falls (R66, R425). The fatal latch and GLB_RESET_CAUSE stay, and PACKAGE is set; GLB_TILE_MODE keeps its MODE
until RESET_N rises (R57), with TRANSITIONS 0. -/
def packageReset (s : State) : State :=
  if s.core.resetN = false then s
  else
    let s := releaseWakes s (fun _ => true)
    let r := keepPlaces s (bareState s) 0x200001FF#32
    (List.range s.part.tiles).foldl (fun r t =>
      sf (keepBits s (keepBits s r t 0x118 0xFFFFFFFF#32) t 0x114 0x1F#32) t 0x114 1 1 1) r

/-- POWER_DOWN: PWRGOOD falls (R398): what is volatile is lost; the always-on domain runs on from VBAT and keeps the time of the
loss (R353). -/
def powerDown (s : State) : State :=
  if s.core.pwrgood = false then s
  else
    let s := releaseWakes s (fun _ => true)
    let b := { bareState s with modes := [] }
    let c := { s.cal with lost := some (s.cal.sec, s.cal.sub), stopFlag := s.cal.still, lastRead := 0 }
    keepPlaces s { b with core := { b.core with pwrgood := false, thermtrip := false, tapScan := false }, cal := c } 0x1FF#32

/-- POWER_GOOD_RISE: PWRGOOD rises (R59 step 0, R351): a crystal stop on VBAT clears VALID. -/
def powerGood (s : State) : State :=
  if s.core.pwrgood then s
  else { s with core := { s.core with pwrgood := true }
                cal := { s.cal with dead := false, rise := some (s.cal.sec, s.cal.sub), lastRead := 0,
                                    valid := s.cal.valid && !s.cal.stopFlag, substitute := s.cal.still } }

/-- VBAT_LOST while main power is absent (R351): the calendar and what VBAT keeps are lost. -/
def vbatLost (s : State) : State := if s.core.pwrgood then s else { s with cal := { dead := true } }

/-! ## The package start (R59) -/

/-- GAL_STATUS and GAL_SEEN from the straps (R370). -/
def galStraps (s : State) (mgrSel : Bool) (pkgId : Nat) : State :=
  wreg (wreg s 0 0xB000000 (word (b2n mgrSel * (2 ^ 31 + 2 ^ 23) + 2 ^ 28 + pkgId * (2 ^ 18 + 2 ^ 13) + 1)))
    0 0xB00000C (word (2 ^ pkgId))

/-- The image's GALLERY record in force (R40, R370). -/
def galImage (s : State) (g : Option (Nat × Nat)) : State :=
  match g with
  | none => s
  | some (role, id) =>
    let s := if role = 0 then s else sf (sf s 0 0xB000000 31 1 (b2n (decide (2 ≤ role)))) 0 0xB000000 24 1 1
    if id < 128 then s
    else wreg (sf (sf s 0 0xB000000 13 5 id) 0 0xB000000 24 1 1) 0 0xB00000C (word (2 ^ (id % 32)))

/-- The request of step 1 (R359), in units of 0.1 mV. -/
def startVreq (s : State) : Nat :=
  match newestVreq s with
  | some v => Nat.min 8500 (Nat.max 7500 (v + 100))
  | none => 7500

/-- Step 1 (R59, R359, R399): VOUT_MODE read, the request brought up in steps of 2.5 mV, a record of KIND 3. -/
def startCore (s : State) : State :=
  let v := startVreq s
  let s := setVreq (pmbusSend s pmbVoutMode) 7500
  let s := (List.range ((v - 7500) / 25)).foldl (fun s k => setVreq s (7500 + 25 * (k + 1))) s
  let s := if vreq s = v then s else setVreq s v
  histPut s 0 3 0

/-- GLB_BOOT_STATUS.STAGE. -/
def bootStage (s : State) (n : Nat) : State := sf s 0 0x11C 0 4 n

/-- Step 2: the other tiles (R403). -/
def enableTiles (s : State) : State :=
  (List.range s.part.tiles).foldl (fun s t =>
    let s := sf s 0 0xC000014 t 1 1
    if t = 0 then s else setMode s t 1 0) (bootStage s 1)

/-- Step 3: the tile links leave DISABLED, each with the window and identity of its slot (R125, R147). -/
def startTileLinks (s : State) : State :=
  (List.range s.part.tiles).foldl (fun s t => [8, 9, 10].foldl (fun s n =>
    setLinkState (sf (sf s t (lnk n 0x40) 0 11 1024) t (lnk n 0xC) 16 16 (4 * t + (n - 8))) t n 1) s) (bootStage s 2)

/-- A Headframe copy in flash (R59). -/
def headframeCopy (s : State) (k : Nat) : List Byte := flashRead s (k * 0x800000) 0x400000

/-- Step 4: the Headframe copy used; 3 when neither passes. -/
def headframeUsed (s : State) : Nat :=
  if Config.headframePasses (headframeCopy s 0) then 0 else if Config.headframePasses (headframeCopy s 1) then 1 else 3

/-- A start with the fatal latch set (R69). -/
def fatalBoot (s : State) : State :=
  (List.range s.part.tiles).foldl (fun s t =>
    let s := setMode s t 4 4
    sf (setTile s t { tileSt s t with fenced := true, transitStop := true }) t 0x114 4 1 1) s

/-- Steps 6 and 7 in the recovery shape (R46, R63): tile 0 in COMPOSE, host link 0 alone trains. -/
def startRecovery (s : State) : State :=
  let s := setMode (bootStage (loadTables (bootStage s 5)) 6) 0 2 1
  if hls s 0 29 1 = 0 then setHls s 0 24 4 1 else s

/-- Steps 6 and 7 with an image (R59, R60, R370). -/
def startImage (s : State) : State :=
  let x := slotRecords s (activeSlot s)
  let s := galImage (bootStage (loadTables (bootStage s 5)) 6) x.gallery
  let s := { s with str := { s.str with testFlag := x.test } }
  (List.range s.part.tiles).foldl (fun s t =>
    startLocals (startHosts (if x.test then setMode s t 5 5 else setMode s t 2 1) t) t) s

/-- Steps 5 to 7. -/
def startShape (s : State) : State :=
  let (s, cand) := chooseImage (bootStage s 4)
  let s := sf s 0 0x11C 6 3 cand
  if recoveryShape s then startRecovery s else startImage s

/-- PACKAGE_START: RESET_N rises (R59, R63, R69, R370, R425, R431). -/
def packageStart (s : State) (mgrSel : Bool) (pkgId : Nat) : State :=
  if s.core.resetN ∨ s.core.pwrgood = false then s
  else
    let s := { s with core := { s.core with resetN := true, mgrSel := mgrSel, pkgId := BitVec.ofNat 5 pkgId, tapScan := false, scanned := false } }
    let s := setMode (galStraps s mgrSel pkgId) 0 1 0
    let s := if s.cal.stopFlag then
        recordFault { s with cal := { s.cal with stopFlag := false } } 0 9 1 none 0
      else s
    let s := bootStage (startTileLinks (enableTiles (startCore s))) 3
    let hf := headframeUsed s
    let s := sf s 0 0x11C 4 2 hf
    if hf = 3 then s
    else if gf s 0 0x118 0 1 = 1 then fatalBoot s
    else startShape s

/-! ## Tile reset (R56, R67, R68) -/

/-- The record of a tile reset on ring 0, exempt from the bucket (R387). -/
def traceReset (s : State) (u t : Nat) : State :=
  ringPut s u 0 (traceBytes s u 0 0x81 s.cal.sub (s.cal.sec % 2 ^ 32) none
    [BitVec.ofNat 8 (mode s u), BitVec.ofNat 8 t, BitVec.ofNat 8 (b2n (tileSt s u).fenced)])

/-- A fenced tile's sections are lost to the dumps requested before its reset (R342, R343). -/
def dumpLose (s : State) (u : Nat) : State :=
  let add (r : DumpReq) : DumpReq := { r with lost := insNat u r.lost }
  { s with flt := { s.flt with dump := s.flt.dump.map (fun d => { d with req := add d.req })
                               dumpReq := s.flt.dumpReq.map add, dumpWait := s.flt.dumpWait.map add } }

/-- Commands of the instance mailboxes and of WTT_CMD that run in the tile end with PREEMPTED (R221, R285). How much of a RESTAMP had
been done is free: log entry 7. -/
def preemptTile (s : State) (u : Nat) : State :=
  let s := [0, 1, 2, 3].foldl (fun s m =>
    if gf s u (insMb m) 30 1 = 1 then insMbFinish (insRefuse s u m whyPreempted) u m else s) s
  let mine (k : Nat) : Bool := ofTile u 512 k
  let s := { s with ins := { s.ins with
    freezes := Tbl.keep (fun k => !mine k) s.ins.freezes
    busy := Tbl.keep (fun k => !mine k) s.ins.busy
    resets := s.ins.resets.map (fun e => if mine e.1 then (e.1, e.2.map (fun x => { x with mb := none, removing := false })) else e)
    logs := s.ins.logs.map (fun e => if mine e.1 then (e.1, { e.2 with clearMb := none }) else e) } }
  match wttRun s u with
  | some r =>
    let n := s.fresh
    let s := tickFresh s
    let s := if r.op = 2 then stampAll s r.inst r.gen (fun k => Config.freeBit (n + k)) else s
    wttEnd (setWttRun s u none) u 2
  | none => s

/-- The instances homed in a tile that are not FREE, in ascending order. -/
def homed (s : State) (u : Nat) : List Nat :=
  (s.ins.recs.filter (fun e => e.1 / 512 == u && e.2.state != .free)).map Prod.fst

/-- Steps 1 to 5 of a tile reset (R67, R68). -/
def beginTileReset (s : State) (u t : Nat) : State :=
  let x := tileSt s u
  let s := traceReset s u t
  let s := sf s u 0x114 2 1 1
  let s := if x.fenced then dumpLose (sf s u 0x114 3 1 1) u else s
  let s := setMode s u 1 7
  let s := setTile s u { tileSt s u with fenced := false, transitStop := false, resetting := true, resetBy := t }
  let s := planForget (preemptTile (dropDeadlines s u) u) u
  let s := (tileLinks s u).foldl (fun s h => hostLinkReset s h 3 (if hls s h 29 1 = 1 then 0 else 1)) s
  let s := (List.range 8).foldl (fun s n => holdLink s u n) s
  let s := releaseWakes (clearOwn s u) (fun h => h / 4 == u)
  let s := (s.dma.tags.filter (fun e => e.1 / 4096 == u)).foldl (fun s e =>
    match e.2 with
    | some g => if g.quar then s else quarantine s u (e.1 % 4096) g true
    | none => s) s
  (homed s u).foldl (fun s i =>
    startReset (logEnd s i) i { step := 0, flr := false, byTile := true }) s

/-- GLB_TILE_RESET written with its KEY in tile `t` (R54, R56): its own tile, absent tiles, tiles OFF and tiles already in reset are passed
over, and so is every tile while boundary scan holds the package (R65). -/
def tileReset (s : State) (t : Nat) (tiles : BitVec 8) : State :=
  let s := wreg s t 0x110 (word (0x54 * 2 ^ 24 + tiles.toNat))
  (List.range s.part.tiles).foldl (fun s u =>
    if tiles.getLsbD u = false ∨ u = t ∨ mode s u = 0 ∨ (tileSt s u).resetting ∨ s.core.scanned then s
    else beginTileReset s u t) s

/-- The bits of a register that step 6 leaves (R66, R67, R336, R394, R403): modes and causes, PERST_N, epochs of local links, the tile
links, the frame buffer's accounts, image values, results of preempted commands, quarantined tags, the event controller (cleared at step
1), and the package's own units. -/
def keepMask (off : Nat) : Word :=
  let b := off / 0x1000000
  let o := off % 0x1000000
  let all : Word := 0xFFFFFFFF#32
  match b with
  | 0 => if o = 0x10C ∨ o = 0x114 ∨ o = 0x118 ∨ o = 0x11C then all else 0
  | 1 => if o < 0x400 ∧ o % 0x100 = 0 then 0x2F000000#32 else 0
  | 2 =>
    if 0xB00 ≤ o then 0
    else if 8 ≤ o / 0x100 then
      (if [0x00, 0x04, 0x0C, 0x20, 0x24, 0x40, 0x44, 0x48, 0x54, 0x58, 0x5C, 0x7C].contains (o % 0x100) then all else 0)
    else if o % 0x100 = 0 then 0x00F00000#32
    else if o % 0x100 = 0x40 then 0xFFFF0000#32 else 0
  | 3 => if o < 0x14 ∨ (0x18 ≤ o ∧ o < 0x30) ∨ (0x100 ≤ o ∧ o < 0x280 ∧ o % 0x20 = 8) then all else 0
  | 4 => if o = 0 then all else 0
  | 5 => if o = 0x208 ∨ o = 0x20C then all else 0
  | 6 => if (0x20 ≤ o ∧ o < 0x30) ∨ 0x100 ≤ o then all else 0
  | 7 => all
  | 8 => if (o < 0xE00 ∧ 0x20 ≤ o % 0x100 ∧ o % 0x100 < 0x40) ∨ 0xE00 ≤ o then all else 0
  | 9 => if o = 0x98 ∨ o = 0xA4 then all else if o = 0x84 then 0xFF#32 else 0
  | 10 => all
  | 11 => all
  | 12 => if o = 0x08 ∨ o = 0x10 ∨ o = 0x14 ∨ o = 0x1C ∨ o = 0x20 ∨ o = 0x24 then all else 0
  | 13 => all
  | _ => 0

/-- Step 6: the registers of a tile. -/
def reinitRegs (s : State) (u : Nat) : Tbl Word :=
  s.regs.filterMap (fun e =>
    if e.1 / 0x10000000 = u then
      let off := e.1 % 0x10000000
      let d := regReset u off
      let m := keepMask off
      let v := (e.2 &&& m) ||| (d &&& ~~~m)
      if v = d then none else some (e.1, v)
    else some e)

/-- Step 6: the blocks reinitialised. -/
def reinitTile (s : State) (u : Nat) : State :=
  let other (n k : Nat) : Bool := !ofTile u n k
  { s with
    regs := reinitRegs s u
    bus := { tv := Tbl.keep (other 0x10000000) s.bus.tv, xq := Tbl.keep (other 32) s.bus.xq
             mb := Tbl.keep (fun k => other 0x10000000 k || decide (10 ≤ k % 0x10000000 / 0x1000000)) s.bus.mb }
    swc := { s.swc with counts := Tbl.keep (other 48) s.swc.counts }
    dma := { s.dma with
      qctx := Tbl.keep (other (16384 * 16)) s.dma.qctx
      eng := Tbl.keep (other 16384) s.dma.eng
      counts := Tbl.keep (other (512 * 2)) s.dma.counts
      instDef := Tbl.keep (other 2048) s.dma.instDef
      queueDef := Tbl.keep (other 65536) s.dma.queueDef
      share := Tbl.keep (other 16384) s.dma.share
      instShare := Tbl.keep (other 512) s.dma.instShare
      instTurn := Tbl.keep (other 4) s.dma.instTurn
      queueTurn := Tbl.keep (other 2048) s.dma.queueTurn
      ready := Tbl.del s.dma.ready u
      urgent := Tbl.del s.dma.urgent u }
    ins := { s.ins with filter := Tbl.del s.ins.filter u }
    age := { s.age with now := Tbl.keep (other 64) s.age.now, bad := Tbl.keep (other 64) s.age.bad
                        eyes := Tbl.del s.age.eyes u, lanesLow := Tbl.del s.age.lanesLow u
                        lowPorts := Tbl.del s.age.lowPorts u, maintDue := Tbl.del s.age.maintDue u
                        maintTicks := Tbl.del s.age.maintTicks u }
    trc := { s.trc with tokensUsed := Tbl.keep (other 16) s.trc.tokensUsed } }

/-- The instances of a pool, lowest number first. -/
def poolInsts (s : State) (u p : Nat) : List Nat := (homed s u).filter (fun i => (instOf s i).pool == p)

/-- Whether a pool covers what its instances hold, SHARE_BUDGET included (R50). -/
def poolCovers (s : State) (u p : Nat) : Bool :=
  let l := (poolInsts s u p).map (instOf s)
  poolHolds (poolOf s u p) l && decide ((l.map Inst.weight).sum ≤ (poolOf s u p).shareBudget)

/-- Removes a pool's instances, highest number first, until it covers the rest (R50, R67 step 7). -/
def shrinkPool (s : State) (u p : Nat) : Nat → State
  | 0 => s
  | n + 1 =>
    if poolCovers s u p then s
    else match (poolInsts s u p).getLast? with
      | some i => shrinkPool (insEvent (freeInst (unbindInst s i) i) i 3) u p n
      | none => s

/-- Steps 6 to 8 (R67), once no instance reset of the tile runs. In the recovery shape the tile stays in FIDDLEHEAD (R63). -/
def endTileReset (s : State) (u : Nat) : State :=
  if (tileSt s u).resetting = false ∨ mode s u ≠ 1 ∨ s.ins.recs.any (fun e => e.1 / 512 == u && e.2.resetting) then s
  else
    let s := stageRefresh (applyTile (reinitTile s u) u) u
    let s := (List.range 16).foldl (fun s p => shrinkPool s u p 512) s
    let s := setTile s u { tileSt s u with resetting := false }
    if recoveryShape s then
      if u = 0 then
        let s := setMode s u 2 7
        if hls s 0 29 1 = 0 then setHls s 0 24 4 1 else s
      else s
    else
      let s := if s.str.testFlag then setMode s u 5 5 else setMode s u 2 7
      startLocals (startHosts s u) u

/-! ## Boundary scan (R65, R431) -/

/-- JTAG_BOUNDARY_SCAN: every tile that is not OFF goes to TEST, and the pins go to the boundary-scan cells. -/
def boundaryScan (s : State) : State :=
  let s := { s with core := { s.core with scanned := s.core.pwrgood, tapScan := true } }
  (List.range s.part.tiles).foldl (fun s t =>
    if tileMode s t = 0 then s
    else
      let s := setMode s t 5 6
      setTile s t { tileSt s t with fenced := false, transitStop := false, resetting := false }) s

/-! ## Meanings -/

/-- POWER_GOOD_RISE (R59). -/
def execPowerGoodRise (s : State) : Res := .next (powerGood s)

/-- PACKAGE_START (R59). -/
def execPackageStart (mgrSel : Bool) (pkgId : BitVec 5) (s : State) : Res := .next (packageStart s mgrSel pkgId.toNat)

/-- PACKAGE_RESET (R66). -/
def execPackageReset (s : State) : Res := .next (packageReset s)

/-- POWER_DOWN (R398). -/
def execPowerDown (s : State) : Res := .next (powerDown s)

/-- MODE_COMMAND_DONE (R55). -/
def execModeCommandDone (t : Nat) (s : State) : Res := onTile s t (modeDone s t)

/-- TILE_RESET_COMPLETE (R67). -/
def execTileResetComplete (t : Nat) (s : State) : Res := onTile s t (endTileReset s t)

/-- BIST_DONE (R64). -/
def execBistDone (t : Nat) (errors : Nat) (s : State) : Res := onTile s t (bistDone s t errors)

/-- JTAG_BOUNDARY_SCAN (R65). -/
def execJtagBoundaryScan (s : State) : Res := .next (boundaryScan s)

/-- TAP_RESET (R431). -/
def execTapReset (s : State) : Res := .next { s with core := { s.core with tapScan := false } }

/-- VBAT_LOST (R351). -/
def execVbatLost (s : State) : Res := .next (vbatLost s)

end Sys2Proof.Machine
end

