-- ==== Sys2Proof/Machine/Pwr.lean ====
section
/-! DEFINITION. Power: the load-step governor (R400, R401), temperatures (R404), the backup supply (R405, R406), and the interface to the
core-voltage regulator (R399). What meets in power handling is decided as in R415. -/

namespace Sys2Proof.Machine

open Sys2Proof

/-- How far an estimate may move in one window, in units of 1/80 A: PWR_DIDT_MAX × 0.1 µs ÷ N of tile 0 (R400). -/
def govStep (s : State) : Nat := gf s 0 0xC000000 0 10 * 8 / s.part.tiles

/-- The ceiling of an estimate, PWR_IMAX ÷ N, in units of 1/80 A (R400). -/
def govCeil (s : State) : Nat := gf s 0 0xC000004 0 10 * 80 / s.part.tiles

/-- The estimate the governor lets stand in the next window, when activity asks for `wanted` (R400): within one step of the last, and below
the ceiling as far as a fall of one step allows. -/
def govNext (step ceil est wanted : Nat) : Nat :=
  Nat.max (Nat.min (Nat.min wanted ceil) (est + step)) (est - step)

/-- A window that withholds grants without pause for 1 ms records DIDT_HOLD (R401). -/
def govHold (s : State) (t : Nat) (held : Bool) : State :=
  let n := if held then Tbl.get 0 s.pwr.held t + 1 else 0
  if n < 10000 then { s with pwr := { s.pwr with held := Tbl.set 0 s.pwr.held t n } }
  else evt (recordFault { s with pwr := { s.pwr with held := Tbl.del s.pwr.held t } } t 12 1 none 0) t 41 1

/-- The end of a window for THROTTLED_MS, which counts milliseconds with any window throttled (R416). -/
def govCount (s : State) (t : Nat) (held : Bool) : State :=
  let w := Tbl.get 0 s.pwr.win t + 1
  let h := Tbl.get 0 s.pwr.thr t + b2n held
  if w < 10000 then { s with pwr := { s.pwr with win := Tbl.set 0 s.pwr.win t w, thr := Tbl.set 0 s.pwr.thr t h } }
  else
    let s := { s with pwr := { s.pwr with win := Tbl.del s.pwr.win t, thr := Tbl.del s.pwr.thr t } }
    if h = 0 then s else cf s t 0xC00000C 16 16

/-- GOVERNOR_WINDOW: one window of 100 ns in which the tile's activity asks for `wanted` × 0.1 A (R400, R401). -/
def govWindow (s : State) (t wanted : Nat) : State :=
  if mode s t = 0 then s
  else
    let est := govNext (govStep s) (govCeil s) (Tbl.get 0 s.pwr.est t) (wanted * 8)
    let was := gf s t 0xC000008 31 1 = 1
    let held := decide (est < wanted * 8)
    let s := { s with pwr := { s.pwr with est := Tbl.set 0 s.pwr.est t est } }
    let s := wreg s t 0xC000008 (word (b2n held * 2 ^ 31 + Nat.min 4095 (est / 8)))
    let s := if held ∧ ¬ was then evt s t 41 0 else if was ∧ ¬ held then cf s t 0xC00000C 0 16 else s
    govHold (govCount s t held) t held

/-- The hottest of four readings, the lowest-numbered sensor first: temperature and sensor. -/
def hottest (r0 r1 r2 r3 : Int) : Int × Nat :=
  [(r1, 1), (r2, 2), (r3, 3)].foldl (fun a x => if a.1 < x.1 then x else a) (r0, 0)

/-- A temperature as its 8-bit field holds it. -/
def tempCode (v : Int) : Nat := unsigned 8 (if v < -128 then -128 else if 127 < v then 127 else v)

/-- TEMP_SAMPLE (R404): above 110 °C TEMP_HIGH, above 125 °C the thermal trip and THERMTRIP_N. -/
def tempSample (s : State) (t : Nat) (r0 r1 r2 r3 : Int) : State :=
  if mode s t = 0 then s
  else
    let (v, k) := hottest r0 r1 r2 r3
    let s := wreg s t 0xC000010 (word (2 ^ 31 + k * 256 + tempCode v))
    let s := if 110 < v then evt s t 41 2 else s
    if 125 < v then
      let s := recordFault s t 12 2 none k
      if s.core.thermtrip then s else emit { s with core := { s.core with thermtrip := true } } .thermtrip
    else s

/-- PWR_VBAT.CHARGING: CHARGE, main power, and a reading of at least 1.8 V (R406). -/
def chargeRefresh (s : State) : State :=
  sf s 0 0xC000024 30 1 (b2n (gf s 0 0xC000020 0 1 == 1 && s.core.pwrgood && decide (1800 ≤ gf s 0 0xC000024 0 12)))

/-- VBAT_SAMPLE (R405). -/
def vbatSample (s : State) (mv : Nat) : State :=
  if s.core.pwrgood = false ∨ s.core.resetN = false then s
  else
    let s := chargeRefresh (sf (sf s 0 0xC000024 0 12 (Nat.min 4095 mv)) 0 0xC000024 31 1 (b2n (decide (mv < 2200))))
    if mv < 2200 then evt s 0 41 4 else s

/-- A write of PWR_VBAT_CTRL (R406, R416, R87): with a wrong KEY, or its byte not enabled, ignored whole. -/
def chargeWrite (s : State) (be : BitVec 4) (v : Word) : State :=
  if be.getLsbD 3 = false ∨ fld v 24 8 ≠ 0x43 then s
  else if be.getLsbD 0 then chargeRefresh (sf s 0 0xC000020 0 1 (fld v 0 1)) else s

/-- PMBUS_RETRY: the transaction not acknowledged is sent again (R399). -/
def pmbusRetry (s : State) (acked : Bool) : State :=
  match s.pwr.retry with
  | some c => pmbusEnd (pmbusSend s c) c acked
  | none => s

/-- READ_VOUT_SAMPLE (R399). -/
def readVout (s : State) (acked : Bool) (readback : BitVec 16) : State :=
  if s.core.pwrgood = false ∨ s.core.resetN = false then s
  else
    let s := pmbusEnd (pmbusSend s pmbReadVout) pmbReadVout acked
    if acked then sf s 0 0xC00001C 0 16 readback.toNat else s

/-! ## Meanings -/

/-- GOVERNOR_WINDOW (R400). -/
def execGovernorWindow (t : Nat) (wanted : Nat) (s : State) : Res := onTile s t (govWindow s t wanted)

/-- TEMP_SAMPLE (R404). -/
def execTempSample (t : Nat) (r0 r1 r2 r3 : Int) (s : State) : Res := onTile s t (tempSample s t r0 r1 r2 r3)

/-- VBAT_SAMPLE (R405). -/
def execVbatSample (mv : Nat) (s : State) : Res := .next (vbatSample s mv)

/-- PMBUS_RETRY (R399). -/
def execPmbusRetry (acked : Bool) (s : State) : Res := .next (pmbusRetry s acked)

/-- VRM_ALERT (R399). -/
def execVrmAlert (s : State) : Res := .next (if s.core.pwrgood ∧ s.core.resetN then evt s 0 41 5 else s)

/-- READ_VOUT_SAMPLE (R399). -/
def execReadVoutSample (acked : Bool) (readback : BitVec 16) (s : State) : Res := .next (readVout s acked readback)

end Sys2Proof.Machine
end

