-- ==== Sys2Proof/Machine/Trc.lean ====
section
/-! DEFINITION. Trace loss summaries (R388), the alarm mailbox (R392), and the SMBus target's Block Reads (R428, R429). -/

namespace Sys2Proof.Machine

open Sys2Proof

/-- The alarm mailbox. -/
abbrev alarmMb : Nat := 0xD000300

/-- The words of an alarm slot (R392). -/
def alarmWords (a : Alarm) : List Word :=
  [word a.count, word (b2n a.active * 2 ^ 31 + b2n a.inst.isNone * 2 ^ 15 + a.inst.getD 0 % 4096), word a.first, word a.last]

/-- A command of the alarm mailbox: an index above 255 is bad. -/
def alarmCmd (s : State) (t op : Nat) (k : State → Nat → State) : State :=
  mbCmd s t alarmMb op (fun s =>
    let ty := mbIndex s t alarmMb
    if 255 < ty then mbEnd s t alarmMb badIndex else k s ty)

/-- ALARM_READ (R392). -/
def alarmRead (s : State) (t : Nat) : State :=
  alarmCmd s t 1 (fun s ty => mbEnd s t alarmMb (.ok (alarmWords (alarmSlot s t ty))))

/-- ALARM_ACK (R392): the slot is cleared if its COUNT is still the one the software read. -/
def alarmAck (s : State) (t : Nat) : State :=
  alarmCmd s t 3 (fun s ty =>
    if (alarmSlot s t ty).count = (mbData s t alarmMb 0).toNat then mbEnd (setAlarm s t ty {}) t alarmMb (.ok [])
    else mbEnd s t alarmMb refusedMb)

/-- ALARM_WRITE (R392): REFUSED. -/
def alarmWrite (s : State) (t : Nat) : State := alarmCmd s t 2 (fun s _ => mbEnd s t alarmMb refusedMb)

/-- The hottest PWR_TEMP of the enabled tiles (R429). -/
def hottestTemp (s : State) : Word :=
  (List.range s.part.tiles).foldl (fun a t =>
    let w := rreg s t 0xC000010
    if mode s t ≠ 0 ∧ bit w 31 ∧ (bit a 31 = false ∨ signed 8 (fld a 0 8) < signed 8 (fld w 0 8)) then w else a) 0

/-- The bytes of a Block Read (R429); `none` for an unknown command. -/
def smbusData (s : State) (cmd : Nat) : Option (List Byte) :=
  match cmd with
  | 0 => some (wordBytes (pkgModes s))
  | 1 => some (wordBytes (rreg s 0 0x11C))
  | 2 => some (wordBytes (rreg s 0 0x118))
  | 3 => some (wordBytes (rreg s 0 0x8001000))
  | 4 => some (wordBytes (rreg s 0 0xA000000))
  | 5 => some (wordBytes (alarmSummary s))
  | 6 => some (wordBytes (hottestTemp s))
  | 7 => some (leBytes 4 s.cal.sub ++ leBytes 6 s.cal.sec ++ [byteOf (calStatus s) 3, 0])
  | _ => none

/-- SMBUS_BLOCK_READ (R428): no answer while RESET_N is low or main power is absent. -/
def smbusRead (s : State) (cmd : BitVec 8) : State :=
  if s.core.pwrgood = false ∨ s.core.resetN = false then s
  else match smbusData s cmd.toNat with
    | some l => emit s (.smbus cmd l)
    | none => s

/-! ## Meanings -/

/-- TRACE_LOSS_SUMMARY (R388). -/
def execTraceLossSummary (t b : Nat) (s : State) : Res :=
  onUnit (decide (t < s.part.tiles) && decide (b < 14)) (traceSummary s t b)

/-- SMBUS_BLOCK_READ (R429). -/
def execSmbusBlockRead (cmd : BitVec 8) (s : State) : Res := .next (smbusRead s cmd)

end Sys2Proof.Machine
end

