-- ==== Sys2Proof/Machine/PageRegs.lean ====
section
/-! DEFINITION. The registers of an instance page (04, R73): the event window (R329), the control region (R308), the doorbells, the queue
status, the vectors and their PBA. -/

namespace Sys2Proof.Machine

open Sys2Proof

/-! ## Words under write masks and vector entries -/

/-- The bits [15:0] a write to a WM register changes (R80): selected by an enabled mask bit, in an enabled byte. -/
def wmBits (be : BitVec 4) (v : Word) : Word := beMask be &&& ((v &&& beMask be) >>> 16) &&& 0xFFFF#32

/-- A WM register's word after a write, before clamping. -/
def wmMerge (old : Word) (be : BitVec 4) (v : Word) : Word := (old &&& ~~~(wmBits be v)) ||| (v &&& wmBits be v)

/-- A word of a vector entry. -/
def Vec.word (x : Vec) (k : Nat) : Word :=
  match k with
  | 0 => x.lo
  | 1 => x.hi
  | 2 => x.data
  | _ => x.ctl

/-- A vector entry after a write of one word: the address is a multiple of 4, and the control word holds the Mask bit alone
(PRESUMED from PCI Express, log entry 20). -/
def Vec.write (x : Vec) (k : Nat) (be : BitVec 4) (v : Word) : Vec :=
  match k with
  | 0 => { x with lo := mergeBytes x.lo be v &&& 0xFFFFFFFC#32 }
  | 1 => { x with hi := mergeBytes x.hi be v }
  | 2 => { x with data := mergeBytes x.data be v }
  | _ => { x with ctl := mergeBytes x.ctl be v &&& 1#32 }

/-! ## The event window of a page (R329) -/

/-- The tile source that index `j` of an instance's window presents; `none` for a slot beyond what it holds. -/
def instSrc (s : State) (i j : Nat) : Option Nat :=
  let r := instOf s i
  if j < 256 then (if j < r.qCount then some (r.qBase + j) else none)
  else if j < 262 then some (16384 + 8 * (i % 512) + (j - 256)) else none

/-- The index by which an instance's window presents a tile source. -/
def instIdx (s : State) (i src : Nat) : Nat :=
  let r := instOf s i
  if 16384 ≤ src then 256 + src % 8 else src - r.qBase

/-- The sources of a word of the window, each with its bit. -/
def winSrcs (s : State) (i w : Nat) : List (Nat × Nat) :=
  (List.range 32).filterMap (fun b => (instSrc s i (32 * w + b)).map (fun src => (b, src)))

/-- A word of bits of the window's sources. -/
def winPack (s : State) (i w : Nat) (f : Nat → Bool) : Word :=
  word (((winSrcs s i w).map (fun x => b2n (f x.2) * 2 ^ x.1)).sum)

/-- A read of the event window, with its side effects. -/
def evWinRead (s : State) (i o : Nat) : Word × State :=
  let t := homeTile i
  let r := instOf s i
  if o < 0x24 then
    (winPack s i (o / 4) (pendBit s t),
     (winSrcs s i (o / 4)).foldl (fun s x => { s with evc := { s.evc with arrived := Tbl.del s.evc.arrived (t * 32768 + x.2) } }) s)
  else if 0x40 ≤ o ∧ o < 0x64 then (winPack s i ((o - 0x40) / 4) (maskBit s t), s)
  else if 0x80 ≤ o ∧ o < 0xA4 then (winPack s i ((o - 0x80) / 4) (lostBit s t), s)
  else if 0x200 ≤ o ∧ o < 0x620 then
    match instSrc s i ((o - 0x200) / 4) with
    | some src =>
      let x := gf s t (evcSrc src) 0 11
      (if r.etBase ≤ x ∧ x < r.etBase + r.etCount then word (x - r.etBase) else 127, s)
    | none => (0, s)
  else if 0x800 ≤ o ∧ o < 0x800 + 16 * r.etCount then
    let x := r.etBase + (o - 0x800) / 16
    match o % 16 / 4 with
    | 0 => (rreg s t (tgtReg x 0) &&& 0x00F007FF#32, s)
    | 1 => (rreg s t (tgtReg x 4), s)
    | 2 => (0, s)
    | _ => (if gf s t (tgtReg x 4) 24 8 = 0 ∧ gf s t (tgtReg x 0xC) 0 15 = 0 then 0 else word (instIdx s i (gf s t (tgtReg x 0xC) 0 15)), s)
  else (0, s)

/-- A write of a target's configuration through the window: THRESHOLD and VECTOR alone, a VECTOR at or above VCOUNT left. -/
def winTgtWrite (s : State) (i x : Nat) (be : BitVec 4) (v : Word) : State :=
  let t := homeTile i
  if tgtLocked s t x then s
  else
    let m := mergeBytes (rreg s t (tgtReg x 0)) be v
    let s := sf s t (tgtReg x 0) 20 4 (fld m 20 4)
    evcRefresh (if (instOf s i).vCount ≤ fld m 0 11 then s else sf s t (tgtReg x 0) 0 11 (fld m 0 11)) t

/-- A write of a source's ROUTE through the window. -/
def winRouteWrite (s : State) (i src : Nat) (v : Nat) : State :=
  let r := instOf s i
  if 64 ≤ v then routeWrite s (homeTile i) src 2047
  else if v < r.etCount then routeWrite s (homeTile i) src (r.etBase + v) else s

/-- A write of the event window; `none` for a slot beyond what the instance holds, or a reserved one. -/
def evWinWrite (s : State) (i o : Nat) (be : BitVec 4) (v : Word) : Option State :=
  let t := homeTile i
  let r := instOf s i
  let each (w : Nat) (k : State → Nat → Nat → State) : Option State :=
    if (winSrcs s i w).isEmpty then none
    else some (evcRefresh ((winSrcs s i w).foldl (fun s x => if enabledBit be x.1 then k s x.1 x.2 else s) s) t)
  if o < 0x24 then each (o / 4) (fun s b src => pendWriteBit s t src (bit v b))
  else if 0x40 ≤ o ∧ o < 0x64 then
    each ((o - 0x40) / 4) (fun s b src => if srcLocked s t src then s else sf s t (0x7001000 + 4 * (src / 32)) (src % 32) 1 (fld v b 1))
  else if 0x80 ≤ o ∧ o < 0xA4 then
    each ((o - 0x80) / 4) (fun s b src =>
      if bit v b && !srcLocked s t src then sf s t (0x7002000 + 4 * (src / 32)) (src % 32) 1 0 else s)
  else if 0x200 ≤ o ∧ o < 0x620 then
    (instSrc s i ((o - 0x200) / 4)).map (fun src => if be.getLsbD 0 then winRouteWrite s i src (fld v 0 7) else s)
  else if 0x800 ≤ o ∧ o < 0x800 + 16 * r.etCount then
    let x := r.etBase + (o - 0x800) / 16
    match o % 16 / 4 with
    | 0 => some (winTgtWrite s i x be v)
    | 2 => some (if tgtLocked s t x then s else targetDone s t x (bit (v &&& beMask be) 8) (fld (v &&& beMask be) 0 8))
    | _ => some s
  else none

/-! ## The control region of a page (R308) -/

/-- A read of the control region. -/
def ctlRead (s : State) (i o : Nat) : Word :=
  let r := instOf s i
  let l := logOf s i
  let st := match r.state with
    | .free => 0
    | .unbound => 1
    | .bound => 2
  match o with
  | 0x00 => word (st * 2 ^ 28 + b2n r.frozen * 2 ^ 27 + b2n r.halted * 2 ^ 26 + b2n r.resetting * 2 ^ 25 +
      b2n (r.frozen && r.handover) * 2 ^ 24 + r.gen * 2 ^ 16 + i % 4096)
  | 0x04 => word (r.qCount * 2 ^ 16 + r.vCount)
  | 0x08 => word (r.wCount * 2 ^ 16 + r.etCount)
  | 0x0C => word r.wttCount
  | 0x10 => word (r.hseq * 2 ^ 16 + r.toLink * 2 ^ 8 + r.fromLink)
  | 0x14 => word (b2n r.released)
  | 0x18 => r.events
  | 0x1C => r.halt
  | 0x100 => l.ringLo
  | 0x104 => l.ringHi
  | 0x108 => l.cfg
  | 0x10C => word l.head
  | 0x110 => l.state
  | 0x118 => l.clearTail
  | _ => 0

/-- A write of LOG_CFG (R308): LOG2 only while EN is 0; EN starts or ends the log. -/
def logCfgWrite (s : State) (i : Nat) (be : BitVec 4) (v : Word) : State :=
  let l := logOf s i
  let w := wmMerge l.cfg be v
  let s := if bit l.cfg 0 then s else setLog s i { l with cfg := setFld l.cfg 8 5 (clamp 4 20 (fld w 8 5)) }
  if bit w 0 = bit l.cfg 0 then s else if bit w 0 then logEnable s i else logEnd s i

/-- A write of the control region; `none` for a reserved offset. -/
def ctlWrite (s : State) (i o : Nat) (be : BitVec 4) (v : Word) : Option State :=
  let r := instOf s i
  let l := logOf s i
  if o ≤ 0x10 then some s
  else match o with
  | 0x14 => some (if bit (wmBits be v) 0 && bit v 0 then releaseInst s i else s)
  | 0x18 => some (evcRefresh (setInst s i { r with events := r.events &&& ~~~(v &&& beMask be) }) (homeTile i))
  | 0x1C => some s
  | 0x100 => some (if bit l.cfg 0 then s else setLog s i { l with ringLo := mergeBytes l.ringLo be v &&& 0xFFFFFFC0#32 })
  | 0x104 => some (if bit l.cfg 0 then s else setLog s i { l with ringHi := mergeBytes l.ringHi be v })
  | 0x108 => some (logCfgWrite s i be v)
  | 0x10C =>
    let x := fld (mergeBytes (word l.head) be v) 0 20
    some (if l.size ≤ x then s else setLog s i { l with head := x })
  | 0x110 => some s
  | 0x114 => some (if be.getLsbD 0 && bit v 0 then logCmdClear s i else s)
  | 0x118 => some s
  | _ => none

/-! ## The instance page (R73) -/

/-- A DW read of the page. -/
def pageRead (s : State) (i o : Nat) : Word × State :=
  let r := instOf s i
  let t := homeTile i
  if o < 0x4000 then (0, s)
  else if o < 0x8000 then
    let q := (o - 0x4000) / 64
    (if q < r.qCount then qw s t (r.qBase + q) (o % 64 / 4) else 0, s)
  else if o < 0xA000 then (ctlRead s i (o - 0x8000), s)
  else if o < 0xC000 then evWinRead s i (o - 0xA000)
  else if o < 0xC100 then
    (packBits (fun b => let v := (o - 0xC000) * 8 + b; decide (v < r.vCount) && (Tbl.find? s.host.pba (i * 2048 + v)).isSome), s)
  else if 0x10000 ≤ o ∧ o < 0x10000 + 16 * r.vCount then ((vecOf s i ((o - 0x10000) / 16)).word (o % 16 / 4), s)
  else (0, s)

/-- A write of a vector entry (R105, R106): a pending message is tried again, should its mask have cleared. -/
def vecWrite (s : State) (i v k : Nat) (be : BitVec 4) (x : Word) : State :=
  let e := (vecOf s i v).write k be x
  let s := { s with host := { s.host with vecs := Tbl.set {} s.host.vecs (homeTile i * 65536 + (instOf s i).vBase + v) e } }
  if (Tbl.find? s.host.pba (i * 2048 + v)).isSome then retryVec s i v else s

/-- A DW write of the page; `none` for a slot beyond what the instance holds, or a reserved one. -/
def pageWrite (s : State) (i o : Nat) (be : BitVec 4) (v : Word) : Option State :=
  let r := instOf s i
  let t := homeTile i
  if o < 0x4000 then (if o / 64 < r.qCount then some (doorbell s i t (r.qBase + o / 64) (o % 64) be v) else none)
  else if o < 0x8000 then
    let q := (o - 0x4000) / 64
    if q < r.qCount then some (qctxDriverWrite s t (r.qBase + q) (o % 64 / 4) be v) else none
  else if o < 0xA000 then ctlWrite s i (o - 0x8000) be v
  else if o < 0xC000 then evWinWrite s i (o - 0xA000) be v
  else if o < 0xC100 then (if (o - 0xC000) * 8 < r.vCount then some s else none)
  else if 0x10000 ≤ o ∧ o < 0x10000 + 16 * r.vCount then some (vecWrite s i ((o - 0x10000) / 16) (o % 16 / 4) be v)
  else none

/-- The clock domain of an offset of the instance page (R432). -/
def pageDomain (o : Nat) : Nat := if o < 0x8000 then 17 else if o < 0xA000 then 1 else if o < 0xC000 then 19 else 2

end Sys2Proof.Machine
end

