-- ==== Sys2Proof/Machine/BusWrite.lean ====
section
/-! DEFINITION. Writes on a tile's register bus (04): field types and clamping (R79, R80, R87), what a write to each register
starts, mailboxes (R83, R84), indirect pairs (R86), voted registers (R81) and the crossing queues (R88). -/

namespace Sys2Proof.Machine

open Sys2Proof

/-! ## Field types -/

/-- A register's word after a write, each field under its own type (R79, R80, R87). -/
def regMerge (r : Row) (old : Word) (be : BitVec 4) (v : Word) : Word :=
  let m := if r.wm then wmMerge old be v else mergeBytes old be v
  let w := r.fields.foldl (fun w f => setFld w f.lo f.n (clamp f.least f.most (fld m f.lo f.n))) old
  w &&& ~~~(v &&& beMask be &&& word r.w1c)

/-- The write of a register under its row alone; all three copies of a voted register are stored (R81). -/
def plainWrite (s : State) (t off : Nat) (be : BitVec 4) (v : Word) : State :=
  match findRow off with
  | none => s
  | some r =>
    let s := { wreg s t off (regMerge r (rreg s t off) be v) with bus := { s.bus with tv := Tbl.del s.bus.tv (key t off) } }
    if r.w1c = 0 then s else evcRefresh s t

/-! ## The manager function's MSI-X table (R107) -/

/-- Whether a tile carries the manager function's link. -/
def mgrTile (s : State) (t : Nat) : Bool := (managerLink s).any (fun h => linkTile h == t)

/-- Whether an offset lies in the manager function's table or PBA. -/
def inMgrTable (s : State) (t off : Nat) : Bool :=
  mgrTile s t && ((decide (0x100000 ≤ off) && decide (off < 0x100400)) || off == 0x101000 || off == 0x101004)

/-- A word of the table or PBA. -/
def mgrTableRead (s : State) (off : Nat) : Word :=
  if off < 0x101000 then (Tbl.get {} s.host.mgrVecs ((off - 0x100000) / 16)).word (off / 4 % 4)
  else packBits (fun b => (Tbl.find? s.host.mgrPba ((off - 0x101000) * 8 + b)).isSome)

/-- A write of the table: a pending message is tried again, should its mask have cleared (R106). -/
def mgrTableWrite (s : State) (off : Nat) (be : BitVec 4) (v : Word) : State :=
  if 0x101000 ≤ off then s
  else
    let n := (off - 0x100000) / 16
    let x := (Tbl.get {} s.host.mgrVecs n).write (off / 4 % 4) be v
    let s := { s with host := { s.host with mgrVecs := Tbl.set {} s.host.mgrVecs n x } }
    if (Tbl.find? s.host.mgrPba n).isSome then retryVec s managerInst n else s

/-! ## What a write starts, by block -/

/-- A KEY field's byte enabled and holding the key (R87). -/
def keyed (be : BitVec 4) (v : Word) (k : Nat) : Bool := be.getLsbD 3 && fld v 24 8 == k

/-- A write of GLB_TEST_CTRL (R64, R87): outside TEST ignored; while RUNNING, only TEST written as 0 acts. The outcome of a
test it stops is open (log entry 7). -/
def testWrite (s : State) (t : Nat) (be : BitVec 4) (v : Word) : State :=
  if mode s t ≠ 5 then s
  else if gf s t 0x124 0 1 = 1 then
    if be.getLsbD 0 ∧ fld v 0 4 = 0 then
      testStop (tickFresh s) t ((Config.freeWord s.fresh).toNat % 65536) (BitVec.ofNat 8 ((Config.freeWord s.fresh).toNat / 65536))
    else s
  else
    let s := plainWrite s t 0x120 be v
    let code := fld v 0 4
    if be.getLsbD 0 ∧ 1 ≤ code ∧ code ≤ 4 then testStart s t code (BitVec.ofNat 8 (gf s t 0x120 8 8)) else s

/-- GLB (R54, R64). -/
def glbWrite (s : State) (t off : Nat) (be : BitVec 4) (v : Word) : State :=
  match off with
  | 0x108 =>
    if keyed be v 0x4D = false then stf s t 0x10C 8 8
    else
      let s := plainWrite s t off be v
      if be.getLsbD 0 = false then s
      else match fld v 0 4 with
        | 1 => modeCmd s t .service
        | 2 => modeCmd s t .recovery
        | 3 => modeCmd s t .test
        | _ => s
  | 0x110 =>
    if keyed be v 0x54 = false then stf s t 0x10C 8 8
    else
      let s := plainWrite s t off be v
      if be.getLsbD 0 then tileReset s t (BitVec.ofNat 8 (fld v 0 8)) else s
  | 0x120 => testWrite s t be v
  | _ => plainWrite s t off be v

/-- HPT_LINK_CTRL of host link `h` (R92, R93, R116, R117). -/
def linkCtrlWrite (s : State) (h : Nat) (be : BitVec 4) (v : Word) : State :=
  let m := wmBits be v
  let w := wmMerge (rreg s (h / 4) (hpt (h % 4) 4)) be v
  let s := if fld m 8 3 = 0 then s else writeRateCap s h (fld w 8 3)
  let s := if fld m 4 3 = 0 then s else writeNarrow s h (fld w 4 3)
  let s := if bit m 3 && bit v 3 then wakeOn s h else s
  if bit m 2 && bit v 2 then writeRetrain s h else s

/-- HPT (R117). -/
def hptWrite (s : State) (t off : Nat) (be : BitVec 4) (v : Word) : State :=
  let o := off % 0x1000000
  let h := 4 * t + o / 0x100
  if o < 0x400 ∧ o % 0x100 = 4 then linkCtrlWrite s h be v
  else if o < 0x400 ∧ o % 0x100 = 0x1C then writeLtr s h (mergeBytes (rreg s t off) be v)
  else plainWrite s t off be v

/-- A link held down by DISABLE is let go (R125, R139). -/
def enableLink (s : State) (t n : Nat) : State :=
  if linkState s t n = 0 ∧ 1 ≤ mode s t ∧ (8 ≤ n ∨ 2 ≤ mode s t ∧ (tileSt s t).fenced = false ∧ (tileSt s t).resetting = false) then
    setLinkState s t n 1
  else s

/-- LNK_PHY_CTRL (R132, R137, R139): the targets take the highest the slot supports at most; DISABLE, then DOWN, then
CHANGE act. -/
def phyCtrlWrite (s : State) (t n : Nat) (be : BitVec 4) (v : Word) : State :=
  let m := wmBits be v
  let w := wmMerge (rreg s t (lnk n 4)) be v
  let s :=
    if 8 ≤ n then s
    else
      let s := sf s t (lnk n 4) 10 2 (clamp 1 (Nat.max 1 (ownRate s t n)) (fld w 10 2))
      sf (sf s t (lnk n 4) 8 2 (clamp 1 (ownWidth s t n) (fld w 8 2))) t (lnk n 4) 3 1 (fld w 3 1)
  let s :=
    if bit m 2 = false then s
    else if bit v 2 then disableLink s t n
    else if gf s t (lnk n 4) 2 1 = 1 then enableLink (sf s t (lnk n 4) 2 1 0) t n else s
  let s := if bit m 1 && bit v 1 then commandDown s t n false else s
  if bit m 0 && bit v 0 then writeChange s t n else s

/-- LNK (R139, R161, R183). -/
def lnkWrite (s : State) (t off : Nat) (be : BitVec 4) (v : Word) : State :=
  let o := off % 0x1000000
  let n := o / 0x100
  if o < 0xB00 ∧ o % 0x100 = 4 then phyCtrlWrite s t n be v
  else if o < 0xB00 ∧ o % 0x100 = 0x54 then
    let s := plainWrite s t off be v
    sf s t off 0 14 (Nat.min (poolMax s t n) (gf s t off 0 14))
  else plainWrite s t off be v

/-- WTT (R221, R223): WTT_CMD's stored code is never taken as a new command. -/
def wttWrite (s : State) (t off : Nat) (be : BitVec 4) (v : Word) : State :=
  if off = 0x4000000 then
    if gf s t off 31 1 = 1 then s
    else
      let s := plainWrite s t off be v
      if be.getLsbD 3 then wttCmd s t (fld v 24 4) (gf s t off 0 12) else s
  else plainWrite s t off be v

/-- EVC (R313, R315, R320, R328). -/
def evcWrite (s : State) (t off : Nat) (be : BitVec 4) (v : Word) : State :=
  let o := off % 0x1000000
  if o < 0x1000 then pendWrite s t (o / 4) be v
  else if o < 0x2000 then maskWrite s t ((o - 0x1000) / 4) be v
  else if o < 0x3000 then lostWrite s t ((o - 0x2000) / 4) be v
  else if o < 0x40000 then routeWrite s t ((o - 0x20000) / 4) (fld (mergeBytes (rreg s t off) be v) 0 11)
  else if o < 0x44000 then
    let x := (o - 0x40000) / 16
    if o % 16 = 0 then tgtCfgWrite s t x be v
    else if o % 16 = 8 then
      (if tgtLocked s t x then s else targetDone s t x (bit (v &&& beMask be) 8) (fld (v &&& beMask be) 0 8))
    else s
  else plainWrite s t off be v

/-- FLT (R334, R345, R348, R349). -/
def fltWrite (s : State) (t off : Nat) (be : BitVec 4) (v : Word) : State :=
  let o := off % 0x1000000
  if o < 0xE00 ∧ o % 0x100 = 0 then faultAck s t (o / 0x100) (v &&& beMask be)
  else if o = 0x1004 then
    if keyed be v 0x44 ∧ be.getLsbD 0 ∧ 1 ≤ fld v 0 2 ∧ fld v 0 2 ≤ 2 then dumpFree s (fld v 0 2 - 1) else s
  else if o = 0x100C then s
  else plainWrite s t off be v

/-- CAL and AGE (R360, R364, R367). -/
def calWrite (s : State) (t off : Nat) (be : BitVec 4) (v : Word) : State :=
  match off with
  | 0x9000080 =>
    let m := wmBits be v
    let s := if bit m 1 then sf s t off 1 1 (fld v 1 1) else s
    if bit m 0 && bit v 0 && t == 0 then planNow s [] else s
  | 0x9000094 =>
    if keyed be v 0x57 = false then s
    else
      let scope := if be.getLsbD 0 then fld v 0 8 else gf s t off 0 8
      if be.getLsbD 1 then maintWrite s t (fld v 8 8) scope else sf s t off 0 8 scope
  | _ => plainWrite s t off be v

/-- STR (R47, R48). -/
def strWrite (s : State) (t off : Nat) (be : BitVec 4) (v : Word) : State :=
  match off with
  | 0xA000004 => if be.getLsbD 0 then strCmd s (fld v 0 3) else s
  | 0xA000024 => imgWrite s be v
  | 0xA00002C => s
  | _ => plainWrite s t off be v

/-! ## Mailboxes (R83, R84) -/

/-- The command an OP starts in a mailbox; `none` for a code the mailbox does not use, which is none. -/
def mbStart (s : State) (t mb op : Nat) : Option State :=
  if mb = 0x3000400 then
    match op with
    | 1 => some (swcCntRead s t)
    | 2 => some (swcCntWrite s t)
    | _ => none
  else if mb = winMb then
    match op with
    | 1 => some (winRead s t)
    | 2 => some (winWrite s t)
    | _ => none
  else if mb / 0x1000000 = 4 then
    let m := (mb - 0x4000200) / 0x80
    match op with
    | 1 => some (entRead s t m)
    | 2 => some (entWrite s t m)
    | 3 => some (entFill s t m)
    | _ => none
  else if mb = qctxMb then
    match op with
    | 1 => some (qctxRead s t)
    | 2 => some (qctxWrite s t)
    | 3 => some (qctxShare s t)
    | 4 => some (qctxCmd s t)
    | _ => none
  else if mb = 0x5000300 then
    match op with
    | 1 => some (dmaCntRead s t)
    | 2 => some (dmaCntWrite s t)
    | _ => none
  else if mb / 0x1000000 = 6 then
    let m := (mb - 0x6000100) / 0x80
    match op with
    | 1 => some (instRead s t m)
    | 2 => some (instWrite s t m)
    | 3 => some (create s t m)
    | 4 => some (remove s t m)
    | 5 => some (bindInst s t m)
    | 6 => some (unbindCmd s t m)
    | 7 => some (freezeCmd s t m)
    | 8 => some (resumeCmd s t m)
    | 9 => some (resetCmd s t m)
    | 10 => some (setWeightCmd s t m)
    | 11 => some (logClearCmd s t m)
    | _ => none
  else if mb = tsMb then
    match op with
    | 1 => some (tsRead s)
    | 2 => some (tsWrite s)
    | 3 => some (tsSlew s)
    | _ => none
  else if mb / 0x1000000 = 0xB then
    let m := (mb - 0xB000100) / 0x80
    if op = 0 then none
    else if 3 ≤ op ∧ op ≤ 8 then some (rmtStart s m op)
    else some (mbCmd s 0 mb op (fun s => mbEnd (sf s 0 (rmtDest m) 24 8 0) 0 mb refusedMb))
  else
    match op with
    | 1 => some (alarmRead s t)
    | 2 => some (alarmWrite s t)
    | 3 => some (alarmAck s t)
    | _ => none

/-- A write of MB_CTRL: while BUSY ignored; an OP that is none is only stored (R83, R84). -/
def mbCtrlWrite (s : State) (t mb : Nat) (be : BitVec 4) (v : Word) : State :=
  if be.getLsbD 3 = false ∨ gf s t mb 30 1 = 1 then s
  else match mbStart s t mb (fld v 24 4) with
    | some s' => s'
    | none => sf s t mb 24 4 (fld v 24 4)

/-- A write of MB_INDEX (R84). -/
def mbIndexWrite (s : State) (t mb : Nat) (be : BitVec 4) (v : Word) : State :=
  if gf s t mb 30 1 = 1 then s else wreg s t (mb + 4) (mergeBytes (rreg s t (mb + 4)) be v)

/-- A write of MB_DATA{k}: while BUSY ignored; else VALID clears (R84). -/
def mbDataPut (s : State) (t mb k : Nat) (be : BitVec 4) (v : Word) : State :=
  if gf s t mb 30 1 = 1 then s
  else wreg (sf s t mb 31 1 0) t (mb + 0x10 + 4 * k) (mergeBytes (mbData s t mb k) be v)

/-! ## The register bus -/

/-- Whether control space answers at an offset of a tile: in the recovery shape and under the fatal latch, only GLB, STR,
FLT and TRC of tile 0 (R46, R72, R377). -/
def regOpen (s : State) (t off : Nat) : Bool :=
  let b := off / 0x1000000
  !(recoveryShape s || gf s 0 0x118 0 1 == 1) || (t == 0 && (b == 0 || b == 8 || b == 10 || b == 13))

/-- Whether a register lies at an offset of a tile's control space. -/
def regThere (s : State) (t off : Nat) : Bool := (findRow off).isSome || inMgrTable s t off

/-- The block's own effect of a write, apart from mailboxes and indirect data. -/
def blockWrite (s : State) (t off : Nat) (be : BitVec 4) (v : Word) : State :=
  match off / 0x1000000 with
  | 0 => glbWrite s t off be v
  | 1 => hptWrite s t off be v
  | 2 => lnkWrite s t off be v
  | 4 => wttWrite s t off be v
  | 7 => evcWrite s t off be v
  | 8 => fltWrite s t off be v
  | 9 => calWrite s t off be v
  | 10 => strWrite s t off be v
  | 12 => if off = 0xC000020 then chargeWrite s be v else plainWrite s t off be v
  | _ => plainWrite s t off be v

/-- The crossing queue of a tile into a domain (R88). -/
abbrev xqKey (t dom : Nat) : Nat := t * 32 + dom

/-- Posts a write into a domain, behind those posted there before (R88). -/
def post (s : State) (t dom : Nat) (p : Posted) : State :=
  { s with bus := { s.bus with xq := Tbl.app s.bus.xq (xqKey t dom) [p] } }

/-- A write to the data register of an IND pair (R86): CAL_TRIM is the one target register that takes it, in the calendar's domain
(R432); the address advances. SerDes registers are open: log entry 23. -/
def indWrite (s : State) (t off : Nat) (be : BitVec 4) (v : Word) : State :=
  let a := rreg s t (off - 4)
  let s := if off = 0xE000044 ∧ t = 0 ∧ a.toNat = 4 then post s t 22 (.trim be v) else s
  wreg s t (off - 4) (a + 4)

/-- A write takes effect in its own domain. -/
def busEffect (s : State) (t off : Nat) (be : BitVec 4) (v : Word) : State :=
  if absentReg s t off then s
  else if inMgrTable s t off then mgrTableWrite s off be v
  else if off / 0x1000000 = 14 ∧ off % 16 = 4 then indWrite s t off be v
  else match mbDataAt off, mbAt off with
    | some (mb, k), _ => mbDataPut s t mb k be v
    | none, some mb => if off = mb then mbCtrlWrite s t mb be v else mbIndexWrite s t mb be v
    | none, none => blockWrite s t off be v

/-- A write reaches a tile's register bus (R72, R88): one to a reserved address is counted; one into domain 21 acts at once,
any other is posted. -/
def busWrite (s : State) (t off : Nat) (be : BitVec 4) (v : Word) : State :=
  if regOpen s t off = false then s
  else if regThere s t off = false then reservedWrite s t (off + firstByte be)
  else
    let dom := blockDomain (off / 0x1000000)
    if dom = 21 then busEffect s t off be v
    else post s t dom (.reg off be v)

/-- A posted write takes effect in its domain; a slot of the page that the instance no longer holds is a reserved one. -/
def postedEffect (s : State) (t : Nat) (p : Posted) : State :=
  match p with
  | .reg off be v => busEffect s t off be v
  | .page i o be v => (pageWrite s i o be v).getD s
  | .door i q ens bytes => doorbell64 s i t q ens bytes
  | .localWin off u n v => localWrite s t off u n v
  | .trim be v => writeTrim s (signed 22 (fld (mergeBytes (trimWord s) be v) 0 22))

/-- The posted write at the head of a crossing queue takes effect. -/
def crossHead (s : State) (t dom : Nat) : State :=
  match Tbl.get [] s.bus.xq (xqKey t dom) with
  | [] => s
  | p :: rest => postedEffect { s with bus := { s.bus with xq := Tbl.set [] s.bus.xq (xqKey t dom) rest } } t p

/-- Every write posted into a domain takes effect, as before a read of the same domain (R88). -/
def crossAll (s : State) (t dom : Nat) : State :=
  (Tbl.get [] s.bus.xq (xqKey t dom)).foldl (fun s _ => crossHead s t dom) s

/-! ## Meanings -/

/-- An offset within a tile's control space, DW-aligned (R72, R74). -/
abbrev dwOff (off : Nat) : Nat := off / 4 * 4

/-- Whether a tile and an offset within its control space are ones the part has. -/
def regOk (s : State) (t off : Nat) : Bool := decide (t < s.part.tiles) && decide (off < 0x10000000)

/-- A tile's register bus meets no access while the tile is off; a closed port discards a write and counts it (R20, R52),
but in the recovery shape control space answers as R46 says. -/
def busReach (s : State) (t : Nat) (k : State) : State :=
  if mode s t = 0 then s else if portsClosed s t && !recoveryShape s then discDown s t 10 else k

/-- REGISTER_WRITE (R72, R79, R80, R87, R88). -/
def execRegisterWrite (t off : Nat) (be : BitVec 4) (v : Word) (s : State) : Res :=
  onUnit (regOk s t off) (busReach s t (busWrite s t (dwOff off) be v))

/-- RESERVED_ADDRESS_WRITE (R72): an offset that holds a register is none. -/
def execReservedAddressWrite (t off : Nat) (be : BitVec 4) (v : Word) (s : State) : Res :=
  onUnit (regOk s t off) (if regThere s t (dwOff off) then s else busReach s t (busWrite s t (dwOff off) be v))

/-- CROSSING_WRITE_TAKES_EFFECT (R88). -/
def execCrossingWriteTakesEffect (t dom : Nat) (s : State) : Res := onTile s t (if dom = 21 then crossHead s t dom else unfenced s t (crossHead s t dom))

/-- MB_DATA_WRITE (R84): data word `k` of the mailbox at `mb`, behind the writes posted into its block's domain. -/
def execMbDataWrite (t mb k : Nat) (be : BitVec 4) (v : Word) (s : State) : Res :=
  onUnit (decide (t < s.part.tiles) && mbWord mb k)
    (busReach s t (busWrite s t (mb + 0x10 + 4 * k) be v))

end Sys2Proof.Machine
end

