-- ==== Sys2Proof/Machine/BusRead.lean ====
section
/-! DEFINITION. Reads on a tile's register bus (04): voted registers (R81), indirect pairs (R86), pending words (R313), and
confirm-by-read (R88). -/

namespace Sys2Proof.Machine

open Sys2Proof

/-! ## Voted registers (R81, R82) -/

/-- A vote that finds one copy differing rewrites it and counts it (R77, R81). -/
def tvCorrect (s : State) (t off : Nat) (v : Word) : State :=
  let s := { wreg s t off v with bus := { s.bus with tv := Tbl.del s.bus.tv (key t off) } }
  wreg (cf s t 0x20C 16 16) t 0x210 (word off)

/-- The vote of a register's three copies: copy 0 in the register file, copies 1 and 2 listed where they differ from it. -/
def tvVote (s : State) (t off : Nat) : Word × State :=
  let a := rreg s t off
  match Tbl.find? s.bus.tv (key t off) with
  | none => (a, s)
  | some (b, c) =>
    if a = b ∧ a = c then (a, { s with bus := { s.bus with tv := Tbl.del s.bus.tv (key t off) } })
    else if a = b ∨ a = c then (a, tvCorrect s t off a)
    else if b = c then (b, tvCorrect s t off b)
    else (a, recordFault (cf s t 0x20C 0 16) t (off / 0x1000000) 0 none off)

/-- Whether a register is a voted one. -/
def isTv (off : Nat) : Bool := (findRow off).any Row.tv

/-- The voted registers of a tile (R82). -/
def tvRegs (s : State) (t : Nat) : List Nat :=
  ((List.range 15).flatMap (fun b => ((blockRows b).filter Row.tv).flatMap (fun r =>
    (List.range r.count).map (fun k => b * 0x1000000 + r.base + r.stride * k)))).filter (fun off => !absentReg s t off)

/-- The scrubber's round (R81). -/
def tvScrub (s : State) (t : Nat) : State := (tvRegs s t).foldl (fun s off => (tvVote s t off).2) s

/-! ## Indirect data (R86) -/

/-- The register behind an IND pair at an address. What a SerDes shows is open: log entry 23. -/
def indTarget (s : State) (t pair a : Nat) : Word :=
  match pair with
  | 0 => Config.serdesWord (t * 8) a s.fresh
  | 1 => Config.serdesWord (t * 8 + 1) a s.fresh
  | 2 => Config.serdesWord (t * 8 + 2) a s.fresh
  | 3 => if a < 0x100 then canaryNow s t (a / 4) else if a < 0x200 then Tbl.get 0 s.age.base (t * 64 + (a - 0x100) / 4) else 0
  | 4 => if t ≠ 0 then 0 else if a = 0 then calStatus s else if a = 4 then trimWord s else 0
  | _ => if a < 0x200000 then wordOf (mramRead s t a 4) else 0

/-- A read of an indirect data register: the target's word at the address, which then advances. -/
def ixRead (s : State) (t off : Nat) : Word × State :=
  let a := rreg s t (off - 4)
  match off with
  | 0xA000024 => (if a.toNat < slotBytes then wordOf (mramRead s (1 - activeSlot s) a.toNat 4) else 0, wreg s t (off - 4) (a + 4))
  | 0xA00002C => (wordOf (bytesAt s.str.report.flatten a.toNat 4), wreg s t (off - 4) (a + 4))
  | 0x800100C => (wordOf (flashRead s (0x2000000 + a.toNat) 4), wreg s t (off - 4) (word ((a.toNat + 4) % 0x4000000)))
  | _ => (indTarget s t (off % 0x100 / 16) a.toNat, wreg (tickFresh s) t (off - 4) (a + 4))

/-! ## The register bus -/

/-- Whether an offset is an LTP_HELD, whose HIGH_WATER a read begins afresh (R183). -/
def heldReg (off : Nat) : Bool := 0x2001000 ≤ off && off < 0x2001200 && off % 0x40 == 4

/-- A read of a register with its side effects. -/
def busRead (s : State) (t off : Nat) : Word × State :=
  if regOpen s t off = false ∨ absentReg s t off then (0, s)
  else if inMgrTable s t off then (mgrTableRead s off, s)
  else if (findRow off).isNone then (0, s)
  else if isTv off then tvVote s t off
  else if isIxData off then ixRead s t off
  else if 0x7000000 ≤ off ∧ off < 0x7001000 then (pendWord s t ((off - 0x7000000) / 4), pendRead s t ((off - 0x7000000) / 4))
  else if heldReg off then (viewReg s t off, sf s t off 16 7 (fld (viewReg s t off) 0 7))
  else (viewReg s t off, s)

/-- A read that reaches a tile's register bus: the writes posted before it into its domain take effect first (R88), through an IND pair those into its target's domain (R432). -/
def busReadNow (s : State) (t off : Nat) : Word × State :=
  let s := crossAll s t (blockDomain (off / 0x1000000))
  busRead (if off = 0xE000044 then crossAll s t 22 else s) t off

/-- A register-bus read answered. -/
def readAnswer (s : State) (t off : Nat) : State :=
  let r := busReadNow s t off
  emit r.2 (.read t off r.1)

/-- A read reaches a tile's register bus only while its ports are open (R20, R52), but in the recovery shape (R46). -/
def busOpen (s : State) (t : Nat) (k : State) : State :=
  if mode s t = 0 ∨ (portsClosed s t ∧ recoveryShape s = false) then s else k

/-! ## Meanings -/

/-- TV_REGISTER_READ (R81): a register of three copies; any other offset is none. -/
def execTvRegisterRead (t off : Nat) (s : State) : Res :=
  onUnit (regOk s t off) (if isTv off then busOpen s t (readAnswer s t off) else s)

/-- TV_SCRUB (R81). -/
def execTvScrub (t : Nat) (s : State) : Res := onTile s t (if mode s t = 0 then s else tvScrub s t)

/-- INDIRECT_DATA_ACCESS (R86): an access to an indirect data register; any other offset is none. -/
def execIndirectDataAccess (t off : Nat) (wr : Option (BitVec 4 × Word)) (s : State) : Res :=
  onUnit (regOk s t off)
    (if isIxData off = false then s
    else match wr with
      | none => busOpen s t (readAnswer s t off)
      | some (be, v) => busReach s t (crossAll (busWrite s t off be v) t (blockDomain (off / 0x1000000))))

end Sys2Proof.Machine
end

