-- ==== Sys2Proof/Machine/Page.lean ====
section
/-! DEFINITION. What a host's memory request reaches (05): the instance page (R73, R308, R329), control space (R72, R74 to R76),
and the decision of each request (R100). -/

namespace Sys2Proof.Machine

open Sys2Proof

/-! ## Accesses (R74, R75) -/

/-- Why an access to a BAR0 is refused (R74). -/
inductive Refuse where
  | oversize
  | misaligned
  deriving DecidableEq, Repr

/-- Whether an access of `n` bytes at address `a` is one R74 refuses. -/
def accessBad (a n : Nat) : Option Refuse :=
  if 64 < n then some .oversize
  else if n ≤ 4 then (if a % 4 + n ≤ 4 then none else some .misaligned)
  else if n ≤ 8 then (if a % 8 + n ≤ 8 then none else some .misaligned)
  else if a % 4 = 0 then none else some .misaligned

/-- The DWs of an access, in ascending order: index, byte enables, data. -/
def dwParts (dws : Nat) (fbe lbe : BitVec 4) (data : List Byte) : List (Nat × BitVec 4 × Word) :=
  (List.range dws).map (fun k =>
    (k, if k = 0 then fbe else if k + 1 = dws then lbe else 0xF#4, wordOf (bytesAt data (4 * k) 4)))

/-- Reads the DWs of an access in ascending order: their words' bytes, and the state after their side effects. -/
def readSeries (rd : State → Nat → Word × State) : Nat → Nat → State → List Byte × State
  | 0, _, s => ([], s)
  | n + 1, a, s =>
    let r := rd s a
    let rest := readSeries rd n (a + 4) r.2
    (wordBytes r.1 ++ rest.1, rest.2)

/-! ## Control space from the manager function -/

/-- Whether control space of a tile answers nothing and takes nothing (R20, R72). -/
def ctlClosed (s : State) (t : Nat) : Bool := decide (t < s.part.tiles) && portsClosed s t && !recoveryShape s

/-- A DW read of control space: absent tiles read as zero (R3). -/
def ctlSpaceRead (s : State) (a : Nat) : Word × State :=
  let t := a / 0x10000000
  if t < s.part.tiles ∧ ctlClosed s t = false then busReadNow s t (a % 0x10000000) else (0, s)

/-- A DW write of control space. -/
def ctlSpaceWrite (s : State) (a : Nat) (be : BitVec 4) (v : Word) : State :=
  let t := a / 0x10000000
  if s.part.tiles ≤ t then s else if ctlClosed s t then discDown s t 10 else busWrite s t (a % 0x10000000) be v

/-- Counts an access of control space that R74 refuses, in the tile of its first byte (R74, R77). -/
def countRefused (s : State) (a kind : Nat) : State :=
  let t := a / 0x10000000
  if s.part.tiles ≤ t ∨ (recoveryShape s ∧ t ≠ 0) then s
  else
    let s := if kind = 1 then cf s t 0x200 16 16 else if kind = 2 then cf s t 0x200 0 16 else cf s t 0x204 0 16
    wreg s t 0x208 (word (kind * 2 ^ 28 + a % 0x10000000))

/-! ## The decision of a request (R100) -/

/-- The function and BAR a request's first byte falls in. -/
def barHit (s : State) (h a : Nat) : Option (Nat × Nat) :=
  let hit (f b : Nat) : Bool := decide (barBase s h f b ≤ a) && decide (a < barBase s h f b + barLen s h f b)
  ((fnsOf s h).filter (fun f => mse s h f)).findSome? (fun f =>
    (List.find? (fun b => hit f b) [0, 2, 4]).map (fun b => (f, b)))

/-- Whether a request is non-posted. -/
def nonPosted (r : Tlp) : Bool := r.kind != .write

/-- Completer Abort to a non-posted request, logged in its function (R108). -/
def abortReq (s : State) (r : Tlp) (f : Nat) : State := aerLog (emit s (.cpl r.link r.rid r.tag 4 [] false r.rlx r.ns)) r.link f aerCA true

/-- Unsupported Request (PRESUMED logging of the base specification, log entry 20). -/
def unsupported (s : State) (r : Tlp) (f : Nat) : State :=
  if nonPosted r then aerLog (emit s (.cpl r.link r.rid r.tag 1 [] false r.rlx r.ns)) r.link f aerUR true else aerLog s r.link f aerUR false

/-- Row 6, and the limits of R290: the instance takes nothing. -/
def notLive (s : State) (r : Tlp) (f : Nat) : State :=
  if nonPosted r then abortReq s r f else cf s (linkTile r.link) (hpt (r.link % 4) 0x10) 16 16

/-- A free inbound entry of a tile's host port (R230). -/
def freeInb (s : State) (t : Nat) : Option Nat :=
  (List.range 1024).find? (fun e => (Tbl.get none s.host.inb (t * 1024 + e)).isNone)

/-- The packet type a kind of request travels as. -/
def kindType (k : MemKind) : PType :=
  match k with
  | .write => .wr
  | .read => .rd
  | .lockedRead => .rd
  | .fetchAdd => .atomic
  | .swap => .atomic
  | .cas => .atomic

/-- A request goes on from its host port as a frame (R21, R22, R184): its inbound entry is taken, and a write to a window is a posted
frame of its instance from then on (R224, R228). Credit is advertised only for free entries, so that a non-posted request with none
free does not occur and is not taken (R230). `glob` says that the frame belongs to no instance, `a` and `len` what its completion
returns. -/
def sendHost (s : State) (r : Tlp) (f i x b dstTile dstPort a len : Nat) (glob posts : Bool) (cargo : HReq → Cargo) : State :=
  let g := (instOf s i).gen
  let t := linkTile r.link
  let data := if r.kind = .write then bytesAt r.data 0 (4 * r.dws) else r.data
  let e := if nonPosted r then freeInb s t else none
  if nonPosted r ∧ e.isNone then s else
  let q : HReq := { entry := e.map (fun e => (t, e)), link := r.link, fn := f, inst := i, gen := g, kind := r.kind, bar := b, off := x,
                    dws := r.dws, fbe := r.fbe, lbe := r.lbe, data := data, rlx := r.rlx, ns := r.ns }
  let (k, s) := newSerial s
  let s := match e with
    | some e =>
      let n : Inb := { link := r.link, fn := f, inst := i, gen := g, kind := r.kind, tag := r.tag, rid := r.rid, addr := a, len := len,
                       links := [] }
      { s with host := { s.host with inb := Tbl.set none s.host.inb (t * 1024 + e) (some n) } }
    | none => s
  let s := if posts && !nonPosted r then
      notePosted s { serial := k, inst := i, fromSlot := none, toHost := none, toSlot := none, mc := false, fromHost := some r.link,
                     home := homeTile i, resolved := false }
    else s
  enter s
    { serial := k,
      pkt := { ty := kindType r.kind, cls := (kindType r.kind).class, len := lenField (4 * r.dws), inst := i, gen := g, rlx := r.rlx, ns := r.ns,
               glob := glob, addr := x, data := if r.kind = .read ∨ r.kind = .lockedRead then [] else data },
      srcTile := t, srcPort := 0, srcSub := r.link % 4, dstTile := dstTile, dstPort := dstPort,
      issuer := match e with
        | some e => .inbound t e
        | none => .nobody
      cargo := cargo q }

/-- The address of a request's first DW. -/
abbrev dwAddr (r : Tlp) : Nat := r.addr.toNat / 4 * 4

/-- A read of a slot that no tile answers returns zeros (R3, R46). -/
def zeroCpl (s : State) (r : Tlp) : State :=
  (splitCpl (mpsOf s r.link) (rcbOf s r.link) 64 (dwAddr r) (List.replicate (4 * r.dws) 0)).foldl
    (fun s d => emit s (.cpl r.link r.rid r.tag 0 d false r.rlx r.ns)) s

/-- Row 5: control space. The host port itself answers for the tiles the part does not have (R3), where what R74 refuses is refused and
not counted, and, in the recovery shape, with no error for the others than tile 0 (R46). -/
def toControl (s : State) (r : Tlp) (f x : Nat) : State :=
  let t := x / 0x10000000
  if recoveryShape s ∧ 0 < t ∧ t < s.part.tiles then (if nonPosted r then zeroCpl s r else s)
  else if s.part.tiles ≤ t then
    (match accessBad (x + (span r.dws r.fbe r.lbe).1) (span r.dws r.fbe r.lbe).2 with
     | some _ => if nonPosted r then abortReq s r f else s
     | none => if nonPosted r then zeroCpl s r else s)
  else sendHost s r f managerInst x 0 t 10 (dwAddr r) (4 * r.dws) true false .control

/-- Row 7: the instance page. What R74 refuses is refused and counted here (R73); the rest goes to the home tile. -/
def toPage (s : State) (r : Tlp) (f i x : Nat) : State :=
  match accessBad (x + (span r.dws r.fbe r.lbe).1) (span r.dws r.fbe r.lbe).2 with
  | some _ =>
    let s := cf s (linkTile r.link) (hpt (r.link % 4) 0x14) 16 16
    if nonPosted r then abortReq s r f else s
  | none => sendHost s r f i x 0 (homeTile i) 10 (dwAddr r) (4 * r.dws) false false .page

/-- Row 8: on to window resolution at the home tile (R212). -/
def toWindow (s : State) (r : Tlp) (f i b x : Nat) : State :=
  sendHost s r f i x b (homeTile i) 12 (dwAddr r + (span r.dws r.fbe r.lbe).1) (span r.dws r.fbe r.lbe).2 false true .window

/-- Rows 4 to 8, for a request that falls in a BAR of a function. The VFs of a Legacy Endpoint take no locked request (R113). -/
def toFunction (s : State) (r : Tlp) (f b x : Nat) : State :=
  let ref := fnRefOf (pfsOf s r.link) f
  if b = 0 ∧ r.kind ≠ .read ∧ r.kind ≠ .write then
    let s := if ref.any (fun y => y.pf.manager) then countRefused s (x + (span r.dws r.fbe r.lbe).1) 4
      else cf s (linkTile r.link) (hpt (r.link % 4) 0x14) 16 16
    abortReq s r f
  else if r.kind = .lockedRead ∧ ref.any (fun y => y.pf.legacy && y.vf.isNone) = false then unsupported s r f
  else if ref.any (fun y => y.pf.manager) then toControl s r f x
  else match boundInst s r.link f with
    | none => notLive s r f
    | some i =>
      let y := instOf s i
      if live s i = false then notLive s r f
      else if b = 0 then toPage s r f i x
      else if y.frozen || y.halted || y.resetting then notLive s r f
      else toWindow s r f i b x

/-- Whether an AtomicOp has no operand size that R90 gives, or an address not aligned to it (R234). -/
def atomicBad (r : Tlp) : Bool :=
  match r.kind with
  | .fetchAdd => atomicWrong [4, 8] r.data.length
  | .swap => atomicWrong [4, 8] r.data.length
  | .cas => atomicWrong [4, 8, 16] (r.data.length / 2) || r.data.length % 2 != 0
  | .read => false
  | .lockedRead => false
  | .write => false
where
  /-- Whether an operand size is none of these, or the address is not aligned to it. -/
  atomicWrong (sizes : List Nat) (n : Nat) : Bool := !sizes.contains n || r.addr.toNat % n != 0

/-- The AER bit of what ends a request at row 1: Malformed TLP, ECRC Error, IDE Check Failed (PRESUMED numbering of the base
specification, log entry 20). -/
def rowOneBit (r : Tlp) : Option Nat :=
  match r.bad with
  | some .malformed => some 18
  | some .ecrc => some 19
  | some .ide => some aerIde
  | none => if r.dws = 0 ∨ atomicBad r then some 18 else none

/-- Whether the link's host may send a request now: the host port withholds the credits of a class while a frame of it waits there
(R187). -/
def creditHeld (s : State) (r : Tlp) : Bool :=
  (Tbl.get [] s.swc.waiting (linkTile r.link * 12)).any (fun w => w.pkt.cls == (kindType r.kind).class)

/-- HOST_MEMORY_REQUEST (R100): rows 1 and 2, then the function's. No request arrives on a link that is down or without
credit. Row 1 is logged in PF 0, and answered with nothing (PRESUMED, log entry 20). -/
def hostRequest (s : State) (r : Tlp) : State :=
  if hostUp s r.link = false ∨ creditHeld s r then s
  else
    let s := leaveL1 s r.link
    match rowOneBit r with
    | some b => aerLog s r.link 0 b false
    | none =>
      match barHit s r.link (dwAddr r + (span r.dws r.fbe r.lbe).1) with
      | none => unsupported s r 0
      | some (f, b) => toFunction s r f b (dwAddr r - barBase s r.link f b)

/-! ## The management port (R22, R75, R326) -/

/-- The answer of a tile's management port to an access. -/
def mgmtRsp (s : State) (t : Nat) (f : Frame) (status : Nat) (data : List Byte) : State :=
  let (k, s) := newSerial s
  match f.issuer with
  | .held u n j _ =>
    match heldRd s u n j with
    | some h =>
      let g := rspFrame k t 10 0 u n h.pkt h.epoch status data false (some j)
      enter (heldSent s u n (some j) k) { g with links := f.links }
    | none => s
  | _ =>
    enter s { serial := k, pkt := rspPkt f.pkt status data false, srcTile := t, srcPort := 10, dstTile := f.srcTile, dstPort := f.srcPort,
              dstSub := f.srcSub, issuer := f.issuer, links := f.links }

/-- An access to control space (R74, R75): a read returns whole DWs. -/
def ctlAccess (s : State) (t : Nat) (f : Frame) (r : HReq) : State :=
  let a := r.off + (span r.dws r.fbe r.lbe).1
  match accessBad a (span r.dws r.fbe r.lbe).2 with
  | some e =>
    let s := countRefused s a (if e = .oversize then 2 else 1)
    if r.kind = .write then s else mgmtRsp s t f 2 []
  | none =>
    if r.kind = .write then (dwParts r.dws r.fbe r.lbe r.data).foldl (fun s p => ctlSpaceWrite s (r.off + 4 * p.1) p.2.1 p.2.2) s
    else
      let y := readSeries ctlSpaceRead r.dws r.off s
      mgmtRsp y.2 t f 0 y.1

/-- A DW read of the page, behind the writes posted into its domain (R88). -/
def pageReadNow (s : State) (i o : Nat) : Word × State := pageRead (crossAll s (homeTile i) (pageDomain o)) i o

/-- A DW write of the page is posted into its domain (R88, R432); one to a reserved slot is counted in the host link's tile (R73). -/
def pagePost (s : State) (r : HReq) (o : Nat) (be : BitVec 4) (v : Word) : State :=
  if (pageWrite s r.inst o be v).isSome then post s (homeTile r.inst) (pageDomain o) (.page r.inst o be v)
  else cf s (linkTile r.link) (hpt (r.link % 4) 0x10) 0 16

/-- A write of the page, one DW at a time or as the one unit of a doorbell slot (R75). -/
def pageWrites (s : State) (r : HReq) : State :=
  if r.dws = 16 ∧ r.off < 0x4000 ∧ r.off % 64 = 0 then
    if r.off / 64 < (instOf s r.inst).qCount then
      post s (homeTile r.inst) 17 (.door r.inst ((instOf s r.inst).qBase + r.off / 64) (enables 16 r.fbe r.lbe) (bytesAt r.data 0 64))
    else cf s (linkTile r.link) (hpt (r.link % 4) 0x10) 0 16
  else (dwParts r.dws r.fbe r.lbe r.data).foldl (fun s p => pagePost s r (r.off + 4 * p.1) p.2.1 p.2.2) s

/-- An access to an instance page at the home tile (R73). -/
def pageAccess (s : State) (t : Nat) (f : Frame) (r : HReq) : State :=
  if r.kind = .write then pageWrites s r
  else
    let y := readSeries (fun s o => pageReadNow s r.inst o) r.dws r.off s
    mgmtRsp y.2 t f 0 y.1

/-- An access of a partner to the local-side window (R326), in the event controller's domain (R432). -/
def localAccess (s : State) (t : Nat) (f : Frame) (u n : Nat) : State :=
  if f.pkt.ty = .wr then post s t 19 (.localWin (f.pkt.addr % 65536) u n (word (leNat f.pkt.data)))
  else
    let y := localRead (crossAll s t 19) t (f.pkt.addr % 65536) u n
    mgmtRsp y.2 t f 0 (wordBytes y.1)

/-- A frame that the switch core has given a tile's management port acts (R12). -/
def mgmtAct (t : Nat) (s : State) (f : Frame) : State :=
  match f.cargo with
  | .control r => ctlAccess s t f r
  | .page r => pageAccess s t f r
  | .localWin u n => localAccess s t f u n
  | .ltp => settle s f.serial
  | .window _ => settle s f.serial
  | .unlock _ _ => settle s f.serial
  | .zeroRead => settle s f.serial

/-- What the management port of a tile has been given acts, in its order. -/
def mgmtRun (s : State) (t : Nat) : State :=
  (Tbl.get [] s.swc.mgmt t).foldl (mgmtAct t) { s with swc := { s.swc with mgmt := Tbl.set [] s.swc.mgmt t [] } }

/-! ## Meanings -/

/-- OUTPUT_ARBITRATION (R191): what goes to the management port acts there (R22). -/
def execOutputArbitration (t out : Nat) (read : CellRead) (s : State) : Res :=
  onUnit (outOk s t out) (mgmtRun (arbitrate s t out read) t)

/-- HOST_MEMORY_REQUEST (R100). -/
def execHostMemoryRequest (r : Tlp) (s : State) : Res := onLink s r.link (hostRequest s r)

end Sys2Proof.Machine
end

