-- ==== Sys2Proof/Machine/RegRows.lean ====
section
/-! DEFINITION. The commands that are one access of software to a register, by the control space of a tile (04) or by an instance's
page (R73): each acts only where the access reaches its register, behind what was posted into the register's domain (R88). -/

namespace Sys2Proof.Machine

open Sys2Proof

/-! ## Ways to a register -/

/-- A write that reaches the register at an offset of a tile's control space acts behind the writes posted into its domain (R20, R46,
R52, R72, R88). -/
def regRow (s : State) (t off : Nat) (f : State → State) : State :=
  busReach s t (if regOpen s t off then f (crossAll s t (blockDomain (off / 0x1000000))) else s)

/-- A read that reaches the register at an offset of a tile's control space. -/
def readRow (s : State) (t off : Nat) (f : State → State) : State :=
  busOpen s t (if regOpen s t off then f (crossAll s t (blockDomain (off / 0x1000000))) else s)

/-- A driver's write to its instance's page (R53, R73, R290): nothing reaches the page of an instance that is bound to no function, and
one of an instance that is not live is discarded and counted. -/
def pageRow (s : State) (i dom : Nat) (f : State → State) : State :=
  match instLink s i with
  | some h => if live s i then f (crossAll s (homeTile i) dom) else cf s (linkTile h) (hpt (h % 4) 0x10) 16 16
  | none => s

/-- A driver's write to a slot of one of its instance's queues; a slot beyond its queues is a reserved one (R73). -/
def slotRow (s : State) (i q : Nat) (f : State → State) : State :=
  pageRow s i 17 (fun s =>
    if q < (instOf s i).qCount then f s
    else match instLink s i with
      | some h => cf s (linkTile h) (hpt (h % 4) 0x10) 0 16
      | none => s)

/-- A driver's write to the status slot of a tile queue, by the instance that holds it. -/
def queueRow (s : State) (t q : Nat) (f : State → State) : State :=
  match qOwner s t q with
  | some i => pageRow s i 17 f
  | none => s

/-! ## Modes and tests (03) -/

/-- ENTER_SERVICE (R55). -/
def execEnterService (t : Nat) (s : State) : Res :=
  onTile s t (regRow s t 0x108 (fun s => glbWrite s t 0x108 0xF#4 0x4D000001#32))

/-- ENTER_RECOVERY (R55). -/
def execEnterRecovery (t : Nat) (s : State) : Res :=
  onTile s t (regRow s t 0x108 (fun s => glbWrite s t 0x108 0xF#4 0x4D000002#32))

/-- ENTER_TEST (R55). -/
def execEnterTest (t : Nat) (s : State) : Res :=
  onTile s t (regRow s t 0x108 (fun s => glbWrite s t 0x108 0xF#4 0x4D000003#32))

/-- TILE_RESET (R56, R67). -/
def execTileReset (t : Nat) (tiles : BitVec 8) (s : State) : Res :=
  onTile s t (regRow s t 0x110 (fun s => tileReset s t tiles))

/-- TEST_MEMORY_BIST (R64): PORTS as it stands. -/
def execTestMemoryBist (t : Nat) (s : State) : Res :=
  onTile s t (regRow s t 0x120 (fun s => testStart s t 1 (BitVec.ofNat 8 (gf s t 0x120 8 8))))

/-- TEST_PRBS (R64). -/
def execTestPrbs (t : Nat) (ports : BitVec 8) (s : State) : Res :=
  onTile s t (regRow s t 0x120 (fun s => testStart s t 2 ports))

/-- TEST_NEAR_LOOPBACK (R64). -/
def execTestNearLoopback (t : Nat) (ports : BitVec 8) (s : State) : Res :=
  onTile s t (regRow s t 0x120 (fun s => testStart s t 3 ports))

/-- TEST_FAR_LOOPBACK (R64). -/
def execTestFarLoopback (t : Nat) (ports : BitVec 8) (s : State) : Res :=
  onTile s t (regRow s t 0x120 (fun s => testStart s t 4 ports))

/-- TEST_STOP (R64). -/
def execTestStop (t : Nat) (errors : Nat) (failed : BitVec 8) (s : State) : Res :=
  onTile s t (regRow s t 0x120 (fun s => testStop s t errors failed))

/-! ## The image controller (02) -/

/-- VERIFY (R47). -/
def execVerify (s : State) : Res :=
  .next (regRow s 0 0xA000004 (fun s => strCmd s 1))

/-- ACTIVATE (R47). -/
def execActivate (s : State) : Res :=
  .next (regRow s 0 0xA000004 (fun s => strCmd s 2))

/-- COMMIT_FLOOR (R47). -/
def execCommitFloor (s : State) : Res :=
  .next (regRow s 0 0xA000004 (fun s => strCmd s 3))

/-- ENROL (R47). -/
def execEnrol (s : State) : Res :=
  .next (regRow s 0 0xA000004 (fun s => strCmd s 4))

/-- ERASE_INACTIVE (R47). -/
def execEraseInactive (s : State) : Res :=
  .next (regRow s 0 0xA000004 (fun s => strCmd s 5))

/-- REFRESH_FLASH (R47). -/
def execRefreshFlash (s : State) : Res :=
  .next (regRow s 0 0xA000004 (fun s => strCmd s 6))

/-- STR_IMG_DATA_WRITE (R47, R86). -/
def execStrImgDataWrite (be : BitVec 4) (v : Word) (s : State) : Res :=
  .next (regRow s 0 0xA000024 (fun s => imgWrite s be v))

/-! ## Host ports (05) -/

/-- RATE_CAP_WRITE (R92). -/
def execRateCapWrite (h : Nat) (v : BitVec 3) (s : State) : Res :=
  onLink s h (regRow s (h / 4) (hpt (h % 4) 4) (fun s => writeRateCap s h v.toNat))

/-- NARROW_WRITE (R93). -/
def execNarrowWrite (h : Nat) (v : BitVec 3) (s : State) : Res :=
  onLink s h (regRow s (h / 4) (hpt (h % 4) 4) (fun s => writeNarrow s h v.toNat))

/-- WAKE_ASSERT (R116). -/
def execWakeAssert (h : Nat) (s : State) : Res :=
  onLink s h (regRow s (h / 4) (hpt (h % 4) 4) (fun s => wakeOn s h))

/-- RETRAIN (R92). -/
def execRetrain (h : Nat) (s : State) : Res :=
  onLink s h (regRow s (h / 4) (hpt (h % 4) 4) (fun s => writeRetrain s h))

/-- LTR_WRITE (R110). -/
def execLtrWrite (h : Nat) (v : Word) (s : State) : Res :=
  onLink s h (regRow s (h / 4) (hpt (h % 4) 0x1C) (fun s => writeLtr s h v))

/-! ## Lode slots (06, 08) -/

/-- CHANGE (R132). -/
def execChange (t n : Nat) (s : State) : Res :=
  onUnit (slotOk s t n) (regRow s t (lnk n 4) (fun s => writeChange s t n))

/-- DOWN (R137). -/
def execDown (t n : Nat) (s : State) : Res :=
  onUnit (slotOk s t n) (regRow s t (lnk n 4) (fun s => commandDown s t n false))

/-- DISABLE (R125, R139). -/
def execDisable (t n : Nat) (s : State) : Res :=
  onUnit (slotOk s t n) (regRow s t (lnk n 4) (fun s => disableLink s t n))

/-- LTP_HELD_READ (R183): HIGH_WATER begins afresh. -/
def execLtpHeldRead (t n : Nat) (s : State) : Res :=
  onUnit (localSlotOk s t n) (readRow s t (ltp n 4) (fun s => readHeld s t n))

/-! ## Switch core, windows and translation (09, 10) -/

/-- SWC_CNT_READ (R207). -/
def execSwcCntRead (t : Nat) (s : State) : Res :=
  onTile s t (regRow s t 0x3000400 (fun s => swcCntRead s t))

/-- SWC_CNT_WRITE (R207). -/
def execSwcCntWrite (t : Nat) (s : State) : Res :=
  onTile s t (regRow s t 0x3000400 (fun s => swcCntWrite s t))

/-- WTT_WINDOW_READ (R220). -/
def execWttWindowRead (t : Nat) (s : State) : Res :=
  onTile s t (regRow s t winMb (fun s => winRead s t))

/-- WTT_WINDOW_WRITE (R220). -/
def execWttWindowWrite (t : Nat) (s : State) : Res :=
  onTile s t (regRow s t winMb (fun s => winWrite s t))

/-- WTT_ENTRY_READ (R220). -/
def execWttEntryRead (t m : Nat) (s : State) : Res :=
  onUnit (mbOk s t m) (regRow s t (0x4000200 + 0x80 * m) (fun s => entRead s t m))

/-- WTT_ENTRY_WRITE (R220). -/
def execWttEntryWrite (t m : Nat) (s : State) : Res :=
  onUnit (mbOk s t m) (regRow s t (0x4000200 + 0x80 * m) (fun s => entWrite s t m))

/-- FILL (R220). -/
def execFill (t m : Nat) (s : State) : Res :=
  onUnit (mbOk s t m) (regRow s t (0x4000200 + 0x80 * m) (fun s => entFill s t m))

/-- FENCE (R221). -/
def execFence (t : Nat) (i : BitVec 12) (s : State) : Res :=
  onTile s t (regRow s t 0x4000000 (fun s => wttWrite s t 0x4000000 0xF#4 (word (2 ^ 24 + i.toNat))))

/-- RESTAMP (R221). -/
def execRestamp (t : Nat) (i : BitVec 12) (s : State) : Res :=
  onTile s t (regRow s t 0x4000000 (fun s => wttWrite s t 0x4000000 0xF#4 (word (2 * 2 ^ 24 + i.toNat))))

/-! ## DMA queues and engines (12, 13) -/

/-- DOORBELL_WRITE (R249, R251 to R253). -/
def execDoorbellWrite (i q off : Nat) (be : BitVec 4) (v : Word) (s : State) : Res :=
  onUnit (instOk s i) (slotRow s i q (fun s => doorbell s i (homeTile i) ((instOf s i).qBase + q) off be v))

/-- INLINE_DOORBELL (R252). -/
def execInlineDoorbell (i q : Nat) (enables : List Bool) (bytes : List Byte) (s : State) : Res :=
  onUnit (instOk s i) (slotRow s i q (fun s => doorbell64 s i (homeTile i) ((instOf s i).qBase + q) enables bytes))

/-- QUEUE_ENABLE (R247). -/
def execQueueEnable (t q : Nat) (s : State) : Res :=
  onUnit (queueOk s t q) (queueRow s t q (fun s => queueCmd s t q 1 true))

/-- QUEUE_RESUME (R280). -/
def execQueueResume (t q : Nat) (s : State) : Res :=
  onUnit (queueOk s t q) (queueRow s t q (fun s => queueCmd s t q 2 true))

/-- QUEUE_SKIP (R280). -/
def execQueueSkip (t q : Nat) (s : State) : Res :=
  onUnit (queueOk s t q) (queueRow s t q (fun s => queueCmd s t q 3 true))

/-- QUEUE_RESET (R248). -/
def execQueueReset (t q : Nat) (s : State) : Res :=
  onUnit (queueOk s t q) (queueRow s t q (fun s => queueCmd s t q 4 true))

/-- CPL_HEAD_WRITE (R260). -/
def execCplHeadWrite (t q : Nat) (be : BitVec 4) (v : Word) (s : State) : Res :=
  onUnit (queueOk s t q) (queueRow s t q (fun s => cplHead s t q be v))

/-- DMA_QCTX_READ (R261). -/
def execDmaQctxRead (t : Nat) (s : State) : Res :=
  onTile s t (regRow s t qctxMb (fun s => qctxRead s t))

/-- DMA_QCTX_WRITE (R261). -/
def execDmaQctxWrite (t : Nat) (s : State) : Res :=
  onTile s t (regRow s t qctxMb (fun s => qctxWrite s t))

/-- SET_SHARE (R261, R277). -/
def execSetShare (t : Nat) (s : State) : Res :=
  onTile s t (regRow s t qctxMb (fun s => qctxShare s t))

/-- QCTX_COMMAND (R261). -/
def execQctxCommand (t : Nat) (s : State) : Res :=
  onTile s t (regRow s t qctxMb (fun s => qctxCmd s t))

/-- DMA_CNT_READ (R283). -/
def execDmaCntRead (t : Nat) (s : State) : Res :=
  onTile s t (regRow s t 0x5000300 (fun s => dmaCntRead s t))

/-- DMA_CNT_WRITE (R283). -/
def execDmaCntWrite (t : Nat) (s : State) : Res :=
  onTile s t (regRow s t 0x5000300 (fun s => dmaCntWrite s t))

/-! ## Instances (14) -/

/-- INSTANCE_READ (R285). -/
def execInstanceRead (t m : Nat) (s : State) : Res :=
  onUnit (mbOk s t m) (regRow s t (insMb m) (fun s => instRead s t m))

/-- INSTANCE_WRITE (R285). -/
def execInstanceWrite (t m : Nat) (s : State) : Res :=
  onUnit (mbOk s t m) (regRow s t (insMb m) (fun s => instWrite s t m))

/-- CREATE (R286). -/
def execCreate (t m : Nat) (s : State) : Res :=
  onUnit (mbOk s t m) (regRow s t (insMb m) (fun s => create s t m))

/-- REMOVE (R287). -/
def execRemove (t m : Nat) (s : State) : Res :=
  onUnit (mbOk s t m) (regRow s t (insMb m) (fun s => remove s t m))

/-- BIND (R288). -/
def execBind (t m : Nat) (s : State) : Res :=
  onUnit (mbOk s t m) (regRow s t (insMb m) (fun s => bindInst s t m))

/-- UNBIND (R289). -/
def execUnbind (t m : Nat) (s : State) : Res :=
  onUnit (mbOk s t m) (regRow s t (insMb m) (fun s => unbindCmd s t m))

/-- FREEZE (R296). -/
def execFreeze (t m : Nat) (s : State) : Res :=
  onUnit (mbOk s t m) (regRow s t (insMb m) (fun s => freezeCmd s t m))

/-- INSTANCE_RESUME (R298). -/
def execInstanceResume (t m : Nat) (s : State) : Res :=
  onUnit (mbOk s t m) (regRow s t (insMb m) (fun s => resumeCmd s t m))

/-- INSTANCE_RESET_COMMAND (R293). -/
def execInstanceResetCommand (t m : Nat) (s : State) : Res :=
  onUnit (mbOk s t m) (regRow s t (insMb m) (fun s => resetCmd s t m))

/-- SET_WEIGHT (R291). -/
def execSetWeight (t m : Nat) (s : State) : Res :=
  onUnit (mbOk s t m) (regRow s t (insMb m) (fun s => setWeightCmd s t m))

/-- LOG_CLEAR (R304). -/
def execLogClear (t m : Nat) (s : State) : Res :=
  onUnit (mbOk s t m) (regRow s t (insMb m) (fun s => logClearCmd s t m))

/-- LOG_CMD_CLEAR (R304). -/
def execLogCmdClear (i : Nat) (s : State) : Res :=
  onUnit (instOk s i) (pageRow s i 1 (fun s => logCmdClear s i))

/-- LOG_ENABLE (R308). -/
def execLogEnable (i : Nat) (s : State) : Res :=
  onUnit (instOk s i) (pageRow s i 1 (fun s => logEnable s i))

/-- RELEASE (R299). -/
def execRelease (i : Nat) (s : State) : Res :=
  onUnit (instOk s i) (pageRow s i 1 (fun s => releaseInst s i))

/-! ## Event controller (15) -/

/-- PENDING_WORD_WRITE (R313, R322). -/
def execPendingWordWrite (t w : Nat) (be : BitVec 4) (v : Word) (s : State) : Res :=
  onUnit (decide (t < s.part.tiles ∧ w < 1024)) (regRow s t (0x7000000 + 4 * w) (fun s => pendWrite s t w be v))

/-- PENDING_WORD_READ (R313): the word is answered, and ARRIVED clears for the bits presented. -/
def execPendingWordRead (t w : Nat) (s : State) : Res :=
  onUnit (decide (t < s.part.tiles ∧ w < 1024)) (readRow s t (0x7000000 + 4 * w) (fun s =>
    emit (pendRead s t w) (.read t (0x7000000 + 4 * w) (pendWord s t w))))

/-- ROUTE_WRITE (R315). -/
def execRouteWrite (t src : Nat) (route : BitVec 11) (s : State) : Res :=
  onUnit (decide (t < s.part.tiles ∧ src < 32768)) (regRow s t (evcSrc src) (fun s => routeWrite s t src route.toNat))

/-- TARGET_DONE (R320). -/
def execTargetDone (t x : Nat) (check : Bool) (seq : BitVec 8) (s : State) : Res :=
  onUnit (decide (t < s.part.tiles ∧ x < 1024)) (regRow s t (tgtReg x 8) (fun s =>
    if tgtLocked s t x then s else targetDone s t x check seq.toNat))

/-! ## Faults, time and ageing, the ring, alarms, power (16 to 20) -/

/-- FAULT_ACKNOWLEDGE (R334). -/
def execFaultAcknowledge (t b : Nat) (bits : BitVec 8) (s : State) : Res :=
  onUnit (bankOk s t b) (regRow s t (fltB b 0) (fun s => faultAck s t b (bits.setWidth 32)))

/-- DUMP_RELEASE (R345). -/
def execDumpRelease (slot : Nat) (s : State) : Res :=
  onUnit (decide (slot < 2)) (regRow s 0 0x8001004 (fun s => dumpFree s slot))

/-- TIMESTAMP_READ (R353). -/
def execTimestampRead (s : State) : Res :=
  .next (regRow s 0 tsMb (fun s => tsRead s))

/-- TIMESTAMP_WRITE (R353). -/
def execTimestampWrite (s : State) : Res :=
  .next (regRow s 0 tsMb (fun s => tsWrite s))

/-- SLEW (R353). -/
def execSlew (s : State) : Res :=
  .next (regRow s 0 tsMb (fun s => tsSlew s))

/-- PLAN_NOW (R360). -/
def execPlanNow (readings : List (Nat × Nat × BitVec 24)) (s : State) : Res :=
  .next (regRow s 0 0x9000080 (fun s => planNow s readings))

/-- MAINT_GRANT (R364). -/
def execMaintGrant (t : Nat) (minutes scope : BitVec 8) (s : State) : Res :=
  onTile s t (regRow s t 0x9000094 (fun s => maintWrite s t minutes.toNat scope.toNat))

/-- RREAD (R376). -/
def execRread (m : Nat) (s : State) : Res :=
  onUnit (decide (m < 4)) (regRow s 0 (0xB000100 + 0x80 * m) (fun s => rmtStart s m 3))

/-- RWRITE (R376). -/
def execRwrite (m : Nat) (s : State) : Res :=
  onUnit (decide (m < 4)) (regRow s 0 (0xB000100 + 0x80 * m) (fun s => rmtStart s m 4))

/-- DIST_IMG (R376). -/
def execDistImg (m : Nat) (s : State) : Res :=
  onUnit (decide (m < 4)) (regRow s 0 (0xB000100 + 0x80 * m) (fun s => rmtStart s m 5))

/-- HF_ERASE (R376). -/
def execHfErase (m : Nat) (s : State) : Res :=
  onUnit (decide (m < 4)) (regRow s 0 (0xB000100 + 0x80 * m) (fun s => rmtStart s m 6))

/-- DIST_HF (R376). -/
def execDistHf (m : Nat) (s : State) : Res :=
  onUnit (decide (m < 4)) (regRow s 0 (0xB000100 + 0x80 * m) (fun s => rmtStart s m 7))

/-- HF_CHECK (R376). -/
def execHfCheck (m : Nat) (s : State) : Res :=
  onUnit (decide (m < 4)) (regRow s 0 (0xB000100 + 0x80 * m) (fun s => rmtStart s m 8))

/-- ALARM_READ (R393). -/
def execAlarmRead (t : Nat) (s : State) : Res :=
  onTile s t (regRow s t 0xD000000 (fun s => alarmRead s t))

/-- ALARM_ACK (R393). -/
def execAlarmAck (t : Nat) (s : State) : Res :=
  onTile s t (regRow s t 0xD000000 (fun s => alarmAck s t))

/-- ALARM_WRITE (R393). -/
def execAlarmWrite (t : Nat) (s : State) : Res :=
  onTile s t (regRow s t 0xD000000 (fun s => alarmWrite s t))

/-- CHARGE_CONTROL_WRITE (R406). -/
def execChargeControlWrite (be : BitVec 4) (v : Word) (s : State) : Res :=
  .next (regRow s 0 0xC000020 (fun s => chargeWrite s be v))

end Sys2Proof.Machine
end

