-- ==== Sys2Proof/Machine/Remote.lean ====
section
/-! DEFINITION. What a remote request does at its target (R376, R377, R379, R380), a ring frame received (R371 to R373), and the
end of a mailbox command (R84). -/

namespace Sys2Proof.Machine

open Sys2Proof

/-! ## Requests at their target -/

/-- REASON codes (R376). -/
abbrev whyNotAccepted : Nat := 4
abbrev whyRemote : Nat := 5
abbrev whyPending : Nat := 7
abbrev whyHfOther : Nat := 8

/-- How a request ended at its target: the state, the reason (0 for OK) and the words it returns. -/
abbrev Served := State × Nat × List Word

/-- Whether the fatal latch is set (R54, R377). -/
def fatalLatched (s : State) : Bool := gf s 0 0x118 0 1 == 1

/-- Whether the route of control accesses from tile 0 reaches a tile (R15, R19, R20, R22). -/
def routeReaches (s : State) (t : Nat) : Bool :=
  t == 0 || (let n := hop s.part 0 t none
    let m := neighbour s.part 0 n
    linkAlive s 0 n && (m == t || (!(tileSt s m).transitStop && linkAlive s m (hop s.part m t none))))

/-- Whether a tile refuses a remote access: closed or not reached, or another tile than 0 under the fatal latch (R377). In the recovery
shape tile 0 answers for the others (R46). -/
def remoteClosed (s : State) (t : Nat) : Bool :=
  if fatalLatched s then t != 0 else ctlClosed s t || !(recoveryShape s || routeReaches s t)

/-- A write in force (R376): in its block's domain, and through an IND pair in its target's (R432). -/
def writeInForce (s : State) (t off : Nat) (w : Word) : State :=
  let s := crossAll (busWrite s t off 0xF#4 w) t (blockDomain (off / 0x1000000))
  if off = 0xE000044 then crossAll s t 22 else s

/-- COUNT ascending DW reads (R376): the first that is refused ends them. -/
def remoteReads : Nat → Nat → State → Served
  | 0, _, s => (s, 0, [])
  | n + 1, a, s =>
    let t := a / 0x10000000
    if t < s.part.tiles ∧ remoteClosed s t then (s, whyRemote, [])
    else
      let r := if t < s.part.tiles then busReadNow s t (a % 0x10000000) else (0, s)
      let rest := remoteReads n (a + 4) r.2
      (rest.1, rest.2.1, r.1 :: rest.2.2)

/-- Ascending DW writes, each in force before the next (R376); a remote write of GAL_CTRL is ignored (R377). -/
def remoteWrites (remote : Bool) : List Word → Nat → State → Served
  | [], _, s => (s, 0, [])
  | w :: ws, a, s =>
    let t := a / 0x10000000
    if t < s.part.tiles ∧ remoteClosed s t then (s, whyRemote, [])
    else
      remoteWrites remote ws (a + 4)
        (if s.part.tiles ≤ t ∨ (remote ∧ a = 0xB000004) then s else writeInForce s t (a % 0x10000000) w)

/-- DIST_IMG (R376, R379): 16 DWs of the inactive slot. -/
def distImg (s : State) (off : Nat) (data : List Word) : Served :=
  if remoteClosed s 0 then (s, whyRemote, [])
  else if gf s 0 0xA000000 5 1 = 1 then (s, whyPending, [])
  else ((data.take 16).foldl (fun s w => imgWrite s 0xF#4 w) (wreg s 0 0xA000020 (word off)), 0, [])

/-- Whether a Headframe copy is marked incomplete (R380). -/
def hfIncomplete (s : State) (c : Nat) : Bool := (Tbl.find? s.gal.hfBad c).isSome

/-- HF_ERASE, DIST_HF and HF_CHECK of copy `c` (R376, R380). A check that fails is answered REMOTE_ERROR (DEDUCED, log
entry 26). -/
def headframeOp (s : State) (op c off : Nat) (data : List Word) : Served :=
  if op = 8 then
    if Config.headframePasses (headframeCopy s c) then ({ s with gal := { s.gal with hfBad := Tbl.del s.gal.hfBad c } }, 0, [])
    else (s, whyRemote, [])
  else if hfIncomplete s (1 - c) then (s, whyHfOther, [])
  else if op = 6 then
    ({ flashErase s (c * 0x800000) 0x400000 with gal := { s.gal with hfBad := Tbl.ins s.gal.hfBad c () } }, 0, [])
  else (flashWrite s (c * 0x800000 + off) ((data.take 16).flatMap wordBytes), 0, [])

/-- A request served at its target. -/
def serveReq (s : State) (remote : Bool) (x : Rmt) : Served :=
  match x.op with
  | 3 => remoteReads x.count x.off s
  | 4 => remoteWrites remote (x.data.take x.count) x.off s
  | 5 => distImg s x.off x.data
  | op => headframeOp s op x.copy x.off x.data

/-! ## Frames received (R371 to R373) -/

/-- A frame's fields (R372). -/
structure RingFrame where
  kind : Nat
  src : Nat
  bcast : Bool
  dest : Nat
  response : Bool
  timeValid : Bool
  seq : Nat
  status : Nat
  arg : Nat
  payload : List Byte

/-- The fields of a whole frame. -/
def readFrame (l : List Byte) : RingFrame :=
  { kind := leAt l 0 1, src := leAt l 1 1 % 32, bcast := leAt l 2 1 / 128 == 1, dest := leAt l 2 1 % 32
    response := leAt l 3 1 / 2 % 2 == 1, timeValid := leAt l 3 1 / 4 % 2 == 1, seq := leAt l 4 2, status := leAt l 7 1
    arg := leAt l 8 8, payload := bytesAt l 16 (leAt l 6 1) }

/-- The request a frame carries (R372). -/
def frameReq (f : RingFrame) : Rmt :=
  let op := f.kind - 0x10 + 3
  let words := payloadWords f.payload 16
  let rw := op = 3 ∨ op = 4
  { op := op, dest := f.dest, seq := f.seq, isLocal := false, data := words
    off := if rw then f.arg % 2 ^ 32 else if op = 5 then f.arg % 2 ^ 20 else f.arg % 2 ^ 22
    count := f.arg / 2 ^ 32 % 16 + 1
    copy := if op = 7 then f.arg / 2 ^ 24 % 2 else f.arg % 2 }

/-- A request from another package (R377): under GAL_CTRL's consent it is served, and answered on both rings. -/
def takeRequest (s : State) (f : RingFrame) : State :=
  let x := frameReq f
  let s := cf s 0 0xB00001C 0 16
  let ok := gf s 0 0xB000004 (if x.op = 3 ∨ x.op = 4 then 0 else 1) 1 = 1
  let r : Served := if ok then serveReq s true x else (s, whyNotAccepted, [])
  ringSend r.1 f.kind f.src 2 f.seq r.2.1 0 (if x.op = 3 ∧ r.2.1 = 0 then r.2.2.flatMap wordBytes else [])

/-- What a package does with a frame it takes. -/
def takeFrame (s : State) (f : RingFrame) : State :=
  if f.kind = 1 then takeHello s f.src f.arg (wordOf f.payload)
  else if galBit s 29 then s
  else if f.kind = 2 then
    (if f.timeValid ∧ galManager s = false then { s with gal := { s.gal with time := some (f.arg % 2 ^ 48) } } else s)
  else if f.response then takeResponse s f.src f.kind f.seq f.status f.payload
  else takeRequest s f

/-- Whether a frame is one of the last 64 taken from its source, requests and responses apart (R373). -/
def isDuplicate (s : State) (f : RingFrame) : Bool := (Tbl.get [] s.gal.taken f.src).contains (f.seq * 2 + b2n f.response)

/-- Notes a frame as taken. -/
def noteTaken (s : State) (f : RingFrame) : State :=
  let l := ((f.seq * 2 + b2n f.response) :: Tbl.get [] s.gal.taken f.src).take 64
  { s with gal := { s.gal with taken := Tbl.set [] s.gal.taken f.src l } }

/-- Whether a frame is discarded because its source or destination is an identity that clashes (R371); HELLOs, from which
clashes are known, pass. -/
def clashes (s : State) (f : RingFrame) : Bool :=
  f.kind != 1 && ((Tbl.find? s.gal.clash f.src).isSome || (!f.bcast && ((Tbl.find? s.gal.clash f.dest).isSome ||
    (f.dest == galId s && galBit s 29))))

/-- RING_FRAME_RECEIVE (R371 to R373). -/
def ringReceive (s : State) (ringB : Bool) (bytes : List Byte) : State :=
  if ringRuns s = false then s
  else if ringOk bytes = false then cf s 0 0xB000018 16 16
  else
    let f := readFrame bytes
    if f.src = galId s then (if s.gal.sent.contains bytes then s else setGalBit s 29 true)
    else if clashes s f then s
    else
      let mine := f.bcast ∨ f.dest = galId s
      let s := if f.bcast ∨ f.dest ≠ galId s then emit s (.ring ringB bytes) else s
      if ¬ mine then s
      else if isDuplicate s f then cf s 0 0xB000018 0 16
      else takeFrame (noteTaken s f) f

/-! ## The end of a mailbox command (R84) -/

/-- A request to the package's own identity is served as its mailbox's command ends (R376). -/
def serveLocal (s : State) (m : Nat) : State :=
  match Tbl.get none s.gal.run m with
  | some x =>
    if x.isLocal then
      let r := serveReq s false x
      let data := if x.op = 3 then (List.range 16).map (fun k => r.2.2.getD k 0) else []
      rmtEnd r.1 m r.2.1 data
    else s
  | none => s

/-- MAILBOX_COMMAND_END at a mailbox (R84); a remote mailbox's end sets RMT_DONE (R385). In a fenced tile only the mailboxes of GAL and TRC
go on (R337, R384). -/
def commandEnd (s : State) (t mb : Nat) : State :=
  if (tileSt s t).fenced ∧ mb / 0x1000000 < 0xA then s
  else if mb / 0x1000000 = 6 then insMbFinish s t ((mb - 0x6000100) / 0x80)
  else if mb / 0x1000000 = 0xB then
    if t ≠ 0 ∨ gf s 0 mb 30 1 = 0 then s
    else
      let s := mbFinish (serveLocal s ((mb - 0xB000100) / 0x80)) 0 mb
      if gf s 0 mb 30 1 = 0 then evt s 0 40 7 else s
  else mbFinish s t mb

/-! ## Meanings -/

/-- RING_FRAME_RECEIVE (R373). -/
def execRingFrameReceive (ringB : Bool) (bytes : List Byte) (s : State) : Res := .next (ringReceive s ringB bytes)

/-- MAILBOX_COMMAND_END (R84): the mailbox at `mb` of tile `t`. -/
def execMailboxCommandEnd (t mb : Nat) (s : State) : Res :=
  onUnit (decide (t < s.part.tiles) && isMb mb) (commandEnd s t mb)

end Sys2Proof.Machine
end

