-- ==== Sys2Proof/Machine/Dispatch.lean ====
section
/-! DEFINITION. One arm for each command of the opcode table: the meaning it calls. -/

namespace Sys2Proof.Machine

open Sys2Proof

/-- The effect of a command on everything but the queue of waiting commands. -/
def exec (i : Instr) (s : State) : Host.Outcome State Fault Refusal :=
  match i with
  | .registerWrite t off be v => Sys2Proof.Machine.execRegisterWrite t off be v s
  | .reservedAddressWrite t off be v => Sys2Proof.Machine.execReservedAddressWrite t off be v s
  | .crossingWriteTakesEffect t dom => Sys2Proof.Machine.execCrossingWriteTakesEffect t dom s
  | .tvRegisterRead t off => Sys2Proof.Machine.execTvRegisterRead t off s
  | .tvScrub t => Sys2Proof.Machine.execTvScrub t s
  | .mbDataWrite t mb k be v => Sys2Proof.Machine.execMbDataWrite t mb k be v s
  | .mailboxCommandEnd t mb => Sys2Proof.Machine.execMailboxCommandEnd t mb s
  | .indirectDataAccess t off wr => Sys2Proof.Machine.execIndirectDataAccess t off wr s
  | .powerGoodRise => Sys2Proof.Machine.execPowerGoodRise s
  | .packageStart mgrSel pkgId => Sys2Proof.Machine.execPackageStart mgrSel pkgId s
  | .packageReset => Sys2Proof.Machine.execPackageReset s
  | .powerDown => Sys2Proof.Machine.execPowerDown s
  | .enterService t => Sys2Proof.Machine.execEnterService t s
  | .enterRecovery t => Sys2Proof.Machine.execEnterRecovery t s
  | .enterTest t => Sys2Proof.Machine.execEnterTest t s
  | .modeCommandDone t => Sys2Proof.Machine.execModeCommandDone t s
  | .tileReset t tiles => Sys2Proof.Machine.execTileReset t tiles s
  | .tileResetComplete t => Sys2Proof.Machine.execTileResetComplete t s
  | .testMemoryBist t => Sys2Proof.Machine.execTestMemoryBist t s
  | .testPrbs t ports => Sys2Proof.Machine.execTestPrbs t ports s
  | .testNearLoopback t ports => Sys2Proof.Machine.execTestNearLoopback t ports s
  | .testFarLoopback t ports => Sys2Proof.Machine.execTestFarLoopback t ports s
  | .testStop t errors failed => Sys2Proof.Machine.execTestStop t errors failed s
  | .bistDone t errors => Sys2Proof.Machine.execBistDone t errors s
  | .jtagBoundaryScan => Sys2Proof.Machine.execJtagBoundaryScan s
  | .tapReset => Sys2Proof.Machine.execTapReset s
  | .verify => Sys2Proof.Machine.execVerify s
  | .activate => Sys2Proof.Machine.execActivate s
  | .commitFloor => Sys2Proof.Machine.execCommitFloor s
  | .enrol => Sys2Proof.Machine.execEnrol s
  | .eraseInactive => Sys2Proof.Machine.execEraseInactive s
  | .refreshFlash => Sys2Proof.Machine.execRefreshFlash s
  | .strCommandDone => Sys2Proof.Machine.execStrCommandDone s
  | .flashCopyDone => Sys2Proof.Machine.execFlashCopyDone s
  | .strImgDataWrite be v => Sys2Proof.Machine.execStrImgDataWrite be v s
  | .hostMemoryRequest r => Sys2Proof.Machine.execHostMemoryRequest r s
  | .hostRequestResolve t read => Sys2Proof.Machine.execHostRequestResolve t read s
  | .prefetchAgeExpiry t k => Sys2Proof.Machine.execPrefetchAgeExpiry t k s
  | .configRequest h f bus off wr => Sys2Proof.Machine.execConfigRequest h f bus off wr s
  | .deviceReadinessStatus h => Sys2Proof.Machine.execDeviceReadinessStatus h s
  | .hostIssue h => Sys2Proof.Machine.execHostIssue h s
  | .hostTagWait t => Sys2Proof.Machine.execHostTagWait t s
  | .hostCompletion h c => Sys2Proof.Machine.execHostCompletion h c s
  | .hostReadTimeout t e => Sys2Proof.Machine.execHostReadTimeout t e s
  | .hostTagQuarantineEnd t e => Sys2Proof.Machine.execHostTagQuarantineEnd t e s
  | .msixSend inst v => Sys2Proof.Machine.execMsixSend inst v s
  | .aspmL1Entry h => Sys2Proof.Machine.execAspmL1Entry h s
  | .rateCapWrite h v => Sys2Proof.Machine.execRateCapWrite h v s
  | .narrowWrite h v => Sys2Proof.Machine.execNarrowWrite h v s
  | .hostL0pRequest h width => Sys2Proof.Machine.execHostL0pRequest h width s
  | .wakeAssert h => Sys2Proof.Machine.execWakeAssert h s
  | .wakeTimeout h => Sys2Proof.Machine.execWakeTimeout h s
  | .retrain h => Sys2Proof.Machine.execRetrain h s
  | .ltrWrite h v => Sys2Proof.Machine.execLtrWrite h v s
  | .spdmRequest h object => Sys2Proof.Machine.execSpdmRequest h object s
  | .ideCheckFail h stream => Sys2Proof.Machine.execIdeCheckFail h stream s
  | .unlockMessage h f => Sys2Proof.Machine.execUnlockMessage h f s
  | .perstAssert h => Sys2Proof.Machine.execPerstAssert h s
  | .perstDeassert h => Sys2Proof.Machine.execPerstDeassert h s
  | .hotReset h => Sys2Proof.Machine.execHotReset h s
  | .dlDown h => Sys2Proof.Machine.execDlDown h s
  | .flrInstanceFunction h f => Sys2Proof.Machine.execFlrInstanceFunction h f s
  | .flrPf h f => Sys2Proof.Machine.execFlrPf h f s
  | .flrManagerFunction => Sys2Proof.Machine.execFlrManagerFunction s
  | .linkTraining t n steps => Sys2Proof.Machine.execLinkTraining t n steps s
  | .trainingStepTimeout t n => Sys2Proof.Machine.execTrainingStepTimeout t n s
  | .identifyRetry t n identity => Sys2Proof.Machine.execIdentifyRetry t n identity s
  | .tileLinkTraining t n steps => Sys2Proof.Machine.execTileLinkTraining t n steps s
  | .change t n => Sys2Proof.Machine.execChange t n s
  | .lcrReceive t n reqNum identity rate width => Sys2Proof.Machine.execLcrReceive t n reqNum identity rate width s
  | .lcrAckReceive t n reqNum => Sys2Proof.Machine.execLcrAckReceive t n reqNum s
  | .lcrRefuseReceive t n reqNum => Sys2Proof.Machine.execLcrRefuseReceive t n reqNum s
  | .lcrTimeout t n => Sys2Proof.Machine.execLcrTimeout t n s
  | .liveChangeComplete t n => Sys2Proof.Machine.execLiveChangeComplete t n s
  | .down t n => Sys2Proof.Machine.execDown t n s
  | .disable t n => Sys2Proof.Machine.execDisable t n s
  | .downReceive t n => Sys2Proof.Machine.execDownReceive t n s
  | .lockLoss t n => Sys2Proof.Machine.execLockLoss t n s
  | .recoveryComplete t n steps => Sys2Proof.Machine.execRecoveryComplete t n steps s
  | .locklossTimerExpiry t n => Sys2Proof.Machine.execLocklossTimerExpiry t n s
  | .flitTransmit t n => Sys2Proof.Machine.execFlitTransmit t n s
  | .flitReceive t n codewords bytes => Sys2Proof.Machine.execFlitReceive t n codewords bytes s
  | .nakTimerExpiry t n seq => Sys2Proof.Machine.execNakTimerExpiry t n seq s
  | .nakResume t n => Sys2Proof.Machine.execNakResume t n s
  | .replayTimerExpiry t n => Sys2Proof.Machine.execReplayTimerExpiry t n s
  | .creditStallTimer t n cls => Sys2Proof.Machine.execCreditStallTimer t n cls s
  | .wrReceive t n read => Sys2Proof.Machine.execWrReceive t n read s
  | .rdReceive t n => Sys2Proof.Machine.execRdReceive t n s
  | .heldReadSlotTake t n read => Sys2Proof.Machine.execHeldReadSlotTake t n read s
  | .eventAssert t n => Sys2Proof.Machine.execEventAssert t n s
  | .eventDeassert t n => Sys2Proof.Machine.execEventDeassert t n s
  | .eventEdge t n => Sys2Proof.Machine.execEventEdge t n s
  | .rspReceive t n => Sys2Proof.Machine.execRspReceive t n s
  | .ltpRspTimeout t n tag => Sys2Proof.Machine.execLtpRspTimeout t n tag s
  | .lockBeginSend t n => Sys2Proof.Machine.execLockBeginSend t n s
  | .lockWaitExpiry t n => Sys2Proof.Machine.execLockWaitExpiry t n s
  | .frameArrival t p => Sys2Proof.Machine.execFrameArrival t p s
  | .frameAdmit t p => Sys2Proof.Machine.execFrameAdmit t p s
  | .poolTransfer t f => Sys2Proof.Machine.execPoolTransfer t f s
  | .transitForward t out => Sys2Proof.Machine.execTransitForward t out s
  | .outputArbitration t out read => Sys2Proof.Machine.execOutputArbitration t out read s
  | .queueUrgent t out inp cls => Sys2Proof.Machine.execQueueUrgent t out inp cls s
  | .frameAgeExpiry t out inp cls => Sys2Proof.Machine.execFrameAgeExpiry t out inp cls s
  | .frameAbort t f ecc => Sys2Proof.Machine.execFrameAbort t f ecc s
  | .swcCntRead t => Sys2Proof.Machine.execSwcCntRead t s
  | .swcCntWrite t => Sys2Proof.Machine.execSwcCntWrite t s
  | .wttWindowRead t => Sys2Proof.Machine.execWttWindowRead t s
  | .wttWindowWrite t => Sys2Proof.Machine.execWttWindowWrite t s
  | .wttEntryRead t m => Sys2Proof.Machine.execWttEntryRead t m s
  | .wttEntryWrite t m => Sys2Proof.Machine.execWttEntryWrite t m s
  | .fill t m => Sys2Proof.Machine.execFill t m s
  | .fence t inst => Sys2Proof.Machine.execFence t inst s
  | .fenceComplete t => Sys2Proof.Machine.execFenceComplete t s
  | .restamp t inst => Sys2Proof.Machine.execRestamp t inst s
  | .restampComplete t => Sys2Proof.Machine.execRestampComplete t s
  | .holdRelease id => Sys2Proof.Machine.execHoldRelease id s
  | .zeroLengthReadComplete t n => Sys2Proof.Machine.execZeroLengthReadComplete t n s
  | .doorbellWrite inst q off be v => Sys2Proof.Machine.execDoorbellWrite inst q off be v s
  | .inlineDoorbell inst q enables bytes => Sys2Proof.Machine.execInlineDoorbell inst q enables bytes s
  | .queueEnable t q => Sys2Proof.Machine.execQueueEnable t q s
  | .queueResume t q => Sys2Proof.Machine.execQueueResume t q s
  | .queueSkip t q => Sys2Proof.Machine.execQueueSkip t q s
  | .queueReset t q => Sys2Proof.Machine.execQueueReset t q s
  | .queueResetComplete t q => Sys2Proof.Machine.execQueueResetComplete t q s
  | .cplHeadWrite t q be v => Sys2Proof.Machine.execCplHeadWrite t q be v s
  | .descriptorFetch t q => Sys2Proof.Machine.execDescriptorFetch t q s
  | .localRingPoll t q => Sys2Proof.Machine.execLocalRingPoll t q s
  | .descriptorStart t q => Sys2Proof.Machine.execDescriptorStart t q s
  | .completionEntryWrite t q => Sys2Proof.Machine.execCompletionEntryWrite t q s
  | .dmaQctxRead t => Sys2Proof.Machine.execDmaQctxRead t s
  | .dmaQctxWrite t => Sys2Proof.Machine.execDmaQctxWrite t s
  | .setShare t => Sys2Proof.Machine.execSetShare t s
  | .qctxCommand t => Sys2Proof.Machine.execQctxCommand t s
  | .readIssue t => Sys2Proof.Machine.execReadIssue t s
  | .dmaUrgent t q prio => Sys2Proof.Machine.execDmaUrgent t q prio s
  | .drrEpoch t => Sys2Proof.Machine.execDrrEpoch t s
  | .dmaReadData t => Sys2Proof.Machine.execDmaReadData t s
  | .dmaReadTimeout t tag => Sys2Proof.Machine.execDmaReadTimeout t tag s
  | .writeIssue t => Sys2Proof.Machine.execWriteIssue t s
  | .writeSettle t => Sys2Proof.Machine.execWriteSettle t s
  | .writeSettleTimeout t w => Sys2Proof.Machine.execWriteSettleTimeout t w s
  | .dmaAbortReport t => Sys2Proof.Machine.execDmaAbortReport t s
  | .queueHalt t q => Sys2Proof.Machine.execQueueHalt t q s
  | .dmaCntRead t => Sys2Proof.Machine.execDmaCntRead t s
  | .dmaCntWrite t => Sys2Proof.Machine.execDmaCntWrite t s
  | .instanceRead t m => Sys2Proof.Machine.execInstanceRead t m s
  | .instanceWrite t m => Sys2Proof.Machine.execInstanceWrite t m s
  | .create t m => Sys2Proof.Machine.execCreate t m s
  | .remove t m => Sys2Proof.Machine.execRemove t m s
  | .bind t m => Sys2Proof.Machine.execBind t m s
  | .unbind t m => Sys2Proof.Machine.execUnbind t m s
  | .freeze t m => Sys2Proof.Machine.execFreeze t m s
  | .freezeComplete inst => Sys2Proof.Machine.execFreezeComplete inst s
  | .instanceResume t m => Sys2Proof.Machine.execInstanceResume t m s
  | .instanceResetCommand t m => Sys2Proof.Machine.execInstanceResetCommand t m s
  | .setWeight t m => Sys2Proof.Machine.execSetWeight t m s
  | .logClear t m => Sys2Proof.Machine.execLogClear t m s
  | .logCmdClear inst => Sys2Proof.Machine.execLogCmdClear inst s
  | .logClearComplete inst => Sys2Proof.Machine.execLogClearComplete inst s
  | .logEnable inst => Sys2Proof.Machine.execLogEnable inst s
  | .dirtyLogEntryWrite inst => Sys2Proof.Machine.execDirtyLogEntryWrite inst s
  | .instanceReset inst => Sys2Proof.Machine.execInstanceReset inst s
  | .instanceResetStallEnd inst => Sys2Proof.Machine.execInstanceResetStallEnd inst s
  | .instanceResetDrainEnd inst => Sys2Proof.Machine.execInstanceResetDrainEnd inst s
  | .release inst => Sys2Proof.Machine.execRelease inst s
  | .eventPinChange t p level => Sys2Proof.Machine.execEventPinChange t p level s
  | .pendingWordWrite t w be v => Sys2Proof.Machine.execPendingWordWrite t w be v s
  | .pendingWordRead t w => Sys2Proof.Machine.execPendingWordRead t w s
  | .routeWrite t src route => Sys2Proof.Machine.execRouteWrite t src route s
  | .evcDelivery t => Sys2Proof.Machine.execEvcDelivery t s
  | .targetDone t x check seq => Sys2Proof.Machine.execTargetDone t x check seq s
  | .holdoffExpiry t g => Sys2Proof.Machine.execHoldoffExpiry t g s
  | .faultRecord t b c inst detail => Sys2Proof.Machine.execFaultRecord t b c inst detail s
  | .headframeFaultService t => Sys2Proof.Machine.execHeadframeFaultService t s
  | .faultAcknowledge t b bits => Sys2Proof.Machine.execFaultAcknowledge t b bits s
  | .classBExpiry t b inst => Sys2Proof.Machine.execClassBExpiry t b inst s
  | .classCExpiry t b => Sys2Proof.Machine.execClassCExpiry t b s
  | .hfWatchdog t => Sys2Proof.Machine.execHfWatchdog t s
  | .dumpWrite => Sys2Proof.Machine.execDumpWrite s
  | .dumpComplete => Sys2Proof.Machine.execDumpComplete s
  | .dumpRelease slot => Sys2Proof.Machine.execDumpRelease slot s
  | .faultLossSummary t b => Sys2Proof.Machine.execFaultLossSummary t b s
  | .crystalStop => Sys2Proof.Machine.execCrystalStop s
  | .crystalResume => Sys2Proof.Machine.execCrystalResume s
  | .timestampRead => Sys2Proof.Machine.execTimestampRead s
  | .timestampWrite => Sys2Proof.Machine.execTimestampWrite s
  | .slew => Sys2Proof.Machine.execSlew s
  | .slewEnd => Sys2Proof.Machine.execSlewEnd s
  | .canarySample readings => Sys2Proof.Machine.execCanarySample readings s
  | .voltageRaiseStep readings acked => Sys2Proof.Machine.execVoltageRaiseStep readings acked s
  | .replanStart readings => Sys2Proof.Machine.execReplanStart readings s
  | .planNow readings => Sys2Proof.Machine.execPlanNow readings s
  | .eqTrialEnd t n trial => Sys2Proof.Machine.execEqTrialEnd t n trial s
  | .replanEnd eyes => Sys2Proof.Machine.execReplanEnd eyes s
  | .maintGrant t minutes scope => Sys2Proof.Machine.execMaintGrant t minutes scope s
  | .maintWindowEnd t => Sys2Proof.Machine.execMaintWindowEnd t s
  | .helloSend => Sys2Proof.Machine.execHelloSend s
  | .ringFrameReceive ringB bytes => Sys2Proof.Machine.execRingFrameReceive ringB bytes s
  | .ringRxDown ringB => Sys2Proof.Machine.execRingRxDown ringB s
  | .ringRxUp ringB => Sys2Proof.Machine.execRingRxUp ringB s
  | .packageLost p => Sys2Proof.Machine.execPackageLost p s
  | .rread m => Sys2Proof.Machine.execRread m s
  | .rwrite m => Sys2Proof.Machine.execRwrite m s
  | .distImg m => Sys2Proof.Machine.execDistImg m s
  | .hfErase m => Sys2Proof.Machine.execHfErase m s
  | .distHf m => Sys2Proof.Machine.execDistHf m s
  | .hfCheck m => Sys2Proof.Machine.execHfCheck m s
  | .remoteTimeout m => Sys2Proof.Machine.execRemoteTimeout m s
  | .timeSend => Sys2Proof.Machine.execTimeSend s
  | .galSyncEdge => Sys2Proof.Machine.execGalSyncEdge s
  | .syncLost => Sys2Proof.Machine.execSyncLost s
  | .followingTimeout => Sys2Proof.Machine.execFollowingTimeout s
  | .traceLossSummary t b => Sys2Proof.Machine.execTraceLossSummary t b s
  | .alarmRead t => Sys2Proof.Machine.execAlarmRead t s
  | .alarmAck t => Sys2Proof.Machine.execAlarmAck t s
  | .alarmWrite t => Sys2Proof.Machine.execAlarmWrite t s
  | .governorWindow t wanted => Sys2Proof.Machine.execGovernorWindow t wanted s
  | .tempSample t r0 r1 r2 r3 => Sys2Proof.Machine.execTempSample t r0 r1 r2 r3 s
  | .vbatSample mv => Sys2Proof.Machine.execVbatSample mv s
  | .chargeControlWrite be v => Sys2Proof.Machine.execChargeControlWrite be v s
  | .pmbusRetry acked => Sys2Proof.Machine.execPmbusRetry acked s
  | .vrmAlert => Sys2Proof.Machine.execVrmAlert s
  | .smbusBlockRead cmd => Sys2Proof.Machine.execSmbusBlockRead cmd s
  | .dlUp h rate width flit => Sys2Proof.Machine.execDlUp h rate width flit s
  | .rateChanged h rate => Sys2Proof.Machine.execRateChanged h rate s
  | .l0pChanged h width => Sys2Proof.Machine.execL0pChanged h width s
  | .ltpHeldRead t n => Sys2Proof.Machine.execLtpHeldRead t n s
  | .readVoutSample acked readback => Sys2Proof.Machine.execReadVoutSample acked readback s
  | .vbatLost => Sys2Proof.Machine.execVbatLost s

end Sys2Proof.Machine
end

