-- ==== Sys2Proof/Machine/Tick.lean ====
section
/-! DEFINITION. One tick of the 32.768 kHz crystal, which the block takes while no command waits (log entry 8): the calendar
(R350), the record buckets (R388, R390), the escalation timers (R334, R335), the minutes of maintenance windows (R364), the
instants since which event targets wait (R317), and the manager's GAL_SYNC edge (R382). -/

namespace Sys2Proof.Machine

open Sys2Proof

/-- Units of 1/32,768 token a bucket of `rate` tokens per millisecond gains in one tick. -/
abbrev refill (rate : Nat) : Nat := rate * 1000

/-- A tile's trace and fault-record buckets fill (R388, R390). -/
def refillTile (s : State) (t : Nat) : State :=
  let put (tb : Tbl Nat) (b : Nat) : Tbl Nat :=
    let k := t * 16 + b
    Tbl.set 0 tb k (Tbl.get 0 tb k - refill (gf s t (0xD000100 + 8 * b) 16 10))
  let s := { s with trc := { s.trc with tokensUsed := (List.range 14).foldl put s.trc.tokensUsed } }
  { s with flt := { s.flt with tokensUsed := Tbl.set 0 s.flt.tokensUsed t (Tbl.get 0 s.flt.tokensUsed t - refill 1) } }

/-- The deadlines run, in units of 1/512 µs: a tick is 15,625 of them (R334, R335). -/
def runDeadlines (s : State) : State :=
  { s with flt := { s.flt with deadlines := s.flt.deadlines.map (fun d => if d.fired then d else { d with left := d.left - 15625 }) } }

/-- The minutes of an open maintenance window (R364): the last one ends with MAINT_WINDOW_END. -/
def maintMinute (s : State) (t : Nat) : State :=
  if gf s t 0x9000084 30 1 = 0 then s
  else
    let n := Tbl.get 0 s.age.maintTicks t + 1
    let put (s : State) (n : Nat) : State := { s with age := { s.age with maintTicks := Tbl.set 0 s.age.maintTicks t n } }
    if n < 60 * 32768 then put s n else sf (put s 0) t 0x9000094 8 8 (Nat.max 1 (gf s t 0x9000094 8 8 - 1))

/-- The calendar's tick, on the crystal or on SYSCLK in its place; at a whole second the manager drives the GAL_SYNC it has
announced (R382). -/
def calendarTick (s : State) : State :=
  if s.cal.dead ∨ (s.cal.still ∧ s.core.pwrgood = false) then s
  else
    let s' := { s with cal := calTick s.cal s.ticks }
    if s'.cal.sec ≠ s.cal.sec ∧ s.gal.syncDue then emit { s' with gal := { s'.gal with syncDue := false } } .galSync else s'

/-- One crystal tick. What lies behind the core rail runs only while main power is good and RESET_N high. -/
def crystalTick (s : State) : State :=
  let s := calendarTick s
  let s := { s with ticks := s.ticks + 1 }
  if s.core.pwrgood = false ∨ s.core.resetN = false then s
  else
    (List.range s.part.tiles).foldl (fun s t => if mode s t ≤ 1 then s else evcRefresh (maintMinute (refillTile s t) t) t)
      (runDeadlines s)

end Sys2Proof.Machine
end

