-- ==== Sys2Proof/Machine/Line.lean ====
section
/-! DEFINITION. The line coding of Lode links (R118 to R123): what the lanes carry for the flits a slot sends. A view of
the flits in the outbox. -/

namespace Sys2Proof.Machine

open Sys2Proof

/-- The bits of a byte, bit 0 first (R120). -/
def byteBits (b : Byte) : List Bool := (List.range 8).map (fun k => b.getLsbD k)

/-- The message bits of consecutive flits: byte 0 first (R120). -/
def flitBits (l : List Byte) : List Bool := l.flatMap byteBits

/-- The flits a slot has sent since its last ALIGN, whose end begins codeword 0 of superframe 0 and seeds the lanes (R121, R123, R127):
each training, live change and recovery aligns anew. -/
def sentFlits (out : List Out) (t n : Nat) : List (List Byte) :=
  out.foldl (fun l o => match o with
    | .train t' n' _ _ => if t' = t ∧ n' = n then [] else l
    | .flit t' n' b => if t' = t ∧ n' = n then l ++ [b] else l
    | _ => l) []

/-- The flits of a superframe (R121). -/
abbrev superFlits : Nat := 1285

/-- The codewords of a superframe (R121). -/
abbrev superCodewords : Nat := 512

/-- A shift register with taps at its last stage and at stage `tap`: its next contents. -/
def shiftOn {w : Nat} (tap : Nat) (x : BitVec w) : BitVec w :=
  x <<< 1 ||| BitVec.ofNat w (b2n (x.getLsbD (w - 1) ^^ x.getLsbD (tap - 1)))

/-- Bits XORed with the sequence of a shift register, which gives its last stage. -/
def scrambleBits {w : Nat} (tap : Nat) : BitVec w → List Bool → List Bool
  | _, [] => []
  | x, b :: l => (b ^^ x.getLsbD (w - 1)) :: scrambleBits tap (shiftOn tap x) l

/-- PRBS31, x^31 + x^28 + 1, all ones at the first bit of a superframe (R120). -/
def scrambleBoard (l : List Bool) : List Bool := scrambleBits 28 (BitVec.allOnes 31) l

/-- PRBS23, x^23 + x^18 + 1, seeded with the lane number in bits 6..0 and ones elsewhere (R123). -/
def scrambleTile (lane : Nat) (l : List Bool) : List Bool :=
  scrambleBits 18 (BitVec.ofNat 23 ((2 ^ 16 - 1) * 2 ^ 7 + lane % 2 ^ 7)) l

/-- The number whose bits, lowest first, are these. -/
def bitsNat : List Bool → Nat
  | [] => 0
  | b :: l => b2n b + 2 * bitsNat l

/-- Groups of n bits, as numbers, the first bit of a group lowest (R120). -/
def groupsOf (n : Nat) : Nat → List Bool → List Nat
  | 0, _ => []
  | k + 1, l => bitsNat (l.take n) :: groupsOf n k (l.drop n)

/-- A symbol of GF(2^10) times α, by the field polynomial x^10 + x^3 + 1 of IEEE 802.3 Clause 91. PRESUMED: log entry 28. -/
def gfTwice (x : BitVec 10) : BitVec 10 := x <<< 1 ^^^ (if x.getLsbD 9 then 0x9#10 else 0#10)

/-- A product in GF(2^10). -/
def gfMul (x y : BitVec 10) : BitVec 10 :=
  ((List.range 10).reverse).foldl (fun a k => gfTwice a ^^^ (if y.getLsbD k then x else 0#10)) 0#10

/-- A polynomial, highest coefficient first, times x + r. -/
def polyTimes (l : List (BitVec 10)) (r : BitVec 10) : List (BitVec 10) :=
  List.zipWith (· ^^^ ·) (l ++ [0#10]) (0#10 :: l.map (gfMul r))

/-- α to the j-th. -/
def gfPow : Nat → BitVec 10
  | 0 => 1#10
  | j + 1 => gfTwice (gfPow j)

/-- The generator polynomial, the product of x + α^j for j = 0 to 29 (R120). PRESUMED: log entry 28. -/
def rsGenerator : List (BitVec 10) := (List.range 30).foldl (fun g j => polyTimes g (gfPow j)) [1#10]

/-- One step of the division by the generator: the remainder after the next message symbol. -/
def rsStep (tail rem : List (BitVec 10)) (m : BitVec 10) : List (BitVec 10) :=
  let q := m ^^^ rem.headD 0#10
  List.zipWith (fun r g => r ^^^ gfMul q g) (rem.drop 1 ++ [0#10]) tail

/-- The RS(544,514) codeword of 514 message symbols: the message, then 30 parity symbols (R120). -/
def rsCodeword (msg : List (BitVec 10)) : List (BitVec 10) :=
  let tail := rsGenerator.drop 1
  msg ++ msg.foldl (rsStep tail) (List.replicate 30 0#10)

/-- The codewords of one superframe of 1,285 flits (R120, R121). -/
def superframe (flits : List (List Byte)) : List (List (BitVec 10)) :=
  let symbols := (groupsOf 10 (superCodewords * 514) (scrambleBoard (flits.flatMap flitBits))).map (BitVec.ofNat 10)
  (List.range superCodewords).map (fun c => rsCodeword ((symbols.drop (514 * c)).take 514))

/-- Superframe `k` of a board-reach link, kept by counting from ALIGN (R121). -/
def superframeAt (out : List Out) (t n k : Nat) : List (List (BitVec 10)) :=
  superframe ((sentFlits out t n).drop (superFlits * k) |>.take superFlits)

/-- The PAM4 level of a bit pair, its first bit the low one (R119). -/
def pam4 (low high : Bool) : Int :=
  match high, low with
  | false, false => -3
  | false, true => -1
  | true, true => 1
  | true, false => 3

/-- The five PAM4 levels of a symbol, bits 1..0 first (R122). -/
def symbolLevels (x : BitVec 10) : List Int :=
  (List.range 5).map (fun k => pam4 (x.getLsbD (2 * k)) (x.getLsbD (2 * k + 1)))

/-- The symbols of a codeword that logical lane `lane` of W carries, in order (R122). -/
def laneSymbols (w lane : Nat) (cw : List (BitVec 10)) : List (BitVec 10) :=
  (cw.zipIdx.filter (fun e => e.2 % w == lane)).map Prod.fst

/-- 1/(1 + D) precoding of levels, where it is used (R119). PRESUMED of IEEE 802.3: log entry 28. -/
def precode (prev : Nat) : List Int → List Int
  | [] => []
  | v :: l =>
    let p := (((v + 3) / 2).toNat + 4 - prev % 4) % 4
    (2 * (p : Int) - 3) :: precode p l

/-- The bits a logical lane of a tile link carries for a stream dealt over `lanes` lanes, 96 or 48 (R123). -/
def tileLaneBits (lanes lane : Nat) (stream : List Bool) : List Bool :=
  scrambleTile lane ((stream.zipIdx.filter (fun e => e.2 % lanes == lane)).map Prod.fst)

/-- What a logical lane of a tile link has carried since ALIGN (R123). -/
def tileLane (out : List Out) (t n lanes lane : Nat) : List Bool := tileLaneBits lanes lane (flitBits ((sentFlits out t n).flatten))

end Sys2Proof.Machine
end

