-- ==== Sys2Proof/Machine/Pins.lean ====
section
/-! DEFINITION. The package outline's ball map (R409 to R414): which pin each ball of the 86 by 86 array carries. -/

namespace Sys2Proof.Machine

open Sys2Proof

/-- The letters that name rows (R409). -/
def rowLetters : List Char :=
  ['A', 'B', 'C', 'D', 'E', 'F', 'G', 'H', 'J', 'K', 'L', 'M', 'N', 'P', 'T', 'U', 'V', 'W', 'Y']

/-- The name of a row, 1 to 86 (R409). -/
def rowName (i : Nat) : List Char :=
  let letter (k : Nat) : Char := rowLetters.getD k ' '
  if i < 20 then [letter (i - 1)] else [letter ((i - 20) / 19), letter ((i - 20) % 19)]

/-- Supplies and grounds. -/
inductive Rail where
  | vss
  | vddCore
  | vddSram
  | vddHphy
  | vddHphyHv
  | vddLphy
  | vddTl
  | vddIo
  deriving DecidableEq, Repr

/-- Signals of a tile (R410); `neg` marks the N leg of a pair. -/
inductive TilePin where
  | htx (lane : Nat) (neg : Bool)
  | hrx (lane : Nat) (neg : Bool)
  | ltx (p lane : Nat) (neg : Bool)
  | lrx (p lane : Nat) (neg : Bool)
  | hrefclk (k : Nat) (neg : Bool)
  | lrefclk (neg : Bool)
  | perstN (k : Nat)
  | wakeN (k : Nat)
  | evtIn (m : Nat)
  deriving DecidableEq, Repr

/-- Signals of the package (R410, R413). -/
inductive GlobalPin where
  | galA (tx neg : Bool)
  | galB (tx neg : Bool)
  | galSync
  | sysclk
  | xtalIn
  | xtalOut
  | vbat
  | aonCap
  | resetN
  | pwrgood
  | smbScl
  | smbSda
  | pmbScl
  | pmbSda
  | pmbAlertN
  | thermtripN
  | mgrSel
  | pkgId (b : Nat)
  | spiClk
  | spiCsN
  | spiResetN
  | spiDq (b : Nat)
  | tck
  | tms
  | tdi
  | tdo
  | trstN
  deriving DecidableEq, Repr

/-- What a ball is. -/
inductive Ball where
  | none
  | rail (r : Rail)
  | tile (t : Nat) (p : TilePin)
  | pkg (p : GlobalPin)
  | unconnected
  deriving DecidableEq, Repr

/-- The pin of a differential pair's leg (R412); no pin for pairs 101 to 104. -/
def pairPin (p : Nat) (neg : Bool) : Option TilePin :=
  if p < 16 then some (.htx p neg)
  else if p < 32 then some (.hrx (p - 16) neg)
  else if p < 64 then some (.ltx ((p - 32) / 8) ((p - 32) % 8) neg)
  else if p < 96 then some (.lrx ((p - 64) / 8) ((p - 64) % 8) neg)
  else if p < 100 then some (.hrefclk (p - 96) neg)
  else if p = 100 then some (.lrefclk neg)
  else none

/-- The contents of ball (d, k) of a tile region (R412): a pin, else a rail. -/
def regionBall (d k : Nat) : TilePin ⊕ Rail :=
  if d ≤ 29 then
    if d % 2 = 0 then
      if k % 3 = 0 then .inr .vss
      else match pairPin (d / 2 * 7 + (k - 1) / 3) (decide (k % 3 = 2)) with
        | some p => .inl p
        | none => .inr .vss
    else if k % 2 = 0 then .inr .vss
    else if d ≤ 7 then .inr .vddHphy
    else if d = 9 then .inr .vddHphyHv
    else .inr .vddLphy
  else if d = 30 then
    if k < 4 then .inl (.perstN k) else if k < 8 then .inl (.wakeN (k - 4)) else .inl (.evtIn (k - 8))
  else if d = 31 then .inr (if k % 2 = 0 then .vss else .vddTl)
  else if 13 + 21 * (d - 32) + k < 64 then .inl (.evtIn (13 + 21 * (d - 32) + k))
  else .inr (if k % 2 = 0 then .vss else .vddIo)

/-- The signals of the global zone by row and column (R413); the rows are AV (36) to BK (48). -/
def globalPin (i j : Nat) : Option GlobalPin :=
  match rowName i, j with
  | ['A', 'V'], 2 => some (.galA true false)
  | ['A', 'V'], 3 => some (.galA true true)
  | ['A', 'V'], 5 => some (.galB true false)
  | ['A', 'V'], 6 => some (.galB true true)
  | ['A', 'Y'], 2 => some (.galA false false)
  | ['A', 'Y'], 3 => some (.galA false true)
  | ['A', 'Y'], 5 => some (.galB false false)
  | ['A', 'Y'], 6 => some (.galB false true)
  | ['B', 'B'], 2 => some .galSync
  | ['B', 'B'], 3 => some .sysclk
  | ['B', 'B'], 5 => some .xtalIn
  | ['B', 'B'], 6 => some .xtalOut
  | ['B', 'C'], 2 => some .vbat
  | ['B', 'C'], 3 => some .aonCap
  | ['B', 'C'], 5 => some .resetN
  | ['B', 'C'], 6 => some .pwrgood
  | ['B', 'D'], 2 => some .smbScl
  | ['B', 'D'], 3 => some .smbSda
  | ['B', 'D'], 5 => some .pmbScl
  | ['B', 'D'], 6 => some .pmbSda
  | ['B', 'E'], 2 => some .pmbAlertN
  | ['B', 'E'], 3 => some .thermtripN
  | ['B', 'E'], 5 => some .mgrSel
  | ['B', 'E'], 6 => some (.pkgId 0)
  | ['B', 'F'], 2 => some (.pkgId 1)
  | ['B', 'F'], 3 => some (.pkgId 2)
  | ['B', 'F'], 5 => some (.pkgId 3)
  | ['B', 'F'], 6 => some (.pkgId 4)
  | ['B', 'G'], 2 => some .spiClk
  | ['B', 'G'], 3 => some .spiCsN
  | ['B', 'G'], 5 => some .spiResetN
  | ['B', 'H'], 2 => some (.spiDq 0)
  | ['B', 'H'], 3 => some (.spiDq 1)
  | ['B', 'H'], 5 => some (.spiDq 2)
  | ['B', 'H'], 6 => some (.spiDq 3)
  | ['B', 'J'], 2 => some .tck
  | ['B', 'J'], 3 => some .tms
  | ['B', 'J'], 5 => some .tdi
  | ['B', 'J'], 6 => some .tdo
  | ['B', 'K'], 2 => some .trstN
  | _, _ => none

/-- The ball at row i and column j, 1 to 86, of a member (R411 to R414). -/
def ballAt (p : Part) (i j : Nat) : Ball :=
  if 36 ≤ i ∧ i ≤ 51 then
    if j ≤ 8 then
      match globalPin i j with
      | some g => .pkg g
      | none => .rail (if j = 8 then .vddIo else .vss)
    else if 32 ≤ j ∧ j ≤ 55 then .none
    else if (i + j) % 2 = 1 then .rail .vss
    else .rail (if j ≤ 78 then .vddCore else .vddSram)
  else if j = 1 ∨ j = 86 then .rail .vss
  else
    let t := (j - 2) / 21 + (if i ≤ 35 then 0 else 4)
    match regionBall (if i ≤ 35 then i - 1 else 86 - i) ((j - 2) % 21) with
    | .inl x => if t < p.tiles then .tile t x else .unconnected
    | .inr r => .rail r

end Sys2Proof.Machine
end

