-- ==== Sys2Proof/WellFormed.lean ====
section
/-! DEFINITION. Which commands name units that a part has: a part of `tiles` tiles has four host links, eight local
link slots and three tile-link slots, 512 instances and 16384 queues a tile (R2, R3, R7, R83, R311, R317). -/

namespace Sys2Proof

/-- A tile of the part (R2). -/
def Wf.tile (tiles t : Nat) : Bool := decide (t < tiles)

/-- A host link: four a tile (R2). -/
def Wf.link (tiles h : Nat) : Bool := decide (h < 4 * tiles)

/-- An instance: 512 a tile (R2). -/
def Wf.inst (tiles i : Nat) : Bool := decide (i < 512 * tiles)

/-- A tile queue (R2). -/
def Wf.queue (tiles t q : Nat) : Bool := decide (t < tiles) && decide (q < 16384)

/-- A link slot: eight local ports and three tile links (R7, R14). -/
def Wf.slot (tiles t n : Nat) : Bool := decide (t < tiles) && decide (n < 11)

/-- A slot of a local port. -/
def Wf.localSlot (tiles t n : Nat) : Bool := decide (t < tiles) && decide (n < 8)

/-- A switch port (R186). -/
def Wf.port (tiles t p : Nat) : Bool := decide (t < tiles) && decide (p < 12)

/-- A switch output (R191). -/
def Wf.out (tiles t o : Nat) : Bool := decide (t < tiles) && decide (o < 19)

/-- One of a tile's four mailboxes of the window and instance commands (R218, R285). -/
def Wf.mb (tiles t m : Nat) : Bool := decide (t < tiles) && decide (m < 4)

/-- A fault bank (R329). -/
def Wf.bank (tiles t b : Nat) : Bool := decide (t < tiles) && decide (b < 14)

/-- An offset in a tile's space (R70). -/
def Wf.reg (tiles t off : Nat) : Bool := decide (t < tiles) && decide (off < 0x10000000)

/-- A command is well formed for a part of `part` tiles when every unit it names is there. -/
def Instr.wf (part : Nat) : Instr → Bool
  | .registerWrite t off _ _ => Wf.reg part t off
  | .reservedAddressWrite t off _ _ => Wf.reg part t off
  | .crossingWriteTakesEffect t _ => Wf.tile part t
  | .tvRegisterRead t off => Wf.reg part t off
  | .tvScrub t => Wf.tile part t
  | .mbDataWrite t mb k _ _ => Wf.tile part t && Machine.mbWord mb k
  | .mailboxCommandEnd t mb => Wf.tile part t && Machine.isMb mb
  | .indirectDataAccess t off _ => Wf.reg part t off
  | .powerGoodRise => true
  | .packageStart _ _ => true
  | .packageReset => true
  | .powerDown => true
  | .enterService t => Wf.tile part t
  | .enterRecovery t => Wf.tile part t
  | .enterTest t => Wf.tile part t
  | .modeCommandDone t => Wf.tile part t
  | .tileReset t _ => Wf.tile part t
  | .tileResetComplete t => Wf.tile part t
  | .testMemoryBist t => Wf.tile part t
  | .testPrbs t _ => Wf.tile part t
  | .testNearLoopback t _ => Wf.tile part t
  | .testFarLoopback t _ => Wf.tile part t
  | .testStop t _ _ => Wf.tile part t
  | .bistDone t _ => Wf.tile part t
  | .jtagBoundaryScan => true
  | .tapReset => true
  | .verify => true
  | .activate => true
  | .commitFloor => true
  | .enrol => true
  | .eraseInactive => true
  | .refreshFlash => true
  | .strCommandDone => true
  | .flashCopyDone => true
  | .strImgDataWrite _ _ => true
  | .hostMemoryRequest r => Wf.link part r.link
  | .hostRequestResolve t _ => Wf.tile part t
  | .prefetchAgeExpiry t k => Wf.tile part t && decide (k < 256)
  | .configRequest h _ _ _ _ => Wf.link part h
  | .deviceReadinessStatus h => Wf.link part h
  | .hostIssue h => Wf.link part h
  | .hostTagWait t => Wf.tile part t
  | .hostCompletion h _ => Wf.link part h
  | .hostReadTimeout t e => Wf.tile part t && decide (e < 4096)
  | .hostTagQuarantineEnd t e => Wf.tile part t && decide (e < 4096)
  | .msixSend i _ => Wf.inst part i || i == 4096
  | .aspmL1Entry h => Wf.link part h
  | .rateCapWrite h _ => Wf.link part h
  | .narrowWrite h _ => Wf.link part h
  | .hostL0pRequest h _ => Wf.link part h
  | .wakeAssert h => Wf.link part h
  | .wakeTimeout h => Wf.link part h
  | .retrain h => Wf.link part h
  | .ltrWrite h _ => Wf.link part h
  | .spdmRequest h _ => Wf.link part h
  | .ideCheckFail h stream => Wf.link part h && decide (stream < 9)
  | .unlockMessage h _ => Wf.link part h
  | .perstAssert h => Wf.link part h
  | .perstDeassert h => Wf.link part h
  | .hotReset h => Wf.link part h
  | .dlDown h => Wf.link part h
  | .flrInstanceFunction h _ => Wf.link part h
  | .flrPf h _ => Wf.link part h
  | .flrManagerFunction => true
  | .linkTraining t n _ => Wf.localSlot part t n
  | .trainingStepTimeout t n => Wf.slot part t n
  | .identifyRetry t n _ => Wf.localSlot part t n
  | .tileLinkTraining t n _ => Wf.slot part t n && decide (8 ≤ n)
  | .change t n => Wf.slot part t n
  | .lcrReceive t n _ _ _ _ => Wf.slot part t n
  | .lcrAckReceive t n _ => Wf.slot part t n
  | .lcrRefuseReceive t n _ => Wf.slot part t n
  | .lcrTimeout t n => Wf.slot part t n
  | .liveChangeComplete t n => Wf.slot part t n
  | .down t n => Wf.slot part t n
  | .disable t n => Wf.slot part t n
  | .downReceive t n => Wf.slot part t n
  | .lockLoss t n => Wf.slot part t n
  | .recoveryComplete t n _ => Wf.slot part t n
  | .locklossTimerExpiry t n => Wf.slot part t n
  | .flitTransmit t n => Wf.slot part t n
  | .flitReceive t n _ _ => Wf.slot part t n
  | .nakTimerExpiry t n _ => Wf.slot part t n
  | .nakResume t n => Wf.slot part t n
  | .replayTimerExpiry t n => Wf.slot part t n
  | .creditStallTimer t n _ => Wf.slot part t n
  | .wrReceive t n _ => Wf.localSlot part t n
  | .rdReceive t n => Wf.localSlot part t n
  | .heldReadSlotTake t n _ => Wf.localSlot part t n
  | .eventAssert t n => Wf.localSlot part t n
  | .eventDeassert t n => Wf.localSlot part t n
  | .eventEdge t n => Wf.localSlot part t n
  | .rspReceive t n => Wf.localSlot part t n
  | .ltpRspTimeout t n _ => Wf.localSlot part t n
  | .lockBeginSend t n => Wf.localSlot part t n
  | .lockWaitExpiry t n => Wf.localSlot part t n
  | .frameArrival t p => Wf.port part t p
  | .frameAdmit t p => Wf.port part t p
  | .poolTransfer t _ => Wf.tile part t
  | .transitForward t out => Wf.out part t out
  | .outputArbitration t out _ => Wf.out part t out
  | .queueUrgent t out inp _ => Wf.out part t out && decide (inp < 12)
  | .frameAgeExpiry t out inp _ => Wf.out part t out && decide (inp < 12)
  | .frameAbort t _ _ => Wf.tile part t
  | .swcCntRead t => Wf.tile part t
  | .swcCntWrite t => Wf.tile part t
  | .wttWindowRead t => Wf.tile part t
  | .wttWindowWrite t => Wf.tile part t
  | .wttEntryRead t m => Wf.mb part t m
  | .wttEntryWrite t m => Wf.mb part t m
  | .fill t m => Wf.mb part t m
  | .fence t _ => Wf.tile part t
  | .fenceComplete t => Wf.tile part t
  | .restamp t _ => Wf.tile part t
  | .restampComplete t => Wf.tile part t
  | .holdRelease _ => true
  | .zeroLengthReadComplete t n => Wf.localSlot part t n
  | .doorbellWrite i _ _ _ _ => Wf.inst part i
  | .inlineDoorbell i _ _ _ => Wf.inst part i
  | .queueEnable t q => Wf.queue part t q
  | .queueResume t q => Wf.queue part t q
  | .queueSkip t q => Wf.queue part t q
  | .queueReset t q => Wf.queue part t q
  | .queueResetComplete t q => Wf.queue part t q
  | .cplHeadWrite t q _ _ => Wf.queue part t q
  | .descriptorFetch t q => Wf.queue part t q
  | .localRingPoll t q => Wf.queue part t q
  | .descriptorStart t q => Wf.queue part t q
  | .completionEntryWrite t q => Wf.queue part t q
  | .dmaQctxRead t => Wf.tile part t
  | .dmaQctxWrite t => Wf.tile part t
  | .setShare t => Wf.tile part t
  | .qctxCommand t => Wf.tile part t
  | .readIssue t => Wf.tile part t
  | .dmaUrgent t q _ => Wf.queue part t q
  | .drrEpoch t => Wf.tile part t
  | .dmaReadData t => Wf.tile part t
  | .dmaReadTimeout t tag => Wf.tile part t && decide (tag < 4096)
  | .writeIssue t => Wf.tile part t
  | .writeSettle t => Wf.tile part t
  | .writeSettleTimeout t _ => Wf.tile part t
  | .dmaAbortReport t => Wf.tile part t
  | .queueHalt t q => Wf.queue part t q
  | .dmaCntRead t => Wf.tile part t
  | .dmaCntWrite t => Wf.tile part t
  | .instanceRead t m => Wf.mb part t m
  | .instanceWrite t m => Wf.mb part t m
  | .create t m => Wf.mb part t m
  | .remove t m => Wf.mb part t m
  | .bind t m => Wf.mb part t m
  | .unbind t m => Wf.mb part t m
  | .freeze t m => Wf.mb part t m
  | .freezeComplete i => Wf.inst part i
  | .instanceResume t m => Wf.mb part t m
  | .instanceResetCommand t m => Wf.mb part t m
  | .setWeight t m => Wf.mb part t m
  | .logClear t m => Wf.mb part t m
  | .logCmdClear i => Wf.inst part i
  | .logClearComplete i => Wf.inst part i
  | .logEnable i => Wf.inst part i
  | .dirtyLogEntryWrite i => Wf.inst part i
  | .instanceReset i => Wf.inst part i
  | .instanceResetStallEnd i => Wf.inst part i
  | .instanceResetDrainEnd i => Wf.inst part i
  | .release i => Wf.inst part i
  | .eventPinChange t p _ => Wf.tile part t && decide (p < 64)
  | .pendingWordWrite t w _ _ => Wf.tile part t && decide (w < 1024)
  | .pendingWordRead t w => Wf.tile part t && decide (w < 1024)
  | .routeWrite t src _ => Wf.tile part t && decide (src < 32768)
  | .evcDelivery t => Wf.tile part t
  | .targetDone t x _ _ => Wf.tile part t && decide (x < 1024)
  | .holdoffExpiry t g => Wf.tile part t && decide (g < 256)
  | .faultRecord t b _ _ _ => Wf.bank part t b
  | .headframeFaultService t => Wf.tile part t
  | .faultAcknowledge t b _ => Wf.bank part t b
  | .classBExpiry t b _ => Wf.bank part t b
  | .classCExpiry t b => Wf.bank part t b
  | .hfWatchdog t => Wf.tile part t
  | .dumpWrite => true
  | .dumpComplete => true
  | .dumpRelease slot => decide (slot < 2)
  | .faultLossSummary t b => Wf.bank part t b
  | .crystalStop => true
  | .crystalResume => true
  | .timestampRead => true
  | .timestampWrite => true
  | .slew => true
  | .slewEnd => true
  | .canarySample _ => true
  | .voltageRaiseStep _ _ => true
  | .replanStart _ => true
  | .planNow _ => true
  | .eqTrialEnd t n _ => Wf.localSlot part t n
  | .replanEnd _ => true
  | .maintGrant t _ _ => Wf.tile part t
  | .maintWindowEnd t => Wf.tile part t
  | .helloSend => true
  | .ringFrameReceive _ _ => true
  | .ringRxDown _ => true
  | .ringRxUp _ => true
  | .packageLost p => decide (p < 32)
  | .rread m => decide (m < 4)
  | .rwrite m => decide (m < 4)
  | .distImg m => decide (m < 4)
  | .hfErase m => decide (m < 4)
  | .distHf m => decide (m < 4)
  | .hfCheck m => decide (m < 4)
  | .remoteTimeout m => decide (m < 4)
  | .timeSend => true
  | .galSyncEdge => true
  | .syncLost => true
  | .followingTimeout => true
  | .traceLossSummary t b => Wf.tile part t && decide (b < 14)
  | .alarmRead t => Wf.tile part t
  | .alarmAck t => Wf.tile part t
  | .alarmWrite t => Wf.tile part t
  | .governorWindow t _ => Wf.tile part t
  | .tempSample t _ _ _ _ => Wf.tile part t
  | .vbatSample _ => true
  | .chargeControlWrite _ _ => true
  | .pmbusRetry _ => true
  | .vrmAlert => true
  | .smbusBlockRead _ => true
  | .dlUp h _ _ _ => Wf.link part h
  | .rateChanged h _ => Wf.link part h
  | .l0pChanged h _ => Wf.link part h
  | .ltpHeldRead t n => Wf.localSlot part t n
  | .readVoutSample _ _ => true
  | .vbatLost => true

end Sys2Proof
end

