-- ==== Sys2Proof/Safety.lean ====
section
/-! DEFINITION. The terms the claims use: which groups of the state a change leaves alone, what no command and no tick ever
undoes, and the invariant every step keeps. -/

namespace Sys2Proof.Machine

open Sys2Proof

/-- The groups of fields of the state a command may change; the part and the queue are no command's. -/
inductive Grp where
  | regs
  | modes
  | core
  | bus
  | mem
  | evc
  | flt
  | trc
  | swc
  | brg
  | lode
  | host
  | wtt
  | ins
  | dma
  | otp
  | str
  | cal
  | age
  | gal
  | pwr
  | outbox
  | fresh
  | ticks
  deriving DecidableEq, Repr

/-- Two states hold the same in a group. -/
def Grp.same (g : Grp) (s s' : State) : Prop :=
  match g with
  | .regs => s'.regs = s.regs
  | .modes => s'.modes = s.modes
  | .core => s'.core = s.core
  | .bus => s'.bus = s.bus
  | .mem => s'.mem = s.mem
  | .evc => s'.evc = s.evc
  | .flt => s'.flt = s.flt
  | .trc => s'.trc = s.trc
  | .swc => s'.swc = s.swc
  | .brg => s'.brg = s.brg
  | .lode => s'.lode = s.lode
  | .host => s'.host = s.host
  | .wtt => s'.wtt = s.wtt
  | .ins => s'.ins = s.ins
  | .dma => s'.dma = s.dma
  | .otp => s'.otp = s.otp
  | .str => s'.str = s.str
  | .cal => s'.cal = s.cal
  | .age => s'.age = s.age
  | .gal => s'.gal = s.gal
  | .pwr => s'.pwr = s.pwr
  | .outbox => s'.outbox = s.outbox
  | .fresh => s'.fresh = s.fresh
  | .ticks => s'.ticks = s.ticks

/-- A state differs from an earlier one in the listed groups at most. -/
def Same (l : List Grp) (s s' : State) : Prop := ∀ g, l.contains g = false → g.same s s'

/-- How GLB_TILE_MODE may come about from an earlier word: by the loss of main power, after which it reads OFF, by the fall of RESET_N,
which sets TRANSITIONS to 0 and leaves the mode (R57), and by changes each of which is a row of the mode table (R57), with TRANSITIONS
counted up, PREV and CAUSE (R54). -/
inductive ModeMoves : Word → Word → Prop where
  | refl (w : Word) : ModeMoves w w
  | off (w : Word) : ModeMoves w 0
  | held {w w' : Word} (h : ModeMoves w w') : ModeMoves w (setFld w' 16 8 0)
  | row {w w' : Word} (m cause : Nat) (h : ModeMoves w w') (r : modeRow (fld w' 0 4) m cause = true) :
      ModeMoves w (modeWord w' m cause)

/-- What no command and no tick ever undoes: tile modes change only as their table gives (R57); the part and its fuses (R2, R78); the queue; what has been sent outside; the model's
counters; the rollback floor never falls (R45); the customer key hash is written once (R43); the register file lists its addresses
rising, and the memories stay in canonical form. -/
structure Keeps (s s' : State) : Prop where
  part : s'.part = s.part
  modes : ∀ t, ModeMoves (Tbl.get 0 s.modes t) (Tbl.get 0 s'.modes t)
  fuses : s'.core.fuses = s.core.fuses
  pending : s'.pending = s.pending
  outbox : s.outbox <+: s'.outbox
  fresh : s.fresh ≤ s'.fresh
  ticks : s.ticks ≤ s'.ticks
  floor : s.otp.floor ≤ s'.otp.floor
  keyHash : ∀ k, s.otp.keyHash = some k → s'.otp.keyHash = some k
  regs : Registers.wf s.regs = true → Registers.wf s'.regs = true
  mem : Memory.wf s.mem = true → Memory.wf s'.mem = true

/-- A change within the listed groups that undoes nothing. -/
structure Within (l : List Grp) (s s' : State) : Prop where
  same : Same l s s'
  keeps : Keeps s s'

/-- The invariant: the register file lists each address once, rising, and the memories stand in their canonical form. -/
def State.Inv (s : State) : Prop := Registers.wf s.regs = true ∧ Memory.wf s.mem = true

/-- The command completes: its outcome is a next state, and `P` holds of it. -/
def Completes (c : Instr) (s : State) (P : State → Prop) : Prop := ∃ s', exec c s = .next s' ∧ P s'

/-- Every register of a tile's space but those `p` picks, by tile and offset, reads as before. -/
def RegsBut (p : Nat → Nat → Prop) (s s' : State) : Prop :=
  ∀ t off, off < 0x10000000 → ¬ p t off → rreg s' t off = rreg s t off

/-- Every bit of a register outside the field of `n` bits at `lo` is as before. -/
def BitsBut (lo n : Nat) (w w' : Word) : Prop := ∀ i, i < lo ∨ lo + n ≤ i → w'.getLsbD i = w.getLsbD i

end Sys2Proof.Machine

namespace Sys2Proof

open Machine

/-- The groups a command may change (95); every other group is as before it. -/
def Instr.touches : Instr → List Machine.Grp
  | .registerWrite _ _ _ _ => [.regs, .modes, .core, .bus, .mem, .evc, .flt, .trc, .swc, .brg, .lode, .host, .wtt,
      .ins, .dma, .str, .cal, .age, .gal, .outbox, .fresh]
  | .reservedAddressWrite _ _ _ _ => [.regs, .modes, .core, .bus, .mem, .evc, .flt, .trc, .swc, .brg, .lode, .host,
      .wtt, .ins, .dma, .str, .cal, .age, .gal, .outbox, .fresh]
  | .crossingWriteTakesEffect _ _ => [.regs, .modes, .core, .bus, .mem, .evc, .flt, .trc, .swc, .brg, .lode, .host,
      .wtt, .ins, .dma, .str, .cal, .age, .gal, .outbox, .fresh]
  | .tvRegisterRead _ _ => [.regs, .modes, .core, .bus, .mem, .evc, .flt, .trc, .swc, .brg, .lode, .host, .wtt, .ins,
      .dma, .str, .cal, .age, .gal, .outbox, .fresh]
  | .tvScrub _ => [.regs, .modes, .core, .bus, .mem, .evc, .flt, .trc, .swc, .brg, .lode, .host, .wtt, .ins, .dma,
      .outbox, .fresh]
  | .mbDataWrite _ _ _ _ _ => [.regs, .modes, .core, .bus, .mem, .evc, .flt, .trc, .swc, .brg, .lode, .host, .wtt,
      .ins, .dma, .str, .cal, .age, .gal, .outbox, .fresh]
  | .mailboxCommandEnd _ _ => [.regs, .modes, .core, .bus, .mem, .evc, .flt, .trc, .swc, .brg, .lode, .host, .wtt,
      .ins, .dma, .str, .cal, .age, .gal, .outbox, .fresh]
  | .indirectDataAccess _ _ _ => [.regs, .modes, .core, .bus, .mem, .evc, .flt, .trc, .swc, .brg, .lode, .host, .wtt,
      .ins, .dma, .str, .cal, .age, .gal, .outbox, .fresh]
  | .powerGoodRise => [.core, .cal]
  | .packageStart _ _ => [.regs, .modes, .core, .mem, .evc, .flt, .trc, .swc, .brg, .lode, .host, .wtt, .ins, .dma,
      .otp, .str, .cal, .age, .outbox, .fresh]
  | .packageReset => [.regs, .modes, .core, .bus, .evc, .flt, .trc, .swc, .brg, .lode, .host, .wtt, .ins, .dma, .str,
      .age, .gal, .pwr, .outbox]
  | .powerDown => [.regs, .modes, .core, .bus, .evc, .flt, .trc, .swc, .brg, .lode, .host, .wtt, .ins, .dma, .str,
      .cal, .age, .gal, .pwr, .outbox]
  | .enterService _ => [.regs, .modes, .core, .bus, .mem, .evc, .flt, .trc, .swc, .brg, .lode, .host, .wtt, .ins,
      .dma, .str, .cal, .age, .gal, .outbox, .fresh]
  | .enterRecovery _ => [.regs, .modes, .core, .bus, .mem, .evc, .flt, .trc, .swc, .brg, .lode, .host, .wtt, .ins,
      .dma, .str, .cal, .age, .gal, .outbox, .fresh]
  | .enterTest _ => [.regs, .modes, .core, .bus, .mem, .evc, .flt, .trc, .swc, .brg, .lode, .host, .wtt, .ins, .dma,
      .str, .cal, .age, .gal, .outbox, .fresh]
  | .modeCommandDone _ => [.regs, .modes, .core, .evc, .trc]
  | .tileReset _ _ => [.regs, .modes, .core, .bus, .mem, .evc, .flt, .trc, .swc, .brg, .lode, .host, .wtt, .ins, .dma,
      .str, .cal, .age, .gal, .outbox, .fresh]
  | .tileResetComplete _ => [.regs, .modes, .core, .bus, .evc, .trc, .swc, .brg, .lode, .host, .ins, .dma, .age]
  | .testMemoryBist _ => [.regs, .modes, .core, .bus, .mem, .evc, .flt, .trc, .swc, .brg, .lode, .host, .wtt, .ins,
      .dma, .str, .cal, .age, .gal, .outbox, .fresh]
  | .testPrbs _ _ => [.regs, .modes, .core, .bus, .mem, .evc, .flt, .trc, .swc, .brg, .lode, .host, .wtt, .ins, .dma,
      .str, .cal, .age, .gal, .outbox, .fresh]
  | .testNearLoopback _ _ => [.regs, .modes, .core, .bus, .mem, .evc, .flt, .trc, .swc, .brg, .lode, .host, .wtt,
      .ins, .dma, .str, .cal, .age, .gal, .outbox, .fresh]
  | .testFarLoopback _ _ => [.regs, .modes, .core, .bus, .mem, .evc, .flt, .trc, .swc, .brg, .lode, .host, .wtt, .ins,
      .dma, .str, .cal, .age, .gal, .outbox, .fresh]
  | .testStop _ _ _ => [.regs, .modes, .core, .bus, .mem, .evc, .flt, .trc, .swc, .brg, .lode, .host, .wtt, .ins,
      .dma, .str, .cal, .age, .gal, .outbox, .fresh]
  | .bistDone _ _ => [.regs, .core, .evc, .trc, .swc, .brg, .lode, .host, .wtt, .ins, .dma, .outbox, .fresh]
  | .jtagBoundaryScan => [.regs, .modes, .core, .evc, .trc]
  | .tapReset => [.core]
  | .verify => [.regs, .modes, .core, .bus, .mem, .evc, .flt, .trc, .swc, .brg, .lode, .host, .wtt, .ins, .dma, .str,
      .cal, .age, .gal, .outbox, .fresh]
  | .activate => [.regs, .modes, .core, .bus, .mem, .evc, .flt, .trc, .swc, .brg, .lode, .host, .wtt, .ins, .dma,
      .str, .cal, .age, .gal, .outbox, .fresh]
  | .commitFloor => [.regs, .modes, .core, .bus, .mem, .evc, .flt, .trc, .swc, .brg, .lode, .host, .wtt, .ins, .dma,
      .str, .cal, .age, .gal, .outbox, .fresh]
  | .enrol => [.regs, .modes, .core, .bus, .mem, .evc, .flt, .trc, .swc, .brg, .lode, .host, .wtt, .ins, .dma, .str,
      .cal, .age, .gal, .outbox, .fresh]
  | .eraseInactive => [.regs, .modes, .core, .bus, .mem, .evc, .flt, .trc, .swc, .brg, .lode, .host, .wtt, .ins, .dma,
      .str, .cal, .age, .gal, .outbox, .fresh]
  | .refreshFlash => [.regs, .modes, .core, .bus, .mem, .evc, .flt, .trc, .swc, .brg, .lode, .host, .wtt, .ins, .dma,
      .str, .cal, .age, .gal, .outbox, .fresh]
  | .strCommandDone => [.regs, .mem, .swc, .otp, .str, .fresh]
  | .flashCopyDone => [.regs, .mem, .str]
  | .strImgDataWrite _ _ => [.regs, .modes, .core, .bus, .mem, .evc, .flt, .trc, .swc, .brg, .lode, .host, .wtt, .ins,
      .dma, .str, .cal, .age, .gal, .outbox, .fresh]
  | .hostMemoryRequest _ => [.regs, .swc, .brg, .host, .outbox, .fresh]
  | .hostRequestResolve _ _ => [.regs, .modes, .core, .mem, .evc, .flt, .trc, .swc, .brg, .lode, .host, .wtt, .ins,
      .dma, .outbox, .fresh]
  | .prefetchAgeExpiry _ _ => [.regs, .trc, .host, .wtt]
  | .configRequest _ _ _ _ _ => [.regs, .evc, .flt, .trc, .swc, .brg, .lode, .host, .wtt, .ins, .dma, .outbox, .fresh]
  | .deviceReadinessStatus _ => [.host, .outbox]
  | .hostIssue _ => [.regs, .evc, .trc, .swc, .brg, .lode, .host, .wtt, .ins, .dma, .outbox, .fresh]
  | .hostTagWait _ => [.regs, .evc, .trc, .swc, .brg, .lode, .host, .wtt, .ins, .dma, .outbox, .fresh]
  | .hostCompletion _ _ => [.regs, .trc, .swc, .brg, .lode, .host, .wtt, .dma, .outbox, .fresh]
  | .hostReadTimeout _ _ => [.regs, .trc, .swc, .brg, .lode, .host, .wtt, .dma, .outbox, .fresh]
  | .hostTagQuarantineEnd _ _ => [.regs, .host, .dma]
  | .msixSend _ _ => [.regs, .evc, .host, .outbox]
  | .aspmL1Entry _ => [.regs]
  | .rateCapWrite _ _ => [.regs, .modes, .core, .bus, .mem, .evc, .flt, .trc, .swc, .brg, .lode, .host, .wtt, .ins,
      .dma, .str, .cal, .age, .gal, .outbox, .fresh]
  | .narrowWrite _ _ => [.regs, .modes, .core, .bus, .mem, .evc, .flt, .trc, .swc, .brg, .lode, .host, .wtt, .ins,
      .dma, .str, .cal, .age, .gal, .outbox, .fresh]
  | .hostL0pRequest _ _ => [.outbox]
  | .wakeAssert _ => [.regs, .modes, .core, .bus, .mem, .evc, .flt, .trc, .swc, .brg, .lode, .host, .wtt, .ins, .dma,
      .str, .cal, .age, .gal, .outbox, .fresh]
  | .wakeTimeout _ => [.regs, .host, .outbox]
  | .retrain _ => [.regs, .modes, .core, .bus, .mem, .evc, .flt, .trc, .swc, .brg, .lode, .host, .wtt, .ins, .dma,
      .str, .cal, .age, .gal, .outbox, .fresh]
  | .ltrWrite _ _ => [.regs, .modes, .core, .bus, .mem, .evc, .flt, .trc, .swc, .brg, .lode, .host, .wtt, .ins, .dma,
      .str, .cal, .age, .gal, .outbox, .fresh]
  | .spdmRequest _ _ => [.regs, .host, .outbox, .fresh]
  | .ideCheckFail _ _ => [.regs, .trc, .host, .outbox, .fresh]
  | .unlockMessage _ _ => [.swc, .brg, .lode]
  | .perstAssert _ => [.regs, .evc, .flt, .trc, .swc, .brg, .lode, .host, .wtt, .ins, .dma, .outbox, .fresh]
  | .perstDeassert _ => [.regs, .trc, .swc, .brg, .lode, .host, .ins]
  | .hotReset _ => [.regs, .evc, .flt, .trc, .swc, .brg, .lode, .host, .wtt, .ins, .dma, .outbox, .fresh]
  | .dlDown _ => [.regs, .evc, .flt, .trc, .swc, .brg, .lode, .host, .wtt, .ins, .dma, .outbox, .fresh]
  | .flrInstanceFunction _ _ => [.regs, .flt, .trc, .swc, .brg, .lode, .host, .wtt, .ins, .dma, .outbox, .fresh]
  | .flrPf _ _ => [.regs, .flt, .trc, .swc, .brg, .lode, .host, .wtt, .ins, .dma, .outbox, .fresh]
  | .flrManagerFunction => [.regs, .flt, .trc, .swc, .brg, .lode, .host, .wtt, .ins, .dma, .outbox, .fresh]
  | .linkTraining _ _ _ => [.regs, .trc, .lode, .outbox]
  | .trainingStepTimeout _ _ => [.regs, .trc, .lode]
  | .identifyRetry _ _ _ => [.regs, .trc]
  | .tileLinkTraining _ _ _ => [.regs, .modes, .core, .mem, .evc, .flt, .trc, .swc, .brg, .lode, .host, .wtt, .ins,
      .dma, .outbox, .fresh]
  | .change _ _ => [.regs, .modes, .core, .bus, .mem, .evc, .flt, .trc, .swc, .brg, .lode, .host, .wtt, .ins, .dma,
      .str, .cal, .age, .gal, .outbox, .fresh]
  | .lcrReceive _ _ _ _ _ _ => [.regs, .trc, .lode]
  | .lcrAckReceive _ _ _ => [.regs, .lode]
  | .lcrRefuseReceive _ _ _ => [.regs, .trc, .lode]
  | .lcrTimeout _ _ => [.regs, .lode]
  | .liveChangeComplete _ _ => [.regs, .trc, .lode, .outbox]
  | .down _ _ => [.regs, .modes, .core, .bus, .mem, .evc, .flt, .trc, .swc, .brg, .lode, .host, .wtt, .ins, .dma,
      .str, .cal, .age, .gal, .outbox, .fresh]
  | .disable _ _ => [.regs, .modes, .core, .bus, .mem, .evc, .flt, .trc, .swc, .brg, .lode, .host, .wtt, .ins, .dma,
      .str, .cal, .age, .gal, .outbox, .fresh]
  | .downReceive _ _ => [.regs, .modes, .core, .mem, .evc, .flt, .trc, .swc, .brg, .lode, .host, .wtt, .ins, .dma,
      .outbox, .fresh]
  | .lockLoss _ _ => [.regs, .trc, .lode]
  | .recoveryComplete _ _ _ => [.regs, .modes, .core, .mem, .evc, .flt, .trc, .swc, .brg, .lode, .host, .wtt, .ins,
      .dma, .outbox, .fresh]
  | .locklossTimerExpiry _ _ => [.regs, .modes, .core, .mem, .evc, .flt, .trc, .swc, .brg, .lode, .host, .wtt, .ins,
      .dma, .outbox, .fresh]
  | .flitTransmit _ _ => [.regs, .trc, .lode, .outbox]
  | .flitReceive _ _ _ _ => [.regs, .modes, .core, .mem, .evc, .flt, .trc, .swc, .brg, .lode, .host, .wtt, .ins, .dma,
      .outbox, .fresh]
  | .nakTimerExpiry _ _ _ => [.lode]
  | .nakResume _ _ => [.lode]
  | .replayTimerExpiry _ _ => [.lode]
  | .creditStallTimer _ _ _ => [.regs, .trc]
  | .wrReceive _ _ _ => [.regs, .modes, .core, .mem, .evc, .flt, .trc, .swc, .brg, .lode, .host, .wtt, .ins, .dma,
      .outbox, .fresh]
  | .rdReceive _ _ => [.regs, .trc, .swc, .brg, .lode, .wtt]
  | .heldReadSlotTake _ _ _ => [.regs, .modes, .core, .mem, .evc, .flt, .trc, .swc, .brg, .lode, .host, .wtt, .ins,
      .dma, .outbox, .fresh]
  | .eventAssert _ _ => [.regs, .evc, .trc, .swc, .brg, .lode, .host]
  | .eventDeassert _ _ => [.regs, .evc, .trc, .swc, .brg, .lode, .host]
  | .eventEdge _ _ => [.regs, .evc, .trc, .swc, .brg, .lode, .host]
  | .rspReceive _ _ => [.regs, .trc, .swc, .brg, .lode, .host, .wtt, .dma, .outbox, .fresh]
  | .ltpRspTimeout _ _ _ => [.regs, .trc, .swc, .brg, .lode, .host, .wtt, .dma, .outbox, .fresh]
  | .lockBeginSend _ _ => [.regs, .trc, .swc, .brg, .lode]
  | .lockWaitExpiry _ _ => [.regs, .trc, .swc, .brg, .lode, .host, .wtt, .dma, .outbox, .fresh]
  | .frameArrival _ _ => [.regs, .trc, .swc, .brg, .lode, .host, .wtt, .dma, .outbox, .fresh]
  | .frameAdmit _ _ => [.regs, .trc, .swc, .brg, .lode, .host, .wtt, .dma, .outbox, .fresh]
  | .poolTransfer _ _ => [.regs, .trc, .swc, .lode]
  | .transitForward _ _ => [.regs, .modes, .core, .mem, .evc, .flt, .trc, .swc, .brg, .lode, .host, .wtt, .ins, .dma,
      .outbox, .fresh]
  | .outputArbitration _ _ _ => [.regs, .modes, .core, .bus, .mem, .evc, .flt, .trc, .swc, .brg, .lode, .host, .wtt,
      .ins, .dma, .str, .cal, .age, .gal, .outbox, .fresh]
  | .queueUrgent _ _ _ _ => [.swc]
  | .frameAgeExpiry _ _ _ _ => [.regs, .trc, .swc, .brg, .lode, .host, .wtt, .dma, .outbox, .fresh]
  | .frameAbort _ _ _ => [.regs, .modes, .core, .mem, .evc, .flt, .trc, .swc, .brg, .lode, .host, .wtt, .ins, .dma,
      .outbox, .fresh]
  | .swcCntRead _ => [.regs, .modes, .core, .bus, .mem, .evc, .flt, .trc, .swc, .brg, .lode, .host, .wtt, .ins, .dma,
      .str, .cal, .age, .gal, .outbox, .fresh]
  | .swcCntWrite _ => [.regs, .modes, .core, .bus, .mem, .evc, .flt, .trc, .swc, .brg, .lode, .host, .wtt, .ins, .dma,
      .str, .cal, .age, .gal, .outbox, .fresh]
  | .wttWindowRead _ => [.regs, .modes, .core, .bus, .mem, .evc, .flt, .trc, .swc, .brg, .lode, .host, .wtt, .ins,
      .dma, .str, .cal, .age, .gal, .outbox, .fresh]
  | .wttWindowWrite _ => [.regs, .modes, .core, .bus, .mem, .evc, .flt, .trc, .swc, .brg, .lode, .host, .wtt, .ins,
      .dma, .str, .cal, .age, .gal, .outbox, .fresh]
  | .wttEntryRead _ _ => [.regs, .modes, .core, .bus, .mem, .evc, .flt, .trc, .swc, .brg, .lode, .host, .wtt, .ins,
      .dma, .str, .cal, .age, .gal, .outbox, .fresh]
  | .wttEntryWrite _ _ => [.regs, .modes, .core, .bus, .mem, .evc, .flt, .trc, .swc, .brg, .lode, .host, .wtt, .ins,
      .dma, .str, .cal, .age, .gal, .outbox, .fresh]
  | .fill _ _ => [.regs, .modes, .core, .bus, .mem, .evc, .flt, .trc, .swc, .brg, .lode, .host, .wtt, .ins, .dma,
      .str, .cal, .age, .gal, .outbox, .fresh]
  | .fence _ _ => [.regs, .modes, .core, .bus, .mem, .evc, .flt, .trc, .swc, .brg, .lode, .host, .wtt, .ins, .dma,
      .str, .cal, .age, .gal, .outbox, .fresh]
  | .fenceComplete _ => [.regs, .trc, .wtt]
  | .restamp _ _ => [.regs, .modes, .core, .bus, .mem, .evc, .flt, .trc, .swc, .brg, .lode, .host, .wtt, .ins, .dma,
      .str, .cal, .age, .gal, .outbox, .fresh]
  | .restampComplete _ => [.regs, .trc, .wtt, .fresh]
  | .holdRelease _ => [.regs, .evc, .trc, .swc, .brg, .host]
  | .zeroLengthReadComplete _ _ => [.regs, .trc, .swc, .brg, .lode, .host, .wtt, .dma, .outbox, .fresh]
  | .doorbellWrite _ _ _ _ _ => [.regs, .modes, .core, .bus, .mem, .evc, .flt, .trc, .swc, .brg, .lode, .host, .wtt,
      .ins, .dma, .str, .cal, .age, .gal, .outbox, .fresh]
  | .inlineDoorbell _ _ _ _ => [.regs, .modes, .core, .bus, .mem, .evc, .flt, .trc, .swc, .brg, .lode, .host, .wtt,
      .ins, .dma, .str, .cal, .age, .gal, .outbox, .fresh]
  | .queueEnable _ _ => [.regs, .modes, .core, .bus, .mem, .evc, .flt, .trc, .swc, .brg, .lode, .host, .wtt, .ins,
      .dma, .str, .cal, .age, .gal, .outbox, .fresh]
  | .queueResume _ _ => [.regs, .modes, .core, .bus, .mem, .evc, .flt, .trc, .swc, .brg, .lode, .host, .wtt, .ins,
      .dma, .str, .cal, .age, .gal, .outbox, .fresh]
  | .queueSkip _ _ => [.regs, .modes, .core, .bus, .mem, .evc, .flt, .trc, .swc, .brg, .lode, .host, .wtt, .ins, .dma,
      .str, .cal, .age, .gal, .outbox, .fresh]
  | .queueReset _ _ => [.regs, .modes, .core, .bus, .mem, .evc, .flt, .trc, .swc, .brg, .lode, .host, .wtt, .ins,
      .dma, .str, .cal, .age, .gal, .outbox, .fresh]
  | .queueResetComplete _ _ => [.regs, .dma]
  | .cplHeadWrite _ _ _ _ => [.regs, .modes, .core, .bus, .mem, .evc, .flt, .trc, .swc, .brg, .lode, .host, .wtt,
      .ins, .dma, .str, .cal, .age, .gal, .outbox, .fresh]
  | .descriptorFetch _ _ => [.regs, .trc, .swc, .brg, .lode, .host, .wtt, .dma, .outbox, .fresh]
  | .localRingPoll _ _ => [.regs, .trc, .swc, .brg, .lode, .host, .wtt, .dma, .outbox, .fresh]
  | .descriptorStart _ _ => [.regs, .dma]
  | .completionEntryWrite _ _ => [.regs, .evc, .trc, .swc, .brg, .lode, .host, .wtt, .ins, .dma, .outbox, .fresh]
  | .dmaQctxRead _ => [.regs, .modes, .core, .bus, .mem, .evc, .flt, .trc, .swc, .brg, .lode, .host, .wtt, .ins, .dma,
      .str, .cal, .age, .gal, .outbox, .fresh]
  | .dmaQctxWrite _ => [.regs, .modes, .core, .bus, .mem, .evc, .flt, .trc, .swc, .brg, .lode, .host, .wtt, .ins,
      .dma, .str, .cal, .age, .gal, .outbox, .fresh]
  | .setShare _ => [.regs, .modes, .core, .bus, .mem, .evc, .flt, .trc, .swc, .brg, .lode, .host, .wtt, .ins, .dma,
      .str, .cal, .age, .gal, .outbox, .fresh]
  | .qctxCommand _ => [.regs, .modes, .core, .bus, .mem, .evc, .flt, .trc, .swc, .brg, .lode, .host, .wtt, .ins, .dma,
      .str, .cal, .age, .gal, .outbox, .fresh]
  | .readIssue _ => [.regs, .trc, .swc, .brg, .lode, .host, .wtt, .dma, .outbox, .fresh]
  | .dmaUrgent _ _ _ => [.dma]
  | .drrEpoch _ => [.dma]
  | .dmaReadData _ => [.regs, .trc, .dma]
  | .dmaReadTimeout _ _ => [.regs, .trc, .dma]
  | .writeIssue _ => [.regs, .evc, .trc, .swc, .brg, .lode, .host, .wtt, .ins, .dma, .outbox, .fresh]
  | .writeSettle _ => [.regs, .trc, .dma]
  | .writeSettleTimeout _ _ => [.regs, .trc, .dma]
  | .dmaAbortReport _ => [.regs, .trc, .swc, .brg, .lode, .host, .wtt, .dma, .outbox, .fresh]
  | .queueHalt _ _ => [.regs, .evc, .trc, .dma]
  | .dmaCntRead _ => [.regs, .modes, .core, .bus, .mem, .evc, .flt, .trc, .swc, .brg, .lode, .host, .wtt, .ins, .dma,
      .str, .cal, .age, .gal, .outbox, .fresh]
  | .dmaCntWrite _ => [.regs, .modes, .core, .bus, .mem, .evc, .flt, .trc, .swc, .brg, .lode, .host, .wtt, .ins, .dma,
      .str, .cal, .age, .gal, .outbox, .fresh]
  | .instanceRead _ _ => [.regs, .modes, .core, .bus, .mem, .evc, .flt, .trc, .swc, .brg, .lode, .host, .wtt, .ins,
      .dma, .str, .cal, .age, .gal, .outbox, .fresh]
  | .instanceWrite _ _ => [.regs, .modes, .core, .bus, .mem, .evc, .flt, .trc, .swc, .brg, .lode, .host, .wtt, .ins,
      .dma, .str, .cal, .age, .gal, .outbox, .fresh]
  | .create _ _ => [.regs, .modes, .core, .bus, .mem, .evc, .flt, .trc, .swc, .brg, .lode, .host, .wtt, .ins, .dma,
      .str, .cal, .age, .gal, .outbox, .fresh]
  | .remove _ _ => [.regs, .modes, .core, .bus, .mem, .evc, .flt, .trc, .swc, .brg, .lode, .host, .wtt, .ins, .dma,
      .str, .cal, .age, .gal, .outbox, .fresh]
  | .bind _ _ => [.regs, .modes, .core, .bus, .mem, .evc, .flt, .trc, .swc, .brg, .lode, .host, .wtt, .ins, .dma,
      .str, .cal, .age, .gal, .outbox, .fresh]
  | .unbind _ _ => [.regs, .modes, .core, .bus, .mem, .evc, .flt, .trc, .swc, .brg, .lode, .host, .wtt, .ins, .dma,
      .str, .cal, .age, .gal, .outbox, .fresh]
  | .freeze _ _ => [.regs, .modes, .core, .bus, .mem, .evc, .flt, .trc, .swc, .brg, .lode, .host, .wtt, .ins, .dma,
      .str, .cal, .age, .gal, .outbox, .fresh]
  | .freezeComplete _ => [.bus, .ins]
  | .instanceResume _ _ => [.regs, .modes, .core, .bus, .mem, .evc, .flt, .trc, .swc, .brg, .lode, .host, .wtt, .ins,
      .dma, .str, .cal, .age, .gal, .outbox, .fresh]
  | .instanceResetCommand _ _ => [.regs, .modes, .core, .bus, .mem, .evc, .flt, .trc, .swc, .brg, .lode, .host, .wtt,
      .ins, .dma, .str, .cal, .age, .gal, .outbox, .fresh]
  | .setWeight _ _ => [.regs, .modes, .core, .bus, .mem, .evc, .flt, .trc, .swc, .brg, .lode, .host, .wtt, .ins, .dma,
      .str, .cal, .age, .gal, .outbox, .fresh]
  | .logClear _ _ => [.regs, .modes, .core, .bus, .mem, .evc, .flt, .trc, .swc, .brg, .lode, .host, .wtt, .ins, .dma,
      .str, .cal, .age, .gal, .outbox, .fresh]
  | .logCmdClear _ => [.regs, .modes, .core, .bus, .mem, .evc, .flt, .trc, .swc, .brg, .lode, .host, .wtt, .ins, .dma,
      .str, .cal, .age, .gal, .outbox, .fresh]
  | .logClearComplete _ => [.regs, .bus, .ins]
  | .logEnable _ => [.regs, .modes, .core, .bus, .mem, .evc, .flt, .trc, .swc, .brg, .lode, .host, .wtt, .ins, .dma,
      .str, .cal, .age, .gal, .outbox, .fresh]
  | .dirtyLogEntryWrite _ => [.swc, .brg, .ins]
  | .instanceReset _ => [.regs, .flt, .trc, .swc, .brg, .lode, .host, .wtt, .ins, .dma, .outbox, .fresh]
  | .instanceResetStallEnd _ => [.regs, .trc, .swc, .brg, .lode, .host, .wtt, .ins, .dma, .outbox, .fresh]
  | .instanceResetDrainEnd _ => [.regs, .bus, .evc, .trc, .swc, .brg, .host, .ins, .dma]
  | .release _ => [.regs, .modes, .core, .bus, .mem, .evc, .flt, .trc, .swc, .brg, .lode, .host, .wtt, .ins, .dma,
      .str, .cal, .age, .gal, .outbox, .fresh]
  | .eventPinChange _ _ _ => [.regs, .evc]
  | .pendingWordWrite _ _ _ _ => [.regs, .modes, .core, .bus, .mem, .evc, .flt, .trc, .swc, .brg, .lode, .host, .wtt,
      .ins, .dma, .str, .cal, .age, .gal, .outbox, .fresh]
  | .pendingWordRead _ _ => [.regs, .modes, .core, .bus, .mem, .evc, .flt, .trc, .swc, .brg, .lode, .host, .wtt, .ins,
      .dma, .str, .cal, .age, .gal, .outbox, .fresh]
  | .routeWrite _ _ _ => [.regs, .modes, .core, .bus, .mem, .evc, .flt, .trc, .swc, .brg, .lode, .host, .wtt, .ins,
      .dma, .str, .cal, .age, .gal, .outbox, .fresh]
  | .evcDelivery _ => [.regs, .evc, .swc, .brg]
  | .targetDone _ _ _ _ => [.regs, .modes, .core, .bus, .mem, .evc, .flt, .trc, .swc, .brg, .lode, .host, .wtt, .ins,
      .dma, .str, .cal, .age, .gal, .outbox, .fresh]
  | .holdoffExpiry _ _ => [.regs, .evc]
  | .faultRecord _ _ _ _ _ => [.regs, .modes, .core, .mem, .evc, .flt, .trc, .swc, .brg, .lode, .host, .wtt, .ins,
      .dma, .outbox, .fresh]
  | .headframeFaultService _ => [.regs, .evc, .trc]
  | .faultAcknowledge _ _ _ => [.regs, .modes, .core, .bus, .mem, .evc, .flt, .trc, .swc, .brg, .lode, .host, .wtt,
      .ins, .dma, .str, .cal, .age, .gal, .outbox, .fresh]
  | .classBExpiry _ _ _ => [.regs, .mem, .flt, .trc, .swc, .brg, .lode, .host, .wtt, .ins, .dma, .outbox, .fresh]
  | .classCExpiry _ _ => [.regs, .modes, .core, .mem, .evc, .flt, .trc, .swc, .brg, .lode, .host, .wtt, .ins, .dma,
      .outbox, .fresh]
  | .hfWatchdog _ => [.regs, .modes, .core, .mem, .evc, .flt, .trc, .swc, .brg, .lode, .host, .wtt, .ins, .dma,
      .outbox, .fresh]
  | .dumpWrite => [.regs, .mem, .flt, .trc, .fresh]
  | .dumpComplete => [.regs, .mem, .flt]
  | .dumpRelease _ => [.regs, .modes, .core, .bus, .mem, .evc, .flt, .trc, .swc, .brg, .lode, .host, .wtt, .ins, .dma,
      .str, .cal, .age, .gal, .outbox, .fresh]
  | .faultLossSummary _ _ => [.regs, .mem, .flt, .trc]
  | .crystalStop => [.regs, .modes, .core, .mem, .evc, .flt, .trc, .swc, .brg, .lode, .host, .wtt, .ins, .dma, .cal,
      .outbox, .fresh]
  | .crystalResume => [.cal]
  | .timestampRead => [.regs, .modes, .core, .bus, .mem, .evc, .flt, .trc, .swc, .brg, .lode, .host, .wtt, .ins, .dma,
      .str, .cal, .age, .gal, .outbox, .fresh]
  | .timestampWrite => [.regs, .modes, .core, .bus, .mem, .evc, .flt, .trc, .swc, .brg, .lode, .host, .wtt, .ins,
      .dma, .str, .cal, .age, .gal, .outbox, .fresh]
  | .slew => [.regs, .modes, .core, .bus, .mem, .evc, .flt, .trc, .swc, .brg, .lode, .host, .wtt, .ins, .dma, .str,
      .cal, .age, .gal, .outbox, .fresh]
  | .slewEnd => [.cal]
  | .canarySample _ => [.regs, .modes, .core, .mem, .evc, .flt, .trc, .swc, .brg, .lode, .host, .wtt, .ins, .dma,
      .age, .outbox, .fresh]
  | .voltageRaiseStep _ _ => [.regs, .modes, .core, .mem, .evc, .flt, .trc, .swc, .brg, .lode, .host, .wtt, .ins,
      .dma, .age, .pwr, .outbox, .fresh]
  | .replanStart _ => [.regs, .modes, .core, .mem, .evc, .flt, .trc, .swc, .brg, .lode, .host, .wtt, .ins, .dma, .age,
      .outbox, .fresh]
  | .planNow _ => [.regs, .modes, .core, .bus, .mem, .evc, .flt, .trc, .swc, .brg, .lode, .host, .wtt, .ins, .dma,
      .str, .cal, .age, .gal, .outbox, .fresh]
  | .eqTrialEnd _ _ _ => [.age, .fresh]
  | .replanEnd _ => [.regs, .modes, .core, .mem, .evc, .flt, .trc, .swc, .brg, .lode, .host, .wtt, .ins, .dma, .age,
      .outbox, .fresh]
  | .maintGrant _ _ _ => [.regs, .modes, .core, .bus, .mem, .evc, .flt, .trc, .swc, .brg, .lode, .host, .wtt, .ins,
      .dma, .str, .cal, .age, .gal, .outbox, .fresh]
  | .maintWindowEnd _ => [.regs, .trc, .age]
  | .helloSend => [.gal, .outbox]
  | .ringFrameReceive _ _ => [.regs, .modes, .core, .bus, .mem, .evc, .flt, .trc, .swc, .brg, .lode, .host, .wtt,
      .ins, .dma, .str, .cal, .age, .gal, .outbox, .fresh]
  | .ringRxDown _ => [.regs, .modes, .core, .mem, .evc, .flt, .trc, .swc, .brg, .lode, .host, .wtt, .ins, .dma,
      .outbox, .fresh]
  | .ringRxUp _ => [.regs]
  | .packageLost _ => [.regs, .trc, .gal]
  | .rread _ => [.regs, .modes, .core, .bus, .mem, .evc, .flt, .trc, .swc, .brg, .lode, .host, .wtt, .ins, .dma, .str,
      .cal, .age, .gal, .outbox, .fresh]
  | .rwrite _ => [.regs, .modes, .core, .bus, .mem, .evc, .flt, .trc, .swc, .brg, .lode, .host, .wtt, .ins, .dma,
      .str, .cal, .age, .gal, .outbox, .fresh]
  | .distImg _ => [.regs, .modes, .core, .bus, .mem, .evc, .flt, .trc, .swc, .brg, .lode, .host, .wtt, .ins, .dma,
      .str, .cal, .age, .gal, .outbox, .fresh]
  | .hfErase _ => [.regs, .modes, .core, .bus, .mem, .evc, .flt, .trc, .swc, .brg, .lode, .host, .wtt, .ins, .dma,
      .str, .cal, .age, .gal, .outbox, .fresh]
  | .distHf _ => [.regs, .modes, .core, .bus, .mem, .evc, .flt, .trc, .swc, .brg, .lode, .host, .wtt, .ins, .dma,
      .str, .cal, .age, .gal, .outbox, .fresh]
  | .hfCheck _ => [.regs, .modes, .core, .bus, .mem, .evc, .flt, .trc, .swc, .brg, .lode, .host, .wtt, .ins, .dma,
      .str, .cal, .age, .gal, .outbox, .fresh]
  | .remoteTimeout _ => [.regs, .bus, .gal]
  | .timeSend => [.regs, .gal, .outbox]
  | .galSyncEdge => [.regs, .trc, .cal, .gal, .fresh]
  | .syncLost => [.regs, .trc]
  | .followingTimeout => [.cal]
  | .traceLossSummary _ _ => [.regs, .trc]
  | .alarmRead _ => [.regs, .modes, .core, .bus, .mem, .evc, .flt, .trc, .swc, .brg, .lode, .host, .wtt, .ins, .dma,
      .str, .cal, .age, .gal, .outbox, .fresh]
  | .alarmAck _ => [.regs, .modes, .core, .bus, .mem, .evc, .flt, .trc, .swc, .brg, .lode, .host, .wtt, .ins, .dma,
      .str, .cal, .age, .gal, .outbox, .fresh]
  | .alarmWrite _ => [.regs, .modes, .core, .bus, .mem, .evc, .flt, .trc, .swc, .brg, .lode, .host, .wtt, .ins, .dma,
      .str, .cal, .age, .gal, .outbox, .fresh]
  | .governorWindow _ _ => [.regs, .modes, .core, .mem, .evc, .flt, .trc, .swc, .brg, .lode, .host, .wtt, .ins, .dma,
      .pwr, .outbox, .fresh]
  | .tempSample _ _ _ _ _ => [.regs, .modes, .core, .mem, .evc, .flt, .trc, .swc, .brg, .lode, .host, .wtt, .ins,
      .dma, .outbox, .fresh]
  | .vbatSample _ => [.regs, .trc]
  | .chargeControlWrite _ _ => [.regs, .modes, .core, .bus, .mem, .evc, .flt, .trc, .swc, .brg, .lode, .host, .wtt,
      .ins, .dma, .str, .cal, .age, .gal, .outbox, .fresh]
  | .pmbusRetry _ => [.regs, .trc, .pwr, .outbox]
  | .vrmAlert => [.regs, .trc]
  | .smbusBlockRead _ => [.outbox]
  | .dlUp _ _ _ _ => [.regs, .outbox]
  | .rateChanged _ _ => [.regs, .trc]
  | .l0pChanged _ _ => [.regs, .trc]
  | .ltpHeldRead _ _ => [.regs, .modes, .core, .bus, .mem, .evc, .flt, .trc, .swc, .brg, .lode, .host, .wtt, .ins,
      .dma, .str, .cal, .age, .gal, .outbox, .fresh]
  | .readVoutSample _ _ => [.regs, .trc, .pwr, .outbox]
  | .vbatLost => [.cal]

/-- What a command that is one access to a register changes of itself, while no posted write waits to cross ahead of it (R88); of the
other commands, all they may change. -/
def Instr.own : Instr → List Machine.Grp
  | .enterService _ => [.regs, .modes, .core, .bus, .evc, .flt, .trc, .swc, .brg, .lode, .host, .wtt, .ins, .dma,
      .age, .outbox, .fresh]
  | .enterRecovery _ => [.regs, .modes, .core, .bus, .evc, .flt, .trc, .swc, .brg, .lode, .host, .wtt, .ins, .dma,
      .age, .outbox, .fresh]
  | .enterTest _ => [.regs, .modes, .core, .bus, .evc, .flt, .trc, .swc, .brg, .lode, .host, .wtt, .ins, .dma, .age,
      .outbox, .fresh]
  | .tileReset _ _ => [.regs, .modes, .core, .bus, .evc, .flt, .trc, .swc, .brg, .lode, .host, .wtt, .ins, .dma, .age,
      .outbox, .fresh]
  | .testMemoryBist _ => [.regs, .core]
  | .testPrbs _ _ => [.regs, .core]
  | .testNearLoopback _ _ => [.regs, .core]
  | .testFarLoopback _ _ => [.regs, .core]
  | .testStop _ _ _ => [.regs, .core]
  | .verify => [.regs, .str]
  | .activate => [.regs, .str]
  | .commitFloor => [.regs, .str]
  | .enrol => [.regs, .str]
  | .eraseInactive => [.regs, .str]
  | .refreshFlash => [.regs, .str]
  | .strImgDataWrite _ _ => [.regs, .mem]
  | .rateCapWrite _ _ => [.regs, .outbox]
  | .narrowWrite _ _ => [.regs, .outbox]
  | .wakeAssert _ => [.regs, .host, .outbox]
  | .retrain _ => [.regs, .outbox]
  | .ltrWrite _ _ => [.regs, .outbox]
  | .change _ _ => [.regs, .lode]
  | .down _ _ => [.regs, .modes, .core, .mem, .evc, .flt, .trc, .swc, .brg, .lode, .host, .wtt, .ins, .dma, .outbox,
      .fresh]
  | .disable _ _ => [.regs, .modes, .core, .mem, .evc, .flt, .trc, .swc, .brg, .lode, .host, .wtt, .ins, .dma,
      .outbox, .fresh]
  | .swcCntRead _ => [.regs, .bus]
  | .swcCntWrite _ => [.regs, .bus]
  | .wttWindowRead _ => [.regs, .bus]
  | .wttWindowWrite _ => [.regs, .bus, .wtt]
  | .wttEntryRead _ _ => [.regs, .bus]
  | .wttEntryWrite _ _ => [.regs, .bus, .wtt]
  | .fill _ _ => [.regs, .bus, .wtt]
  | .fence _ _ => [.regs, .bus, .evc, .trc, .host, .wtt]
  | .restamp _ _ => [.regs, .bus, .evc, .trc, .host, .wtt]
  | .doorbellWrite _ _ _ _ _ => [.regs, .trc, .dma]
  | .inlineDoorbell _ _ _ _ => [.regs, .trc, .dma]
  | .queueEnable _ _ => [.regs, .dma]
  | .queueResume _ _ => [.regs, .dma]
  | .queueSkip _ _ => [.regs, .dma]
  | .queueReset _ _ => [.regs, .dma]
  | .cplHeadWrite _ _ _ _ => [.regs, .dma]
  | .dmaQctxRead _ => [.regs, .bus]
  | .dmaQctxWrite _ => [.regs, .bus, .dma]
  | .setShare _ => [.regs, .bus, .dma]
  | .qctxCommand _ => [.regs, .bus, .dma]
  | .dmaCntRead _ => [.regs, .bus]
  | .dmaCntWrite _ => [.regs, .bus]
  | .instanceRead _ _ => [.regs, .bus]
  | .instanceWrite _ _ => [.regs, .bus, .ins]
  | .create _ _ => [.regs, .bus, .evc, .brg, .host, .ins, .dma]
  | .remove _ _ => [.regs, .bus, .flt, .trc, .swc, .brg, .lode, .host, .wtt, .ins, .dma, .outbox, .fresh]
  | .bind _ _ => [.regs, .bus, .evc, .host, .ins, .dma]
  | .unbind _ _ => [.regs, .bus, .swc, .brg, .lode, .host, .ins]
  | .freeze _ _ => [.regs, .bus, .evc, .trc, .swc, .brg, .host, .wtt, .ins, .dma]
  | .instanceResume _ _ => [.regs, .bus, .evc, .swc, .brg, .ins]
  | .instanceResetCommand _ _ => [.regs, .bus, .flt, .trc, .swc, .brg, .lode, .host, .wtt, .ins, .dma, .outbox,
      .fresh]
  | .setWeight _ _ => [.regs, .bus, .ins]
  | .logClear _ _ => [.regs, .bus, .ins]
  | .logCmdClear _ => [.regs, .ins]
  | .logEnable _ => [.regs, .ins]
  | .release _ => [.regs, .trc, .ins]
  | .pendingWordWrite _ _ _ _ => [.regs, .evc]
  | .pendingWordRead _ _ => [.evc, .outbox]
  | .routeWrite _ _ _ => [.regs, .evc]
  | .targetDone _ _ _ _ => [.regs, .evc]
  | .faultAcknowledge _ _ _ => [.regs, .flt]
  | .dumpRelease _ => [.regs, .mem]
  | .timestampRead => [.regs, .bus, .cal, .fresh]
  | .timestampWrite => [.regs, .bus, .trc, .cal]
  | .slew => [.regs, .bus, .cal]
  | .planNow _ => [.regs, .modes, .core, .mem, .evc, .flt, .trc, .swc, .brg, .lode, .host, .wtt, .ins, .dma, .age,
      .outbox, .fresh]
  | .maintGrant _ _ _ => [.regs, .modes, .core, .mem, .evc, .flt, .trc, .swc, .brg, .lode, .host, .wtt, .ins, .dma,
      .age, .outbox, .fresh]
  | .rread _ => [.regs, .bus, .gal, .outbox]
  | .rwrite _ => [.regs, .bus, .gal, .outbox]
  | .distImg _ => [.regs, .bus, .gal, .outbox]
  | .hfErase _ => [.regs, .bus, .gal, .outbox]
  | .distHf _ => [.regs, .bus, .gal, .outbox]
  | .hfCheck _ => [.regs, .bus, .gal, .outbox]
  | .alarmRead _ => [.regs, .bus]
  | .alarmAck _ => [.regs, .bus, .trc]
  | .alarmWrite _ => [.regs, .bus]
  | .chargeControlWrite _ _ => [.regs]
  | .ltpHeldRead _ _ => [.regs, .outbox]
  | c => c.touches

/-- The register, by tile and offset, that a command reads or writes in the control space, if it is one such access. -/
def Instr.register : Instr → Option (Nat × Nat)
  | .enterService t => some (t, 0x108)
  | .enterRecovery t => some (t, 0x108)
  | .enterTest t => some (t, 0x108)
  | .tileReset t _ => some (t, 0x110)
  | .testMemoryBist t => some (t, 0x120)
  | .testPrbs t _ => some (t, 0x120)
  | .testNearLoopback t _ => some (t, 0x120)
  | .testFarLoopback t _ => some (t, 0x120)
  | .testStop t _ _ => some (t, 0x120)
  | .verify => some (0, 0xA000004)
  | .activate => some (0, 0xA000004)
  | .commitFloor => some (0, 0xA000004)
  | .enrol => some (0, 0xA000004)
  | .eraseInactive => some (0, 0xA000004)
  | .refreshFlash => some (0, 0xA000004)
  | .strImgDataWrite _ _ => some (0, 0xA000024)
  | .rateCapWrite h _ => some (h / 4, hpt (h % 4) 4)
  | .narrowWrite h _ => some (h / 4, hpt (h % 4) 4)
  | .wakeAssert h => some (h / 4, hpt (h % 4) 4)
  | .retrain h => some (h / 4, hpt (h % 4) 4)
  | .ltrWrite h _ => some (h / 4, hpt (h % 4) 0x1C)
  | .change t n => some (t, lnk n 4)
  | .down t n => some (t, lnk n 4)
  | .disable t n => some (t, lnk n 4)
  | .swcCntRead t => some (t, 0x3000400)
  | .swcCntWrite t => some (t, 0x3000400)
  | .wttWindowRead t => some (t, winMb)
  | .wttWindowWrite t => some (t, winMb)
  | .wttEntryRead t m => some (t, 0x4000200 + 0x80 * m)
  | .wttEntryWrite t m => some (t, 0x4000200 + 0x80 * m)
  | .fill t m => some (t, 0x4000200 + 0x80 * m)
  | .fence t _ => some (t, 0x4000000)
  | .restamp t _ => some (t, 0x4000000)
  | .dmaQctxRead t => some (t, qctxMb)
  | .dmaQctxWrite t => some (t, qctxMb)
  | .setShare t => some (t, qctxMb)
  | .qctxCommand t => some (t, qctxMb)
  | .dmaCntRead t => some (t, 0x5000300)
  | .dmaCntWrite t => some (t, 0x5000300)
  | .instanceRead t m => some (t, insMb m)
  | .instanceWrite t m => some (t, insMb m)
  | .create t m => some (t, insMb m)
  | .remove t m => some (t, insMb m)
  | .bind t m => some (t, insMb m)
  | .unbind t m => some (t, insMb m)
  | .freeze t m => some (t, insMb m)
  | .instanceResume t m => some (t, insMb m)
  | .instanceResetCommand t m => some (t, insMb m)
  | .setWeight t m => some (t, insMb m)
  | .logClear t m => some (t, insMb m)
  | .pendingWordWrite t w _ _ => some (t, 0x7000000 + 4 * w)
  | .pendingWordRead t w => some (t, 0x7000000 + 4 * w)
  | .routeWrite t src _ => some (t, evcSrc src)
  | .targetDone t x _ _ => some (t, tgtReg x 8)
  | .faultAcknowledge t b _ => some (t, fltB b 0)
  | .dumpRelease _ => some (0, 0x8001004)
  | .timestampRead => some (0, tsMb)
  | .timestampWrite => some (0, tsMb)
  | .slew => some (0, tsMb)
  | .planNow _ => some (0, 0x9000080)
  | .maintGrant t _ _ => some (t, 0x9000094)
  | .rread m => some (0, 0xB000100 + 0x80 * m)
  | .rwrite m => some (0, 0xB000100 + 0x80 * m)
  | .distImg m => some (0, 0xB000100 + 0x80 * m)
  | .hfErase m => some (0, 0xB000100 + 0x80 * m)
  | .distHf m => some (0, 0xB000100 + 0x80 * m)
  | .hfCheck m => some (0, 0xB000100 + 0x80 * m)
  | .alarmRead t => some (t, 0xD000000)
  | .alarmAck t => some (t, 0xD000000)
  | .alarmWrite t => some (t, 0xD000000)
  | .chargeControlWrite _ _ => some (0, 0xC000020)
  | .ltpHeldRead t n => some (t, ltp n 4)
  | _ => none

end Sys2Proof
end

