-- ==== Sys2Proof/Certificates/Slice0/Obligations.lean ====
section
/-! DEFINITION. The statements for the provers, each with the rule of the manual it formalises. -/

namespace Sys2Proof.Machine

open Sys2Proof

/-! ## Terms of the statements -/

/-- A tile that runs and whose ports are open (R20, R52), outside the recovery shape (R46) and with the fatal latch clear (R339). -/
def TileOpen (s : State) (t : Nat) : Prop :=
  t < s.part.tiles ∧ 2 ≤ mode s t ∧ (tileSt s t).fenced = false ∧ (tileSt s t).resetting = false ∧
  gf s 0 0xA000000 3 1 = 0 ∧ gf s 0 0x118 0 1 = 0

/-- An access to a register of a tile's control space reaches it, and no write posted before it into the register's domain waits: the tile
is not off, its ports are open or the part is in the recovery shape, whose control space answers (R20, R46, R52, R72), and the crossing
queue is empty (R88). -/
def Reaches (s : State) (t off : Nat) : Prop :=
  t < s.part.tiles ∧ mode s t ≠ 0 ∧ (portsClosed s t = false ∨ recoveryShape s = true) ∧ regOpen s t off = true ∧
  Tbl.get [] s.bus.xq (xqKey t (blockDomain (off / 0x1000000))) = []

/-- A command that is one access to a register of a tile reaches it. -/
def Heard (s : State) (c : Instr) : Prop := ∃ t off, c.register = some (t, off) ∧ Reaches s t off

/-- A driver's access to the page of its instance reaches it: the instance is bound and live (R53, R73), and no write posted before it
into the clock domain `dom` waits (R88, R432). -/
def PageReaches (s : State) (i dom : Nat) : Prop :=
  i < 512 * s.part.tiles ∧ (∃ h, instLink s i = some h) ∧ live s i = true ∧ Tbl.get [] s.bus.xq (xqKey (homeTile i) dom) = []

/-- One register of one tile. -/
def at_ (t off : Nat) : Nat → Nat → Prop := fun u o => u = t ∧ o = off

/-- One of several registers of one tile. -/
def ats (t : Nat) (l : List Nat) : Nat → Nat → Prop := fun u o => u = t ∧ o ∈ l

/-- A register whose row alone says what a write does: of the SWC, DMA, INS, GAL and TRC blocks, and of no mailbox. -/
def RowAlone (off : Nat) (r : Row) : Prop :=
  findRow off = some r ∧ r.w1c = 0 ∧ off / 0x1000000 ∈ [3, 5, 6, 11, 13] ∧ mbDataAt off = none ∧ mbAt off = none

/-- The offset of a register of host link `h` in its tile (R117). -/
abbrev hptOf (h o : Nat) : Nat := hpt (h % 4) o

/-- A frame that enters tile `t` and meets no refusal on its way to an output that is up (R20, R52, R156, R157, R187, R238). -/
def Passes (s : State) (t : Nat) (f : Frame) : Prop :=
  f.mc = none ∧ f.locked = none ∧ f.bad = false ∧ f.pkt.ty ≠ .notice ∧ (f.pkt.isRsp = true → epochsCurrent s f.links = true) ∧
  portsClosed s t = false ∧ (tileSt s t).transitStop = false ∧ refusesInstances s t = false ∧ outUp s t (outOf s t f) = true ∧
  (4 ≤ outOf s t f → outOf s t f < 12 → lockEnded s t (outOf s t f - 4) f = false)

/-- At output `o` the class `c` alone is eligible, its deficit is above zero, and the turn falls on the head `(id, q, x)` of input `i`, a
frame that is whole, of its age, and in whose cells no error has been found; nothing is left that the management port has been given
and has not acted on (R12, R191, R192, R195, R198). -/
def TurnOf (s : State) (t o i c id : Nat) (q : Option (Nat × Nat)) (x : Stored) : Prop :=
  c < 4 ∧ s.swc.urgent = [] ∧ (∃ l, inputsOf s t o c = i :: l) ∧ (∀ d, d < 4 → d ≠ c → inputsOf s t o d = []) ∧
  0 < deficitOf s t o c ∧ Tbl.get [] s.swc.mgmt t = [] ∧ headOf s t o i c = some (id, q, x) ∧ x.f.bad = false ∧ aged s t x = false ∧ x.ecc = none

/-- A mailbox's taking of command `op`: BUSY set, VALID cleared, SEQ counted up, OP stored, the rest of MB_CTRL kept, no other register
changed (R84), and `e` the outcome its end will show. -/
def MbTakes (t mb op : Nat) (e : MbEnd) (s s' : State) : Prop :=
  gf s' t mb 30 1 = 1 ∧ gf s' t mb 31 1 = 0 ∧ gf s' t mb 24 4 = op ∧ gf s' t mb 16 8 = (gf s t mb 16 8 + 1) % 256 ∧
  gf s' t mb 28 2 = gf s t mb 28 2 ∧ gf s' t mb 0 16 = gf s t mb 0 16 ∧ RegsBut (at_ t mb) s s' ∧
  Tbl.get .running s'.bus.mb (key t mb) = e

/-- The words of a 64-bit count, low word first. -/
def countWords (v : Nat) : MbEnd := .ok [word (v % 2 ^ 32), word (v / 2 ^ 32)]

/-- A host request enters the switch core by its host port (R21, R22, R184, R230): its frame names its destination and belongs to instance
`i` in its generation of now; a non-posted one takes the lowest free inbound entry, which holds its tag and requester. -/
def SentOn (s s' : State) (r : Tlp) (f i x b dstTile dstPort a len : Nat) (glob : Bool) (cargo : HReq → Cargo) : Prop :=
  let u := r.link / 4
  let g := (instOf s i).gen
  let e := if r.kind = .write then none else freeInb s u
  (∃ y, Tbl.get [] s'.swc.ingress (ingKey u 0 (r.link % 4)) = Tbl.get [] s.swc.ingress (ingKey u 0 (r.link % 4)) ++ [y] ∧
    y.serial = s.brg.serial ∧ y.dstTile = dstTile ∧ y.dstPort = dstPort ∧ y.pkt.ty = kindType r.kind ∧ y.pkt.inst = i ∧ y.pkt.gen = g ∧
    y.pkt.glob = glob ∧ y.cargo = cargo ⟨e.map (fun e => (u, e)), r.link, f, i, g, r.kind, b, x, r.dws, r.fbe, r.lbe,
      if r.kind = .write then bytesAt r.data 0 (4 * r.dws) else r.data, r.rlx, r.ns⟩ ∧
    y.issuer = e.elim .nobody (fun e => .inbound u e)) ∧
  (∀ k, e = some k → Tbl.get none s'.host.inb (u * 1024 + k) = some ⟨r.link, f, i, g, r.kind, r.tag, r.rid, a, len, [], false, none⟩)

/-- Every queue's context words but those of one queue that `l` lists read as before. -/
def WordsBut (t q : Nat) (l : List Nat) (s s' : State) : Prop :=
  ∀ u r n, r < 16384 → n < 16 → ¬ (u = t ∧ r = q ∧ n ∈ l) → qw s' u r n = qw s u r n

/-- Every queue but one keeps its engine state. -/
def EnginesBut (t q : Nat) (s s' : State) : Prop := ∀ u r, r < 16384 → ¬ (u = t ∧ r = q) → eng s' u r = eng s u r

/-- A driver's write to the page of its instance is discarded and counted at the host link's tile: in [31:16] where the instance is not
live, in [15:0] where the slot is a reserved one (R53, R73). -/
def Discards (s : State) (c : Instr) (h lo : Nat) : Prop := Completes c s fun s' =>
  gf s' (linkTile h) (hpt (h % 4) 0x10) lo 16 = (gf s (linkTile h) (hpt (h % 4) 0x10) lo 16 + 1) % 65536 ∧
  BitsBut lo 16 (rreg s (linkTile h) (hpt (h % 4) 0x10)) (rreg s' (linkTile h) (hpt (h % 4) 0x10)) ∧
  RegsBut (at_ (linkTile h) (hpt (h % 4) 0x10)) s s' ∧ Same [.regs] s s'

/-- A queue's instance limits its driver's commands (R290). -/
def limited (s : State) (t q : Nat) : Bool :=
  (qOwner s t q).any (fun i => (instOf s i).frozen || (instOf s i).halted || (instOf s i).resetting)

/-- The reads of a queue's next fetch, as offset and length from HEAD (R250, R266). -/
def fetchReads (s : State) (t q i : Nat) : List (Nat × Nat) :=
  pieces (readUnit s i (qKind s t q == 1)) 256 (ringAddr s t q + 32 * qHead s t q) 0 (32 * Nat.min (fetchCount s t q) (slotsFor s t q))

/-- What halting queue `q` for `h` latches (R246, R278, R279): STATE HALTED, the error words, the counter of its side and the queue's event
source pending; the queue's other words but HEAD, and the other queues, are as before. -/
def Latched (t q : Nat) (h : Halt) (s s' : State) : Prop :=
  qState s' t q = 2 ∧ qw s' t q 9 = word (h.addr % 2 ^ 32) ∧ qw s' t q 10 = word (h.addr / 2 ^ 32) ∧
  (h.cause < 16 → h.status < 16 → h.desc < 65536 → qf s' t q 11 28 4 = h.cause ∧ qf s' t q 11 27 1 = b2n h.writeSide ∧ qf s' t q 11 26 1 = b2n h.islocal ∧
    qf s' t q 11 16 4 = h.status ∧ qf s' t q 11 0 16 = h.desc) ∧
  (let lo := if h.writeSide then 16 else 0; gf s' t 0x5000210 lo 16 = (gf s t 0x5000210 lo 16 + 1) % 65536) ∧
  (gf s t (evcSrc q) 31 1 = 1 → 2 ≤ mode s t → gf s' t (0x7000000 + 4 * (q / 32)) (q % 32) 1 = 1) ∧
  qf s' t q 0 16 12 = qf s t q 0 16 12 ∧
  WordsBut t q [0, 9, 10, 11] s s' ∧ EnginesBut t q s s' ∧ Same [.regs, .evc, .trc, .dma] s s'

/-- Started descriptors `rs` of queue `q` are unstarted again, before those it has fetched, or in the store of an inline one (R278). -/
def Returned (t q : Nat) (rs : List Run) (s s' : State) : Prop :=
  (qKind s t q ≠ 2 → (eng s' t q).fetched = rs.map Run.d ++ (eng s t q).fetched ∧ qHead s' t q = qHead s t q) ∧
  (qKind s t q = 2 → ∀ r rest, rs = r :: rest → qHead s' t q = r.d.idx % 65536 ∧
    ∀ x ∈ rs, (Tbl.find? (eng s' t q).store x.d.idx).isSome = true)

/-- The completion entry `c` of queue `q` leaves for the completion ring at CPL_TAIL, which advances (R258, R259). -/
def EntryWritten (t q i : Nat) (c : CplEnt) (s s' : State) : Prop :=
  let tail := qf s t q 7 0 16
  let phase := qf s t q 7 31 1
  let next := if tail + 1 = cplSize s t q then 0 else tail + 1
  qw s' t q 7 = word ((if next = 0 then 1 - phase else phase) * 2 ^ 31 + next) ∧
  (∃ y, Tbl.get [] s'.swc.ingress (ingKey t 9 0) = Tbl.get [] s.swc.ingress (ingKey t 9 0) ++ [y] ∧ y.pkt.ty = .wr ∧
    y.pkt.addr = cplAddr s t q + 16 * tail ∧ y.pkt.inst = i ∧
    y.pkt.data = leBytes 4 (phase * 2 ^ 31 + c.status * 2 ^ 24 + c.idx) ++ leBytes 4 c.cookie ++ leBytes 4 c.elements ++
      leBytes 4 ((instOf s i).gen * 2 ^ 24 + q) ∧
    (qf s t q 4 29 1 = 1 → (y.dstTile, y.dstPort, y.dstSub) = apDest s t q) ∧
    (qf s t q 4 29 1 = 0 → ∀ h, instLink s i = some h → (y.dstTile, y.dstPort, y.dstSub) = (h / 4, 0, h % 4))) ∧
  (c.irq = true → gf s t (evcSrc q) 31 1 = 1 → 2 ≤ mode s t → gf s' t (0x7000000 + 4 * (q / 32)) (q % 32) 1 = 1) ∧
  WordsBut t q [7] s s' ∧ EnginesBut t q s s' ∧ Same [.regs, .evc, .trc, .ins, .swc, .brg, .dma] s s'

end Sys2Proof.Machine

open Sys2Proof Sys2Proof.Machine

/-- For every command c and every state s: if every unit c names is one of the part, exec c s answers a next state, in
which the part, the fuses and the queue are as before, what was sent outside is still sent, the rollback floor has not
fallen, a customer key hash once written stands, and the register file and the memories keep their form if they had
it. If c names a tile, link, slot, port, queue, instance, mailbox or bank the part does not have, exec c s faults with
noSuchUnit, the model's own stop and its only fault. That a command whose condition does not hold changes nothing, and
so completes too, is the model's choice (log entry 10). (spec/95_what_each_step_holds.md, R2) -/
def Obligations.EveryCommandCompletesOrStops : Prop :=
  ∀ (c : Instr) (s : State),
    (c.wf s.part.tiles = true → Completes c s (Keeps s)) ∧ (c.wf s.part.tiles = false → exec c s = .fault .noSuchUnit)

/-- For every command c, queue q and state s: step of s with the queue c, then q, is exec c on s with the queue q; and no
command changes the queue. (spec/95_what_each_step_holds.md) -/
def Obligations.StepRunsFrontCommand : Prop :=
  ∀ (c : Instr) (q : List Instr) (s : State),
    step { s with pending := c :: q } = exec c { s with pending := q } ∧
    ∀ s', exec c { s with pending := q } = .next s' → s'.pending = q

/-- With an empty queue a step answers a next state with the queue still empty and the model's tick counter one higher,
and while the always-on domain has lost power, or the crystal stands still with main power gone, it changes nothing
else of the calendar. That a step on an empty queue is one crystal tick is the model's choice (log entry 8). (R350,
spec/17_time_ageing.md) -/
def Obligations.EmptyQueueTicks : Prop :=
  ∀ s : State, s.pending = [] →
    ∃ s', step s = .next s' ∧ s'.pending = [] ∧ s'.ticks = s.ticks + 1 ∧
      ((s.cal.dead = true ∨ (s.cal.still = true ∧ s.core.pwrgood = false)) → s'.cal = s.cal)

/-- For every state s whose register file lists each address once and rising, and whose MRAM and flash are in canonical
form (addresses rising, no cell equal to what an unlisted one reads as): if step s answers a next state, that state
has the same property. (R72, R25, R47) -/
def Obligations.StepKeepsInvariant : Prop :=
  ∀ s s' : State, s.Inv → step s = .next s' → s'.Inv

/-- For every state s: if step s answers a next state s', then s' has the same part and fuses, its rollback floor is not
below that of s (R45), a customer key hash that s holds stands in s' (R43), and everything s had sent outside is still
the beginning of what s' has sent, in order. (R45, R43, R78, R2) -/
def Obligations.StepKeepsWhatLasts : Prop :=
  ∀ s s' : State, step s = .next s' →
    s'.part = s.part ∧ s'.core.fuses = s.core.fuses ∧ s.otp.floor ≤ s'.otp.floor ∧
    (∀ k, s.otp.keyHash = some k → s'.otp.keyHash = some k) ∧ s.outbox <+: s'.outbox

/-- State.reset lists its registers rising and its memories in canonical form. In it every tile is in mode OFF (R52: a
tile enters OFF at power good low or RESET_N low), RESET_N is low, nothing waits, nothing has been sent, no instance
is bound and no link is up. That main power is good at reset is the model's choice (log entry 1). (R25, R52, R59, R66,
R72) -/
def Obligations.ResetMeetsInvariant : Prop :=
  State.reset.Inv ∧ (∀ t, t < State.reset.part.tiles → mode State.reset t = 0) ∧ State.reset.core.resetN = false ∧
  State.reset.pending = [] ∧ State.reset.outbox = [] ∧ (∀ i, (instOf State.reset i).state = .free) ∧
  (∀ h, hls State.reset h 31 1 = 0) ∧ ∀ t n, t < 8 → n < 11 → linkAlive State.reset t n = false

/-- For every command c and states s, s': if exec c s answers the next state s', then every group of fields that c is not
listed to touch is as before: registers, modes, tile state, bus, memories, event controller, faults, traces, switch
core, bridge, Lode links, host ports, windows, instances, DMA, images, calendar, ageing, Gallery, power, what was
sent. So a link training changes no instance, no window, no memory and no mode. A command that is one access to a
register lets the writes posted ahead of it into that register's domain act first (R88): its list holds what those may
change, and while none waits in any crossing queue it changes its own groups alone, so that a timestamp command
changes no link and a mailbox read registers and the bus alone. (spec/95_what_each_step_holds.md, R72, R88, R52) -/
def Obligations.CommandsTouchOnlyTheirGroups : Prop :=
  ∀ (c : Instr) (s s' : State), exec c s = .next s' →
    Same c.touches s s' ∧ (s.bus.xq = [] → Same c.own s s')

/-- For every step and every tile: GLB_TILE_MODE after the step comes from the word before it by changes each of which is
a row of the table of R57 (from a mode, to a mode, with its CAUSE), by the fall of RESET_N, which leaves the mode and
sets TRANSITIONS to 0, or by the loss of main power, after which it reads OFF. In particular a mode of 0 to 5 stays
one of 0 to 5. A change that is a row (setMode, through which every command changes a mode) leaves MODE the new mode,
PREV the old, CAUSE the cause, TRANSITIONS one higher modulo 256 and every other tile's word as before; one that is no
row does not occur, nor does any but boundary scan's own while the scan holds the package (R65). COMPOSE is entered
from FIDDLEHEAD alone and SERVICE from COMPOSE alone. (R57, R54, R55, R65) -/
def Obligations.ModesChangeOnlyAsTabled : Prop :=
  (∀ s s' : State, step s = .next s' → ∀ t,
    ModeMoves (Tbl.get 0 s.modes t) (Tbl.get 0 s'.modes t) ∧ (tileMode s t ≤ 5 → tileMode s' t ≤ 5)) ∧
  (∀ m cause, (modeRow m 2 cause = true → m = 1) ∧ (modeRow m 3 cause = true → m = 2)) ∧
  ∀ (s : State) (t m cause : Nat),
    (modeRow (tileMode s t) m cause = false → setMode s t m cause = s) ∧
    (s.core.scanned = true → cause ≠ 6 → setMode s t m cause = s) ∧
    (modeRow (tileMode s t) m cause = true → s.core.scanned = false ∨ cause = 6 →
      tileMode (setMode s t m cause) t = m ∧
      fld (Tbl.get 0 (setMode s t m cause).modes t) 4 4 = tileMode s t ∧
      fld (Tbl.get 0 (setMode s t m cause).modes t) 8 4 = cause ∧
      fld (Tbl.get 0 (setMode s t m cause).modes t) 16 8 = (fld (Tbl.get 0 s.modes t) 16 8 + 1) % 256 ∧
      ∀ u, u ≠ t → Tbl.get 0 (setMode s t m cause).modes u = Tbl.get 0 s.modes u)

/-- REGISTER_WRITE: for every open tile and every register of a domain other than 21, the write is appended to the tile's
crossing queue into that domain with its byte enables, and nothing else changes: no register, no other queue. (Which
byte within the DW the address names does not matter.) (R88, R72, R75) -/
def Obligations.RegisterWritesArePosted : Prop :=
  ∀ (s : State) (t off : Nat) (be : BitVec 4) (v : Word),
    TileOpen s t → off < 0x10000000 → regThere s t (dwOff off) = true → blockDomain (dwOff off / 0x1000000) ≠ 21 →
    exec (.registerWrite t off be v) s = .next { s with bus := { s.bus with
      xq := Tbl.app s.bus.xq (xqKey t (blockDomain (dwOff off / 0x1000000))) [.reg (dwOff off) be v] } }

/-- CROSSING_WRITE_TAKES_EFFECT, in a tile that is not fenced: the write at the head of the crossing queue leaves the
queue. Where it names a register whose row alone says what a write does, that register takes the merge of the old word
and the written fields (R79, R87), every other register reads as before, and nothing but registers and the bus
changes; on an empty queue the command changes nothing (log entry 10). A command that is one access to a register of a
tile: while the tile is off it changes nothing; while the tile's ports are closed, outside the recovery shape, a write
is discarded and counted in DOWN of port 10 and nothing else changes, and a read changes nothing (R20, R52); where
control space answers at no such offset nothing changes (R46); and where it reaches its register before and after the
writes posted ahead of it have taken effect, it does what it does after them. (R88, R79, R75, R87, R20, R46, R52) -/
def Obligations.PostedWritesTakeEffectInOrder : Prop :=
  (∀ (s : State) (t dom : Nat), t < s.part.tiles → dom = 21 ∨ (tileSt s t).fenced = false →
    (Tbl.get [] s.bus.xq (xqKey t dom) = [] → exec (.crossingWriteTakesEffect t dom) s = .next s) ∧
    ∀ (off : Nat) (be : BitVec 4) (v : Word) (rest : List Posted) (r : Row),
      Tbl.get [] s.bus.xq (xqKey t dom) = .reg off be v :: rest → off < 0x10000000 → RowAlone off r →
      absentReg s t off = false → inMgrTable s t off = false →
      Completes (.crossingWriteTakesEffect t dom) s fun s' =>
        rreg s' t off = regMerge r (rreg s t off) be v ∧ RegsBut (at_ t off) s s' ∧
        Tbl.get [] s'.bus.xq (xqKey t dom) = rest ∧ Same [.regs, .bus] s s') ∧
  ∀ (c : Instr) (t off : Nat) (s : State), c.register = some (t, off) → c.wf s.part.tiles = true → absentReg s t off = false →
    (mode s t = 0 → exec c s = .next s) ∧
    (mode s t ≠ 0 → portsClosed s t = true → recoveryShape s = false →
      exec c s = .next (if c = .pendingWordRead t ((off - 0x7000000) / 4) ∨ c = .ltpHeldRead t ((off - 0x2001000) / 0x40) then s
        else discDown s t 10)) ∧
    (mode s t ≠ 0 → portsClosed s t = false ∨ recoveryShape s = true → regOpen s t off = false → exec c s = .next s) ∧
    (let s' := crossAll s t (blockDomain (off / 0x1000000))
     mode s t ≠ 0 → (portsClosed s t = false ∨ recoveryShape s = true) → regOpen s t off = true → Reaches s' t off →
      absentReg s' t off = false → exec c s = exec c s')

/-- R80: bits [31:16] of a WM register read as zero whenever they did before, and bit n of [15:0] takes the written bit if
and only if bit n + 16 of the written value is 1, the mask byte is enabled and the value byte is enabled; in the write
0x0001_0001 with only byte 2 enabled nothing changes. Every register the part keeps under a write mask resets with
[31:16] zero and holds fields in [15:0] alone, so the register reads zero there. (R80) -/
def Obligations.WriteMaskSelectsBits : Prop :=
  (∀ (old : Word) (be : BitVec 4) (v : Word) (n : Nat), n < 16 →
    (wmMerge old be v).getLsbD n =
      (if v.getLsbD (n + 16) && be.getLsbD (2 + n / 8) && be.getLsbD (n / 8) then v.getLsbD n else old.getLsbD n) ∧
    (wmMerge old be v).getLsbD (n + 16) = old.getLsbD (n + 16)) ∧
  (∀ old : Word, wmMerge old 4 0x00010001 = old) ∧
  (∀ b, b < 15 → ∀ r ∈ blockRows b, r.wm = true →
    r.reset < 65536 ∧ (∀ f ∈ r.fields, f.lo + f.n ≤ 16) ∧
    ∀ (old : Word) (be : BitVec 4) (v : Word), fld old 16 16 = 0 → fld (regMerge r old be v) 16 16 = 0)

/-- For every register row with disjoint fields: after a write each RW field holds the nearest allowed value to the merge
of its old bits and the enabled written bits, the lower bound where the merge lies below it and the upper where it
lies above; a W1C bit outside the fields is cleared by an enabled written 1 and else kept; every other bit is as
before. (R87, R79, R75) -/
def Obligations.FieldsAreClamped : Prop :=
  ∀ (lo n least most w1c : Nat) (old : Word) (be : BitVec 4) (v : Word), 0 < n → lo + n ≤ 32 → least ≤ most → most < 2 ^ n →
    let r : Row := { blk := 0, base := 0, fields := [⟨lo, n, least, most⟩], w1c := w1c }
    let m := fld (mergeBytes old be v) lo n
    let w := regMerge r old be v
    (w1c &&& ((2 ^ n - 1) * 2 ^ lo) = 0 →
      fld w lo n = (if m < least then least else if most < m then most else m)) ∧
    ∀ i, i < 32 → (i < lo ∨ lo + n ≤ i) →
      w.getLsbD i = (old.getLsbD i && !(w1c.testBit i && v.getLsbD i && be.getLsbD (i / 8)))

/-- RESERVED_ADDRESS_WRITE and REGISTER_WRITE at an address of an open tile that no register occupies:
GLB_ACC_ERR1.RESERVED_WRITES counts up, wrapping from 65,535 to 0, GLB_ACC_LAST shows KIND 3 and the offset of the
first byte enabled (of the DW where none is: log entry 67), every other register and every other group is as before.
(R72, R77) -/
def Obligations.ReservedWritesAreCounted : Prop :=
  ∀ (s : State) (t off : Nat) (be : BitVec 4) (v : Word) (c : Instr),
    c = .reservedAddressWrite t off be v ∨ c = .registerWrite t off be v →
    TileOpen s t → off < 0x10000000 → regThere s t (dwOff off) = false →
    Completes c s fun s' =>
      gf s' t 0x204 16 16 = (gf s t 0x204 16 16 + 1) % 65536 ∧ gf s' t 0x204 0 16 = gf s t 0x204 0 16 ∧
      rreg s' t 0x208 = word (3 * 2 ^ 28 + dwOff off + firstByte be) ∧ RegsBut (ats t [0x204, 0x208]) s s' ∧ Same [.regs] s s'

/-- TV_REGISTER_READ: with no copy upset the word is returned and nothing else changes. With one of the three copies
differing, the value two agree on is returned, all three then hold it, CORRECTED counts up and GLB_TV_LAST names the
register. TV_SCRUB: with no copy upset it changes nothing; with one register of the tile upset in one copy it restores
it, CORRECTED counting. (Copies differ only in states no command brings about: log entry 27.) (R81, R82, R77) -/
def Obligations.VotedRegistersHeal : Prop :=
  ∀ (s : State) (t off : Nat) (b c v : Word), TileOpen s t → off < 0x10000000 → isTv off = true →
    absentReg s t off = false → inMgrTable s t off = false → off ≠ 0x20C → off ≠ 0x210 →
    Tbl.get [] s.bus.xq (xqKey t (blockDomain (off / 0x1000000))) = [] →
    (Tbl.find? s.bus.tv (key t off) = none → exec (.tvRegisterRead t off) s = .next (emit s (.read t off (rreg s t off)))) ∧
    (Tbl.find? s.bus.tv (key t off) = some (b, c) →
      (b = c ∧ v = b ∧ rreg s t off ≠ b) ∨ (v = rreg s t off ∧ b ≠ c ∧ (b = v ∨ c = v)) →
      Completes (.tvRegisterRead t off) s fun s' =>
        s'.outbox = s.outbox ++ [.read t off v] ∧ rreg s' t off = v ∧ Tbl.find? s'.bus.tv (key t off) = none ∧
        gf s' t 0x20C 16 16 = (gf s t 0x20C 16 16 + 1) % 65536 ∧ rreg s' t 0x210 = word off ∧
        RegsBut (ats t [off, 0x20C, 0x210]) s s' ∧ Same [.regs, .bus, .outbox] s s') ∧
    (s.bus.tv = [] → exec (.tvScrub t) s = .next s) ∧
    (s.bus.tv = [(key t off, (b, b))] → rreg s t off ≠ b → off ∈ tvRegs s t →
      Completes (.tvScrub t) s fun s' =>
        s'.bus.tv = [] ∧ rreg s' t off = b ∧ gf s' t 0x20C 16 16 = (gf s t 0x20C 16 16 + 1) % 65536 ∧
        RegsBut (ats t [off, 0x20C, 0x210]) s s' ∧ Same [.regs, .bus] s s')

/-- INDIRECT_DATA_ACCESS of IND_MRAM_DATA: a read answers the word of the tile's MRAM at the address, zero past its 2 MiB,
and the address advances by 4, wrapping from 0xFFFF_FFFC to 0; a write changes no byte of MRAM and advances the
address alike. Every other register is as before. (R86, R64) -/
def Obligations.IndirectDataAdvances : Prop :=
  ∀ (s : State) (t : Nat), TileOpen s t → Tbl.get [] s.bus.xq (xqKey t 21) = [] →
    (Completes (.indirectDataAccess t 0xE000054 none) s fun s' =>
      s'.outbox = s.outbox ++ [.read t 0xE000054
        (if (rreg s t 0xE000050).toNat < 0x200000 then wordOf (mramRead s t (rreg s t 0xE000050).toNat 4) else 0)] ∧
      rreg s' t 0xE000050 = rreg s t 0xE000050 + 4 ∧ RegsBut (at_ t 0xE000050) s s' ∧ Same [.regs, .outbox, .fresh] s s') ∧
    ∀ (be : BitVec 4) (v : Word), Completes (.indirectDataAccess t 0xE000054 (some (be, v))) s fun s' =>
      rreg s' t 0xE000050 = rreg s t 0xE000050 + 4 ∧ RegsBut (at_ t 0xE000050) s s' ∧ Same [.regs] s s'

/-- MB_DATA_WRITE of a mailbox its access reaches: it is posted into the mailbox's domain (R88), but one into domain 21
acts at once; where it acts (at once, or as the head of its crossing queue, by CROSSING_WRITE_TAKES_EFFECT), while
BUSY is 0, VALID clears and the data word takes the enabled bytes; while BUSY is 1 nothing of the mailbox changes.
MAILBOX_COMMAND_END, in a tile that is not fenced (a mailbox of the ring's remote commands: of tile 0, its command not
one served at home): while BUSY is 1 and the command has an outcome, BUSY clears; with a result of words those words
stand in the data registers, RESULT is OK and VALID 1; with a failure RESULT holds its code and VALID is as it was
(cleared at acceptance); a mailbox of the SWC, WTT, DMA, CAL or TRC block leaves every other register as it was. With
no command running, or one still running, nothing changes. (R84, R83, R88, R432, R337) -/
def Obligations.MailboxDataAndEnd : Prop :=
  ∀ (s : State) (t mb : Nat), t < s.part.tiles → isMb mb = true → absentReg s t mb = false →
    (∀ (k : Nat) (be : BitVec 4) (v : Word), mbWord mb k = true →
      let dom := blockDomain (mb / 0x1000000)
      let off := mb + 0x10 + 4 * k
      (Reaches s t mb → dom ≠ 21 → exec (.mbDataWrite t mb k be v) s = .next (post s t dom (.reg off be v))) ∧
      ∀ (c : Instr) (rest : List Posted), (c = .mbDataWrite t mb k be v ∧ dom = 21 ∧ Reaches s t mb ∧ rest = []) ∨
          (c = .crossingWriteTakesEffect t dom ∧ dom ≠ 21 ∧ (tileSt s t).fenced = false ∧
            Tbl.get [] s.bus.xq (xqKey t dom) = .reg off be v :: rest) →
        Completes c s fun s' =>
          Tbl.get [] s'.bus.xq (xqKey t dom) = rest ∧ Same [.regs, .bus] s s' ∧
          (gf s t mb 30 1 = 1 → s'.regs = s.regs) ∧
          (gf s t mb 30 1 = 0 → rreg s' t mb = setFld (rreg s t mb) 31 1 0 ∧
            rreg s' t off = mergeBytes (rreg s t off) be v ∧ RegsBut (ats t [mb, off]) s s')) ∧
    (gf s t mb 30 1 = 0 ∨ Tbl.get .running s.bus.mb (key t mb) = .running → mb / 0x1000000 ≠ 6 → mb / 0x1000000 ≠ 0xB →
      exec (.mailboxCommandEnd t mb) s = .next s) ∧
    ((tileSt s t).fenced = false ∨ 0xA ≤ mb / 0x1000000 → gf s t mb 30 1 = 1 →
      (mb / 0x1000000 = 0xB → ∀ x, Tbl.get none s.gal.run ((mb - 0xB000100) / 0x80) = some x → x.isLocal = false) →
      ∀ e, Tbl.get .running s.bus.mb (key t mb) = e → e ≠ .running →
      Completes (.mailboxCommandEnd t mb) s fun s' =>
        gf s' t mb 30 1 = 0 ∧ BitsBut 28 4 (rreg s t mb) (rreg s' t mb) ∧
        (∀ d, e = .ok d → gf s' t mb 28 2 = 0 ∧ gf s' t mb 31 1 = 1 ∧
          ∀ k w, mbWord mb k = true → d[k]? = some w → rreg s' t (mb + 0x10 + 4 * k) = w) ∧
        (∀ c, c < 4 → e = .fails c → gf s' t mb 28 2 = c ∧ gf s' t mb 31 1 = gf s t mb 31 1) ∧
        (mb / 0x1000000 ≠ 6 → mb / 0x1000000 ≠ 0xB → Same [.regs, .bus] s s' ∧
          RegsBut (fun u o => u = t ∧ (o = mb ∨ ∃ d k, e = .ok d ∧ k < d.length ∧ o = mb + 0x10 + 4 * k)) s s'))

/-- ENTER_SERVICE, ENTER_RECOVERY and ENTER_TEST, whose write of GLB_MODE_CMD reaches the tile: the register holds KEY and
CMD as written. While GLB_MODE_STATUS.BUSY is 1 no other register, no mode and no running command changes; while it is
0 the command becomes the tile's running command and BUSY is 1, every other bit and register, every mode and every
other tile as before. (R55, R54, R79) -/
def Obligations.ModeCommandsStart : Prop :=
  ∀ (s : State) (t : Nat) (c : Instr) (x : ModeCmd) (k : Nat), Reaches s t 0x108 →
    (c, x, k) ∈ [(Instr.enterService t, ModeCmd.service, 1), (.enterRecovery t, .recovery, 2), (.enterTest t, .test, 3)] →
    Completes c s fun s' => rreg s' t 0x108 = word (0x4D * 2 ^ 24 + k) ∧
      (gf s t 0x10C 0 1 = 1 → RegsBut (at_ t 0x108) s s' ∧ Same [.regs, .bus] s s') ∧
      (gf s t 0x10C 0 1 = 0 → (tileSt s' t).modeCmd = some x ∧ gf s' t 0x10C 0 1 = 1 ∧
        BitsBut 0 1 (rreg s t 0x10C) (rreg s' t 0x10C) ∧ RegsBut (ats t [0x108, 0x10C]) s s' ∧ Same [.regs, .core, .bus] s s' ∧
        ∀ u, u ≠ t → tileSt s' u = tileSt s u)

/-- MODE_COMMAND_DONE with a command running, and no boundary scan holding the package: ENTER_SERVICE enters SERVICE from
COMPOSE, ends with WRONG_MODE (1) from any other mode and with NO_IMAGE (4) in the recovery shape; ENTER_RECOVERY
enters RECOVERY from COMPOSE or SERVICE and else ends with WRONG_MODE; ENTER_TEST enters TEST from COMPOSE with no
instance homed in the tile, and else ends with WRONG_MODE or INSTANCES_PRESENT (2). On entry CAUSE is 2 and RESULT 0.
BUSY is 0 after it, and the modes of other tiles are as before. With no command running nothing changes. (R55, R57,
R54, R65) -/
def Obligations.ModeCommandsEnd : Prop :=
  ∀ (s : State) (t : Nat), t < s.part.tiles →
    ((tileSt s t).modeCmd = none → exec (.modeCommandDone t) s = .next s) ∧
    ∀ x : ModeCmd, (tileSt s t).modeCmd = some x → s.core.scanned = false →
    let into := match x with
      | .service => 3
      | .recovery => 4
      | .test => 5
    let fails := match x with
      | .service => if mode s t ≠ 2 then 1 else if recoveryShape s then 4 else 0
      | .recovery => if mode s t = 2 ∨ mode s t = 3 then 0 else 1
      | .test => if mode s t ≠ 2 then 1 else if tileEmpty s t then 0 else 2
    Completes (.modeCommandDone t) s fun s' =>
      gf s' t 0x10C 0 1 = 0 ∧ gf s' t 0x10C 16 8 = fails ∧ (tileSt s' t).modeCmd = none ∧
      (fails ≠ 0 → s'.modes = s.modes ∧ RegsBut (at_ t 0x10C) s s' ∧ Same [.regs, .core] s s') ∧
      (fails = 0 → mode s' t = into ∧ fld (Tbl.get 0 s'.modes t) 8 4 = 2 ∧
        (∀ u, u ≠ t → mode s' u = mode s u) ∧ Same [.regs, .modes, .core, .evc, .trc, .host] s s')

/-- TEST_MEMORY_BIST, TEST_PRBS, TEST_NEAR_LOOPBACK and TEST_FAR_LOOPBACK, whose write of GLB_TEST_CTRL reaches the tile:
in a tile in TEST with RUNNING 0, GLB_TEST_CTRL holds PORTS and the test's code, GLB_TEST_STATUS shows RUNNING alone,
and the test acts on PORTS but for the host port of the tile that carries the manager function's link; otherwise
nothing changes. Every other register and group is as before. (R64) -/
def Obligations.TestsStart : Prop :=
  ∀ (s : State) (t code : Nat) (ports : BitVec 8) (c : Instr), Reaches s t 0x120 →
    (c = .testMemoryBist t ∧ code = 1 ∧ ports = BitVec.ofNat 8 (gf s t 0x120 8 8)) ∨ (c = .testPrbs t ports ∧ code = 2) ∨
      (c = .testNearLoopback t ports ∧ code = 3) ∨ (c = .testFarLoopback t ports ∧ code = 4) →
    (mode s t ≠ 5 ∨ gf s t 0x124 0 1 = 1 → exec c s = .next s) ∧
    (mode s t = 5 → gf s t 0x124 0 1 = 0 → Completes c s fun s' =>
      rreg s' t 0x120 = word (ports.toNat * 256 + code) ∧ rreg s' t 0x124 = 1 ∧
      (tileSt s' t).test = some ⟨code, testPorts s t ports⟩ ∧ RegsBut (ats t [0x120, 0x124]) s s' ∧
      Same [.regs, .core] s s')

/-- TEST_STOP, whose write of GLB_TEST_CTRL reaches the tile: a running test 2, 3 or 4 stops, TEST reads 0 with PORTS
unchanged, and GLB_TEST_STATUS holds ERRORS (saturating at 65,535), the failed ports among those tested, and PASS;
test 1 cannot be stopped. BIST_DONE: test 1 ends likewise, with the tile's windows and translation entries reading
zero, its queue contexts at reset, its trace records zero, its instance records FREE with GEN 255, and its frame
buffer, replay and reorder buffers empty; other tiles' windows, the modes and the memories are as before. With no such
test running nothing changes. (R64) -/
def Obligations.TestsEnd : Prop :=
  ∀ (s : State) (t errors : Nat) (failed : BitVec 8), t < s.part.tiles →
    (∀ x, (tileSt s t).test = some x → x.code ≠ 1 → Reaches s t 0x120 → Completes (.testStop t errors failed) s fun s' =>
      gf s' t 0x120 0 4 = 0 ∧ BitsBut 0 4 (rreg s t 0x120) (rreg s' t 0x120) ∧
      gf s' t 0x124 16 16 = Nat.min 65535 errors ∧ gf s' t 0x124 0 8 = (if errors = 0 then 2 else 0) ∧
      gf s' t 0x124 8 8 = (if errors = 0 then 0 else (failed &&& x.ports).toNat) ∧
      (tileSt s' t).test = none ∧ RegsBut (ats t [0x120, 0x124]) s s' ∧ Same [.regs, .core] s s') ∧
    (∀ x, (tileSt s t).test = some x → x.code = 1 →
      (Reaches s t 0x120 → exec (.testStop t errors failed) s = .next s) ∧
      Completes (.bistDone t errors) s fun s' =>
        rreg s' t 0x124 = word (Nat.min 65535 errors * 65536 + (if errors = 0 then 2 else 0)) ∧ (tileSt s' t).test = none ∧
        (∀ k, k / 8192 = t → Tbl.find? s'.wtt.wins k = none) ∧ (∀ k, k / 2097152 = t → Tbl.find? s'.wtt.ents k = none) ∧
        (∀ k, k / (16384 * 16) = t → Tbl.find? s'.dma.qctx k = none) ∧ (∀ k, k / (16 * 8192) = t → Tbl.find? s'.trc.recs k = none) ∧
        (∀ i, i / 512 = t → (instOf s' i).state = .free ∧ (instOf s' i).gen = 255) ∧
        (∀ e ∈ s'.swc.frames, e.1 / 2 ^ 32 ≠ t) ∧ (∀ n, n < 11 → (linkSt s' t n).replay = [] ∧ (linkSt s' t n).reorder = []) ∧
        (∀ k, k / 8192 ≠ t → Tbl.find? s'.wtt.wins k = Tbl.find? s.wtt.wins k) ∧ s'.modes = s.modes ∧ s'.mem = s.mem) ∧
    (∀ x, (tileSt s t).test = some x → x.code ≠ 1 → exec (.bistDone t errors) s = .next s) ∧
    ((tileSt s t).test = none → exec (.bistDone t errors) s = .next s ∧
      (Reaches s t 0x120 → exec (.testStop t errors failed) s = .next s))

/-- POWER_GOOD_RISE: main power is good, and a crystal stop seen on VBAT clears VALID. POWER_DOWN: every tile reads OFF,
instances, windows, queues, links and registers are at their reset values, the fatal latch is clear; MRAM, flash and
calendar time are kept. PACKAGE_RESET: likewise, but GLB_TILE_MODE keeps its MODE until RESET_N rises (R57), with
TRANSITIONS 0, the fatal latch and GLB_RESET_CAUSE are kept, with PACKAGE set, and calendar and main power are as
before. Both release every WAKE_N that is asserted. VBAT_LOST: with main power absent too the calendar is lost. Where
the condition does not hold (power already up or down, RESET_N low, main power present) nothing changes. (R66, R57,
R54, R398, R59, R351) -/
def Obligations.PowerAndResetClearWhatIsVolatile : Prop :=
  ∀ s : State,
    (s.core.pwrgood = true → exec .powerGoodRise s = .next s ∧ exec .vbatLost s = .next s) ∧
    (s.core.pwrgood = false → exec .powerDown s = .next s ∧
      exec .vbatLost s = .next { s with cal := { dead := true } } ∧
      Completes .powerGoodRise s fun s' => s'.core = { s.core with pwrgood := true } ∧ s'.cal.sec = s.cal.sec ∧
        s'.cal.sub = s.cal.sub ∧ s'.cal.valid = (s.cal.valid && !s.cal.stopFlag) ∧ Same [.core, .cal] s s') ∧
    (s.core.pwrgood = true → Completes .powerDown s fun s' =>
      s'.core.pwrgood = false ∧ s'.core.resetN = false ∧ (∀ t, tileMode s' t = 0) ∧ s'.ins = {} ∧ s'.wtt = {} ∧ s'.dma = {} ∧
      s'.lode = {} ∧ s'.host = {} ∧ s'.swc = {} ∧ s'.brg = {} ∧ (∀ t, t < 8 → rreg s' t 0x118 = 0 ∧ rreg s' t 0x114 = 1) ∧
      s'.mem = s.mem ∧ s'.otp = s.otp ∧ s'.cal.sec = s.cal.sec ∧ s'.cal.sub = s.cal.sub ∧
      s'.outbox = s.outbox ++ s.host.wakes.map (fun e => .wake e.1 false)) ∧
    (s.core.resetN = false → exec .packageReset s = .next s) ∧
    (s.core.resetN = true → Completes .packageReset s fun s' =>
      s'.core.resetN = false ∧ s'.core.pwrgood = s.core.pwrgood ∧
      (∀ t, tileMode s' t = tileMode s t ∧ fld (Tbl.get 0 s'.modes t) 16 8 = 0 ∧ mode s' t = 0) ∧ s'.ins = {} ∧ s'.wtt = {} ∧
      s'.dma = {} ∧ s'.lode = {} ∧ s'.host = {} ∧ s'.swc = {} ∧ s'.brg = {} ∧ s'.mem = s.mem ∧ s'.otp = s.otp ∧ s'.cal = s.cal ∧
      s'.outbox = s.outbox ++ s.host.wakes.map (fun e => .wake e.1 false) ∧
      ∀ t, t < s.part.tiles → rreg s' t 0x118 = rreg s t 0x118 ∧ gf s' t 0x114 1 1 = 1 ∧
        ∀ b, b ∈ [0, 2, 3, 4] → gf s' t 0x114 b 1 = gf s t 0x114 b 1)

/-- PACKAGE_START with main power good and RESET_N low: RESET_N is high and the straps are taken (where a crystal stop is
to be recorded, its cause being configured below class D). If neither Headframe copy passes, HF_COPY reads 3 and every
tile stays in FIDDLEHEAD. Otherwise HF_COPY names the copy used, and with the fatal latch set every tile enters
RECOVERY, fenced, with FATAL_BOOT; with it clear, in the recovery shape tile 0 enters COMPOSE and the others stay in
FIDDLEHEAD, and with an image every tile enters COMPOSE, or TEST if the image's TEST flag is set. With RESET_N high or
main power absent nothing changes. Whether a copy passes is open (log entry 13). (R59, R63, R69, R370, R57) -/
def Obligations.PackageStartReachesItsShape : Prop :=
  ∀ (s : State) (sel : Bool) (id : BitVec 5),
    (s.core.resetN = true ∨ s.core.pwrgood = false → exec (.packageStart sel id) s = .next s) ∧
    (s.core.resetN = false → s.core.pwrgood = true → (s.cal.stopFlag = true → faultClass s 0 9 1 ≠ 3) →
      Completes (.packageStart sel id) s fun s' =>
      s'.core.resetN = true ∧ s'.core.mgrSel = sel ∧ s'.core.pkgId = id ∧ gf s' 0 0x11C 4 2 = headframeUsed s ∧
      ((headframeUsed s = 3 ∧ (∀ t, t < s.part.tiles → mode s' t = 1)) ∨
       (headframeUsed s ≠ 3 ∧ gf s 0 0x118 0 1 = 1 ∧
          ∀ t, t < s.part.tiles → mode s' t = 4 ∧ (tileSt s' t).fenced = true ∧ gf s' t 0x114 4 1 = 1) ∨
       (headframeUsed s ≠ 3 ∧ gf s 0 0x118 0 1 = 0 ∧ recoveryShape s' = true ∧
          ∀ t, t < s.part.tiles → mode s' t = if t = 0 then 2 else 1) ∨
       (headframeUsed s ≠ 3 ∧ gf s 0 0x118 0 1 = 0 ∧ recoveryShape s' = false ∧
          ∀ t, t < s.part.tiles → mode s' t = if s'.str.testFlag then 5 else 2)))

/-- TILE_RESET, whose write of GLB_TILE_RESET reaches tile t, with no boundary scan holding the package: each tile named
that is present, not t itself, not OFF and not already in reset enters FIDDLEHEAD with CAUSE 7, its fence and transit
stop cleared, its reset running; the mode of every other tile is as before. TILE_RESET_COMPLETE of a tile in
FIDDLEHEAD whose reset runs and which has no instance reset running: the reset is over and the tile is in COMPOSE, or
in TEST where the active image's TEST flag was set at the package's start; in the recovery shape tile 0 is in COMPOSE
and any other still in FIDDLEHEAD. With no reset running nothing changes. (R56, R54, R67, R63, R65) -/
def Obligations.TileResetTakesOtherTiles : Prop :=
  (∀ (s : State) (t : Nat) (tiles : BitVec 8), Reaches s t 0x110 → s.core.scanned = false →
    Completes (.tileReset t tiles) s fun s' => ∀ u, u < s.part.tiles →
      (tiles.getLsbD u = true ∧ u ≠ t ∧ mode s u ≠ 0 ∧ (tileSt s u).resetting = false →
        mode s' u = 1 ∧ fld (Tbl.get 0 s'.modes u) 8 4 = 7 ∧ (tileSt s' u).resetting = true ∧
        (tileSt s' u).fenced = false ∧ (tileSt s' u).transitStop = false) ∧
      (tiles.getLsbD u = false ∨ u = t ∨ mode s u = 0 ∨ (tileSt s u).resetting = true →
        Tbl.get 0 s'.modes u = Tbl.get 0 s.modes u ∧ (tileSt s' u).resetting = (tileSt s u).resetting)) ∧
  (∀ (s : State) (u : Nat), u < s.part.tiles →
    ((tileSt s u).resetting = false → exec (.tileResetComplete u) s = .next s) ∧
    ((tileSt s u).resetting = true → mode s u = 1 → (∀ e ∈ s.ins.recs, e.1 / 512 = u → e.2.resetting = false) →
      s.core.scanned = false →
      Completes (.tileResetComplete u) s fun s' => (tileSt s' u).resetting = false ∧
        mode s' u = (if recoveryShape s then (if u = 0 then 2 else 1) else if s.str.testFlag then 5 else 2) ∧
        (∀ v, v ≠ u → mode s' v = mode s v) ∧ s'.mem = s.mem))

/-- JTAG_BOUNDARY_SCAN: every tile that is not OFF is in TEST with CAUSE 6, unfenced and not in reset, every tile OFF
stays OFF, and the pins are handed to the scan cells; nothing but modes, tile state, the event controllers, traces and
registers changes. TAP_RESET: the scan instruction is no longer loaded, and nothing else changes. (R65, R57, R431) -/
def Obligations.BoundaryScanPlacesEveryTileInTest : Prop :=
  ∀ s : State,
    (Completes .jtagBoundaryScan s fun s' =>
      s'.core.tapScan = true ∧ s'.core.scanned = s.core.pwrgood ∧
      (∀ t, t < s.part.tiles →
        (tileMode s t ≠ 0 → tileMode s' t = 5 ∧ fld (Tbl.get 0 s'.modes t) 8 4 = 6 ∧ (tileSt s' t).fenced = false ∧
          (tileSt s' t).transitStop = false ∧ (tileSt s' t).resetting = false) ∧
        (tileMode s t = 0 → Tbl.get 0 s'.modes t = Tbl.get 0 s.modes t)) ∧
      Same [.regs, .modes, .core, .evc, .trc] s s') ∧
    exec .tapReset s = .next { s with core := { s.core with tapScan := false } }

/-- VERIFY, ACTIVATE, COMMIT_FLOOR, ENROL, ERASE_INACTIVE and REFRESH_FLASH, whose write of STR_CMD reaches tile 0: while
BUSY is 1 the command is ignored, LAST_RESULT included. Otherwise it runs: STR_CMD holds its code, BUSY is 1, and
while PENDING is 1 VERIFY, ACTIVATE, ENROL and ERASE_INACTIVE are marked to end with PENDING_BLOCKS. No other register
and no memory changes. (R48, R47) -/
def Obligations.ImageCommandsStart : Prop :=
  ∀ (s : State) (c : Instr) (code : Nat), Reaches s 0 0xA000004 →
    (c, code) ∈ [(Instr.verify, 1), (.activate, 2), (.commitFloor, 3), (.enrol, 4), (.eraseInactive, 5), (.refreshFlash, 6)] →
    (s.str.run.isSome = true → exec c s = .next s) ∧
    (s.str.run = none → Completes c s fun s' =>
      s'.str.run = some (code, decide (gf s 0 0xA000000 5 1 = 1 ∧ code ∈ [1, 2, 4, 5])) ∧
      rreg s' 0 0xA000004 = word code ∧ gf s' 0 0xA000000 4 1 = 1 ∧ BitsBut 4 1 (rreg s 0 0xA000000) (rreg s' 0 0xA000000) ∧
      RegsBut (ats 0 [0xA000000, 0xA000004]) s s' ∧ Same [.regs, .str] s s')

/-- STR_COMMAND_DONE: with no command running nothing changes. Otherwise BUSY is 0 and no command runs after it. A blocked
command ends with PENDING_BLOCKS (8) and changes nothing else. VERIFY of the inactive slot sets VERIFIED with result 0
if the slot passes, and else clears it with the code of the check that failed; it leaves marker, floor and memories
alone. ACTIVATE of an unverified slot ends with result 10 and the marker as it was; of a verified one it turns the
active-slot marker to the other slot in all three copies, clears VERIFIED and starts that slot's flash copy. ENROL of
an enrolled part ends with ALREADY_ENROLLED (9) and the key hash as it was; of one that is not, with result 0,
ENROLLED set and the record's hash written where record and signature are in order, and else with a code of 1 to 3 and
the OTP region as it was (which code, in which order of the checks, is the model's choice: log entries 34 and 67).
ERASE_INACTIVE erases the inactive slot's 1 MiB and no other byte. REFRESH_FLASH starts the copies of both slots.
(R48, R49, R46, R43, R47) -/
def Obligations.ImageCommandsEnd : Prop :=
  ∀ s : State,
    (s.str.run = none → exec .strCommandDone s = .next s) ∧
    ∀ cmd blocked, s.str.run = some (cmd, blocked) → Completes .strCommandDone s fun s' =>
      s'.str.run = none ∧ gf s' 0 0xA000000 4 1 = 0 ∧
      (blocked = true → gf s' 0 0xA000000 16 8 = 8 ∧ s'.otp = s.otp ∧ s'.mem = s.mem ∧ s'.str.copies = s.str.copies ∧
        RegsBut (at_ 0 0xA000000) s s') ∧
      (blocked = false →
        (cmd = 1 → s'.otp = s.otp ∧ s'.mem = s.mem ∧
          match (verifyImage (slotImage s (1 - activeSlot s)) s.part.tiles s.otp.floor s.otp.keyHash).1 with
          | .ok _ => gf s' 0 0xA000000 1 1 = 1 ∧ gf s' 0 0xA000000 16 8 = 0
          | .error c => gf s' 0 0xA000000 1 1 = 0 ∧ gf s' 0 0xA000000 16 8 = c % 256) ∧
        (cmd = 2 → gf s 0 0xA000000 1 1 = 0 → gf s' 0 0xA000000 16 8 = 10 ∧ s'.otp = s.otp ∧ s'.mem = s.mem) ∧
        (cmd = 2 → gf s 0 0xA000000 1 1 = 1 →
          s'.otp = { s.otp with marker := [1 - activeSlot s, 1 - activeSlot s, 1 - activeSlot s] } ∧
          gf s' 0 0xA000000 16 8 = 0 ∧ gf s' 0 0xA000000 1 1 = 0 ∧ gf s' 0 0xA000000 7 1 = 1 ∧
          s'.str.copies = s.str.copies ++ [1 - activeSlot s] ∧ s'.mem = s.mem) ∧
        (cmd = 4 → s.otp.keyHash.isSome = true → gf s' 0 0xA000000 16 8 = 9 ∧ s'.otp = s.otp ∧ s'.mem = s.mem) ∧
        (cmd = 4 → s.otp.keyHash = none →
          let body := slotRead s (1 - activeSlot s) 64
          let sig := bytesAt (slotRead s (1 - activeSlot s) 848) 64 784
          let good := leAt body 0 4 = 0x4D5A454E ∧ leAt body 4 4 = 1 ∧ sigOk sig body = true ∧ leAt sig 4 4 = 2 ∧
            keyHashOf sig = s.core.fuses.rootHash
          s'.mem = s.mem ∧ s'.otp.floor = s.otp.floor ∧ s'.otp.marker = s.otp.marker ∧
          (good → gf s' 0 0xA000000 16 8 = 0 ∧ gf s' 0 0xA000000 2 1 = 1 ∧
            s'.otp.keyHash = some (BitVec.ofNat 256 (beNat (bytesAt body 16 32)))) ∧
          (¬ good → gf s' 0 0xA000000 16 8 ∈ [1, 2, 3] ∧ s'.otp = s.otp)) ∧
        (cmd = 5 → gf s' 0 0xA000000 16 8 = 0 ∧ gf s' 0 0xA000000 1 1 = 0 ∧ s'.mem.flash = s.mem.flash ∧ s'.otp = s.otp ∧
          ∀ a, Mem.read mramDefault s'.mem.mram a =
            if (1 - activeSlot s) * 0x200000 ≤ a ∧ a < (1 - activeSlot s) * 0x200000 + 0x100000 then mramDefault
            else Mem.read mramDefault s.mem.mram a) ∧
        (cmd = 6 → gf s' 0 0xA000000 16 8 = 0 ∧ gf s' 0 0xA000000 7 1 = 1 ∧ s'.str.copies = s.str.copies ++ [0, 1] ∧
          s'.otp = s.otp ∧ s'.mem = s.mem))

/-- R45: in every step the rollback floor stays as it was, unless the step ends a COMMIT_FLOOR while an image is active
(in the recovery shape none is until an ACTIVATE there has made one so), which raises it to the active image's
SEC_VERSION where that is higher, and shows it in STR_FLOOR; so it never falls and ACTIVATE leaves it. An image that
would be accepted with a floor of 0 is accepted exactly if its SEC_VERSION is not below the floor, and is rejected
with ROLLBACK below it, whichever candidate it is loaded from. (R45) -/
def Obligations.FloorChangesOnlyByCommit : Prop :=
  (∀ s s' : State, step s = .next s' →
    s.otp.floor ≤ s'.otp.floor ∧
    (s'.otp.floor = s.otp.floor ∨
      (s.pending.head? = some .strCommandDone ∧ s.str.run = some (3, false) ∧
        (recoveryShape s = true → gf s 0 0xA000014 8 1 = 1) ∧
        s'.otp.floor = Nat.max s.otp.floor (slotRecords s (activeSlot s)).secVer))) ∧
  (∀ s : State, s.str.run = some (3, false) → (recoveryShape s = true → gf s 0 0xA000014 8 1 = 1) → Completes .strCommandDone s fun s' =>
    s'.otp.floor = Nat.max s.otp.floor (slotRecords s (activeSlot s)).secVer ∧ rreg s' 0 0xA000008 = word s'.otp.floor ∧
    gf s' 0 0xA000000 16 8 = 0) ∧
  (∀ (img : List Byte) (tiles floor : Nat) (key : Option (BitVec 256)) (x : Image),
    (verifyImage img tiles 0 key).1.toOption = some x →
    (floor ≤ x.secVer → (verifyImage img tiles floor key).1.toOption = some x) ∧
    (x.secVer < floor → ∃ e, verifyImage img tiles floor key = (.error strRollback, e)))

/-- STR_IMG_DATA_WRITE that reaches tile 0: outside PENDING and within 1 MiB the enabled bytes go to the inactive slot in
MRAM at STR_IMG_ADDR, every other byte of MRAM and all of flash as before, and VERIFIED clears; while PENDING, or
beyond 1 MiB, no byte is written. The address advances by 4 either way. FLASH_COPY_DONE: the 1 MiB of the slot copied
stand in its place in flash, the next copy begins, and FLASH_BUSY stays set until the last ends. (R44, R47, R48) -/
def Obligations.SlotWritesAndCopies : Prop :=
  (∀ (s : State) (be : BitVec 4) (v : Word), Reaches s 0 0xA000024 → Completes (.strImgDataWrite be v) s fun s' =>
    let a := (rreg s 0 0xA000020).toNat
    let open_ := gf s 0 0xA000000 5 1 = 0 ∧ a < 0x100000
    rreg s' 0 0xA000020 = rreg s 0 0xA000020 + 4 ∧ s'.mem.flash = s.mem.flash ∧
    (∀ x, Mem.read mramDefault s'.mem.mram x =
      if open_ ∧ (1 - activeSlot s) * 0x200000 + a ≤ x ∧ x < (1 - activeSlot s) * 0x200000 + a + 4 ∧
          be.getLsbD (x - ((1 - activeSlot s) * 0x200000 + a)) = true then
        byteOf v (x - ((1 - activeSlot s) * 0x200000 + a))
      else Mem.read mramDefault s.mem.mram x) ∧
    (open_ → gf s' 0 0xA000000 1 1 = 0) ∧ BitsBut 1 1 (rreg s 0 0xA000000) (rreg s' 0 0xA000000) ∧
    RegsBut (ats 0 [0xA000000, 0xA000020]) s s' ∧ Same [.regs, .mem] s s') ∧
  (∀ s : State, (s.str.copies = [] → exec .flashCopyDone s = .next s) ∧
    ∀ slot rest, s.str.copies = slot :: rest → Completes .flashCopyDone s fun s' =>
      s'.str.copies = rest ∧ gf s' 0 0xA000000 7 1 = (if rest = [] then 0 else 1) ∧ s'.mem.mram = s.mem.mram ∧
      (∀ a, Mem.read flashDefault s'.mem.flash a =
        if flashSlot slot ≤ a ∧ a < flashSlot slot + 0x100000 then
          Mem.read mramDefault s.mem.mram (slot * 0x200000 + (a - flashSlot slot))
        else Mem.read flashDefault s.mem.flash a) ∧
      RegsBut (at_ 0 0xA000000) s s' ∧ Same [.regs, .mem, .str] s s')

/-- For every host link present, a register write that reaches its tile. RATE_CAP_WRITE: RATE_CAP takes the nearest value
from 1 to the link's HOST_MAXRATE (at least 1), and a link up above its new limit enters Recovery, asked for that
rate. NARROW_WRITE: NARROW takes the written value, at most 4, and a link up in flit mode is asked for the width it
then gives, where that is another. HOST_L0P_REQUEST: on a link up in flit mode the width asked for, within 1 and the
link's width, is granted, and otherwise nothing changes. WAKE_ASSERT drives WAKE_N with WAKE set; WAKE_TIMEOUT, in a
tile that is not fenced, releases it and clears WAKE, and changes nothing where none was driven. RETRAIN: a link up
enters Recovery, asked to train to its limit; a link down holds RETRAIN. LTR_WRITE: HPT_LTR holds the writable bits
written, and the message leaves if the link is up with LTR enabled. ASPM_L1_ENTRY: from L0 with L1 enabled and nothing
outstanding the link enters L1, and otherwise nothing changes. (R92, R93, R94, R110, R116, R117, R87, R337) -/
def Obligations.HostLinkControlsAct : Prop :=
  ∀ (s : State) (h : Nat), linkPresent s h = true →
    (Reaches s (h / 4) (hptOf h 4) →
      (∀ v : BitVec 3, Completes (.rateCapWrite h v) s fun s' =>
        let asked := hls s h 31 1 = 1 ∧ rateLimit s' h < hls s h 20 4
        gf s' (h / 4) (hptOf h 4) 8 3 = clamp 1 (Nat.max 1 (Tbl.get 0 s.host.maxRate h)) v.toNat % 8 ∧
        s'.outbox = s.outbox ++ (if asked then [.speed h (rateLimit s' h)] else []) ∧
        hls s' h 24 4 = (if asked then 4 else hls s h 24 4) ∧
        BitsBut 8 3 (rreg s (h / 4) (hptOf h 4)) (rreg s' (h / 4) (hptOf h 4)) ∧
        BitsBut 24 4 (rreg s (h / 4) (hptOf h 0)) (rreg s' (h / 4) (hptOf h 0)) ∧
        RegsBut (ats (h / 4) [hptOf h 0, hptOf h 4]) s s' ∧ Same [.regs, .outbox] s s') ∧
      (∀ v : BitVec 3, Completes (.narrowWrite h v) s fun s' =>
        gf s' (h / 4) (hptOf h 4) 4 3 = Nat.min 4 v.toNat ∧
        s'.outbox = s.outbox ++ (if hls s h 31 1 = 1 ∧ hls s h 30 1 = 1 ∧ hls s h 12 4 ≠ narrowTo s' h then [.l0p h (narrowTo s' h)]
          else []) ∧
        BitsBut 4 3 (rreg s (h / 4) (hptOf h 4)) (rreg s' (h / 4) (hptOf h 4)) ∧
        RegsBut (at_ (h / 4) (hptOf h 4)) s s' ∧ Same [.regs, .outbox] s s') ∧
      (Completes (.wakeAssert h) s fun s' =>
        gf s' (h / 4) (hptOf h 4) 3 1 = 1 ∧ s'.outbox = s.outbox ++ [.wake h true] ∧ Tbl.find? s'.host.wakes h = some () ∧
        BitsBut 3 1 (rreg s (h / 4) (hptOf h 4)) (rreg s' (h / 4) (hptOf h 4)) ∧
        RegsBut (at_ (h / 4) (hptOf h 4)) s s' ∧ Same [.regs, .host, .outbox] s s') ∧
      Completes (.retrain h) s fun s' =>
        (hls s h 31 1 = 1 → s'.outbox = s.outbox ++ [.speed h (rateLimit s h)] ∧ hls s' h 24 4 = 4) ∧
        (hls s h 31 1 = 0 → s'.outbox = s.outbox ∧ gf s' (h / 4) (hptOf h 4) 2 1 = 1) ∧
        RegsBut (ats (h / 4) [hptOf h 0, hptOf h 4]) s s' ∧ Same [.regs, .outbox] s s') ∧
    (∀ w : BitVec 4, exec (.hostL0pRequest h w) s = .next
      (if hls s h 31 1 = 1 ∧ hls s h 30 1 = 1 then emit s (.l0p h (clamp 1 (hls s h 16 4) w.toNat)) else s)) ∧
    (Tbl.find? s.host.wakes h = none → exec (.wakeTimeout h) s = .next s) ∧
    (Tbl.find? s.host.wakes h = some () → (tileSt s (h / 4)).fenced = false → Completes (.wakeTimeout h) s fun s' =>
      gf s' (h / 4) (hptOf h 4) 3 1 = 0 ∧ s'.outbox = s.outbox ++ [.wake h false] ∧ Tbl.find? s'.host.wakes h = none ∧
      RegsBut (at_ (h / 4) (hptOf h 4)) s s' ∧ Same [.regs, .host, .outbox] s s') ∧
    (∀ v : Word, Reaches s (h / 4) (hptOf h 0x1C) → Completes (.ltrWrite h v) s fun s' =>
      rreg s' (h / 4) (hptOf h 0x1C) = v &&& 0x9FFF9FFF#32 ∧
      s'.outbox = s.outbox ++ (if hls s h 31 1 = 1 ∧ cfgF s h 0 0x78 10 1 = 1 then [.msg h 0 .ltr (v &&& 0x9FFF9FFF#32)] else []) ∧
      RegsBut (ats (h / 4) [hptOf h 0, hptOf h 0x1C]) s s' ∧ Same [.regs, .outbox] s s') ∧
    (let idle := hls s h 24 4 = 5 ∧ hls s h 31 1 = 1 ∧ cfgF s h 0 0x60 1 1 = 1 ∧
        (∀ e ∈ s.host.tags, ∀ x, e.2 = some x → x.link = h → x.expired = true) ∧ Tbl.get [] s.host.outq h = [] ∧
        (∀ f ∈ Tbl.get [] s.host.tagWait (h / 4), f.dstSub ≠ h % 4) ∧
        (∀ e ∈ s.host.inb, ∀ x, e.2 = some x → x.link ≠ h);
      (idle → exec (.aspmL1Entry h) s = .next (setHls s h 24 4 6)) ∧ (¬ idle → exec (.aspmL1Entry h) s = .next s))

/-- For every host link present. DL_UP: a link that may train comes up in L0 at the nearest rate within its limit and the
nearest width within its bifurcation; one that is up, held or in PERST stays as it was. RATE_CHANGED and L0P_CHANGED:
on a link up RATE or the active width takes the nearest value allowed and the event is set where the value changes; a
link whose rate is settled is in L0. PERST_ASSERT, HOT_RESET and DL_DOWN: the link is down, its event is set, its
configuration space does not stand, its memories of readiness, its SPDM sessions, its DOE mailbox and the Secure state
of its streams are gone, and no mode, no memory and no other tile's mode changes; a link already down (or in PERST)
stays as it was. PERST_DEASSERT: PERST reads 0 (the pins act while no boundary scan holds them), and a link that may
train begins to. (R60, R61, R65, R92, R93, R114) -/
def Obligations.HostLinksComeUpAndGoDown : Prop :=
  ∀ (s : State) (h : Nat), linkPresent s h = true →
    (∀ (rate width : BitVec 4) (flit : Bool),
      (hls s h 29 1 = 1 ∨ hls s h 31 1 = 1 ∨ hls s h 24 4 = 0 ∨ mayTrain s h = false → exec (.dlUp h rate width flit) s = .next s) ∧
      (hls s h 29 1 = 0 → hls s h 31 1 = 0 → hls s h 24 4 ≠ 0 → mayTrain s h = true →
        Completes (.dlUp h rate width flit) s fun s' =>
          hls s' h 31 1 = 1 ∧ hls s' h 24 4 = 5 ∧ hls s' h 29 1 = 0 ∧
          hls s' h 20 4 = clamp 1 (rateLimit s h) rate.toNat ∧ hls s' h 16 4 = clamp 1 (bifWidth s h) width.toNat ∧
          hls s' h 12 4 = hls s' h 16 4 ∧ gf s' (h / 4) (hptOf h 4) 2 1 = 0 ∧
          RegsBut (ats (h / 4) [hptOf h 0, hptOf h 4]) s s' ∧ Same [.regs, .outbox] s s')) ∧
    (∀ rate : BitVec 4, let r := clamp 1 (rateLimit s h) rate.toNat
      (hls s h 31 1 = 0 → exec (.rateChanged h rate) s = .next s) ∧
      (hls s h 31 1 = 1 → hls s h 20 4 = r → exec (.rateChanged h rate) s = .next (setHls s h 24 4 5)) ∧
      (hls s h 31 1 = 1 → hls s h 20 4 ≠ r → Completes (.rateChanged h rate) s fun s' =>
        hls s' h 20 4 = r ∧ hls s' h 24 4 = 5 ∧ gf s' (h / 4) (hptOf h 8) 5 1 = 1 ∧ Same [.regs, .trc] s s')) ∧
    (∀ width : BitVec 4, let w := clamp 1 (hls s h 16 4) width.toNat
      (hls s h 31 1 = 0 ∨ hls s h 30 1 = 0 ∨ hls s h 12 4 = w → exec (.l0pChanged h width) s = .next s) ∧
      (hls s h 31 1 = 1 → hls s h 30 1 = 1 → hls s h 12 4 ≠ w → Completes (.l0pChanged h width) s fun s' =>
        hls s' h 12 4 = w ∧ gf s' (h / 4) (hptOf h 8) 6 1 = 1 ∧ Same [.regs, .trc] s s')) ∧
    (hls s h 29 1 = 1 ∨ s.core.scanned = true → exec (.perstAssert h) s = .next s) ∧
    (hls s h 31 1 = 0 → exec (.hotReset h) s = .next s ∧ exec (.dlDown h) s = .next s) ∧
    (∀ c ev, (c = .perstAssert h ∧ ev = 0 ∧ hls s h 29 1 = 0 ∧ s.core.scanned = false) ∨ (c = .hotReset h ∧ ev = 1 ∧ hls s h 31 1 = 1) ∨
        (c = .dlDown h ∧ ev = 2 ∧ hls s h 31 1 = 1) →
      Completes c s fun s' =>
        hls s' h 31 1 = 0 ∧ hls s' h 29 1 = (if ev = 0 then 1 else hls s h 29 1) ∧ gf s' (h / 4) (hptOf h 8) ev 1 = 1 ∧
        Tbl.find? s'.host.upTo h = none ∧ Tbl.find? s'.host.drs h = none ∧ Tbl.find? s'.host.sessions h = none ∧
        Tbl.find? s'.host.doe h = none ∧ (∀ k, k / 256 = h → Tbl.find? s'.host.secure k = none) ∧
        s'.modes = s.modes ∧ s'.mem = s.mem) ∧
    (hls s h 29 1 = 0 ∨ s.core.scanned = true → exec (.perstDeassert h) s = .next s) ∧
    (hls s h 29 1 = 1 → s.core.scanned = false → Completes (.perstDeassert h) s fun s' =>
      hls s' h 29 1 = 0 ∧ (mayTrain s h = true → hls s' h 24 4 = 1) ∧ (mayTrain s h = false → hls s' h 24 4 = hls s h 24 4) ∧
      s'.modes = s.modes ∧ s'.mem = s.mem)

/-- CONFIG_REQUEST on a link that is present: on a link down or of a fenced tile it is not answered and nothing changes;
before the link's configuration space stands, or in a tile in FIDDLEHEAD, it is answered with retry status; to a
function that does not exist with Unsupported Request; a read to one that exists with the word the configuration space
shows and nothing else changed but the link's power state; a write is answered with success last.
DEVICE_READINESS_STATUS is sent once each time the link comes up, and makes the configuration space stand. An FLR of a
function that exists puts its configuration space back to its initial values (but for what its error status and header
log registers hold of requests the reset ends); FLR_INSTANCE_FUNCTION acts on an instance's function, FLR_PF on
physical functions, FLR_MANAGER_FUNCTION on the manager function; of one that does not exist it changes nothing. (R61,
R97, R105, R114) -/
def Obligations.ConfigurationIsAnsweredByThePort : Prop :=
  ∀ (s : State) (h f : Nat), linkPresent s h = true →
    (∀ (bus : BitVec 8) (off : Nat) (wr : Option (BitVec 4 × Word)),
      (hls s h 31 1 = 0 ∨ (tileSt s (h / 4)).fenced = true → exec (.configRequest h f bus off wr) s = .next s) ∧
      (hls s h 31 1 = 1 → (tileSt s (h / 4)).fenced = false →
        (mode s (h / 4) ≤ 1 ∨ Tbl.find? s.host.upTo h = none →
          exec (.configRequest h f bus off wr) s = .next (emit (leaveL1 s h) (.cfgCpl h f 2 0))) ∧
        (2 ≤ mode s (h / 4) → Tbl.find? s.host.upTo h = some () →
          (fnExists s h f = false → exec (.configRequest h f bus off wr) s = .next (emit (leaveL1 s h) (.cfgCpl h f 1 0))) ∧
          (fnExists s h f = true → wr = none → Completes (.configRequest h f bus off wr) s fun s' =>
            s'.outbox = s.outbox ++ [.cfgCpl h f 0 (cfgView (leaveL1 s h) h f (off / 4 % 1024))] ∧
            RegsBut (at_ (h / 4) (hptOf h 0)) s s' ∧ Same [.regs, .outbox] s s') ∧
          (fnExists s h f = true → wr ≠ none → Completes (.configRequest h f bus off wr) s fun s' =>
            (∃ l, s'.outbox = s.outbox ++ l ++ [.cfgCpl h f 0 0]) ∧
            Tbl.get 0 s'.host.bus h = (bus.toNat + 256 - f / 256) % 256)))) ∧
    (hls s h 31 1 = 0 ∨ mode s (h / 4) ≤ 1 ∨ Tbl.find? s.host.drs h = some () → exec (.deviceReadinessStatus h) s = .next s) ∧
    (hls s h 31 1 = 1 → 2 ≤ mode s (h / 4) → Tbl.find? s.host.drs h = none → Completes (.deviceReadinessStatus h) s fun s' =>
      s'.outbox = s.outbox ++ [.msg h 0 .drs 0] ∧ Tbl.find? s'.host.upTo h = some () ∧ Tbl.find? s'.host.drs h = some () ∧
      Same [.host, .outbox] s s') ∧
    (fnExists s h f = false → exec (.flrInstanceFunction h f) s = .next s ∧ exec (.flrPf h f) s = .next s) ∧
    (∀ c, c = .flrInstanceFunction h f ∨ (c = .flrPf h f ∧ ∃ p, fnRefOf (pfsOf s h) f = some ⟨p, none⟩) ∨
        (c = .flrManagerFunction ∧ managerLink s = some h ∧ f = 0) → fnExists s h f = true →
      Completes c s fun s' =>
        (∀ k, k / 1024 = fnKey h f → k % 1024 ∉ [0x16, 0x41, 0x44, 0x46, 0x47, 0x48, 0x49, 0x4A] → Tbl.find? s'.host.cfg k = none) ∧
        s'.modes = s.modes ∧ s'.mem = s.mem ∧ s'.host.upTo = s.host.upTo)

/-- MSIX_SEND of an instance's vector no message is due or to be tried again for changes nothing. A message due, or one to
be tried again that the PBA still holds: of a live instance's vector that may send, the write of the entry's data to
its address leaves by the bound function and the PBA bit is clear; of one that may not (masked, link down, or not
live), the PBA bit is set and nothing leaves. One to be tried again that the PBA no longer holds is forgotten.
SPDM_REQUEST on a link up of a running tile: an object above 32 KiB gets a DOE error; GET_VERSION is answered with
version 1.3 and a KEY_EXCHANGE beyond the fourth session with Busy, each as a DOE object. IDE_CHECK_FAIL of a Secure
stream makes it Insecure and sets IDE_FAIL; of any other it changes nothing. What else an SPDM answer holds is open
(log entry 15); the byte layouts are the named specifications' (log entry 20). (R106, R111, R112, R319) -/
def Obligations.MessagesAndSecurity : Prop :=
  (∀ (s : State) (i v : Nat), instOk s i = true → i ≠ managerInst →
    (takeOut (i, v) s.evc.vecDue = none → takeOut (i, v) s.evc.vecRetry = none → exec (.msixSend i v) s = .next s) ∧
    (∀ rest, takeOut (i, v) s.evc.vecDue = none → takeOut (i, v) s.evc.vecRetry = some rest → Tbl.find? s.host.pba (i * 2048 + v) = none →
      exec (.msixSend i v) s = .next { s with evc := { s.evc with vecRetry := rest } }) ∧
    ∀ e, (∃ rest, takeOut (i, v) s.evc.vecDue = some rest ∧ e = { s.evc with vecDue := rest }) ∨
        (takeOut (i, v) s.evc.vecDue = none ∧ Tbl.find? s.host.pba (i * 2048 + v) = some () ∧
          ∃ rest, takeOut (i, v) s.evc.vecRetry = some rest ∧ e = { s.evc with vecRetry := rest }) → v < (instOf s i).vCount →
      (live s i = false ∨ (∃ h f, (instOf s i).fn = some (h, f) ∧ msgOf s h f v (vecOf s i v) = none) →
        Completes (.msixSend i v) s fun s' => Tbl.find? s'.host.pba (i * 2048 + v) = some () ∧ s'.outbox = s.outbox ∧
          s'.evc = e ∧ Same [.evc, .host] s s') ∧
      ∀ h f a d, live s i = true → (instOf s i).fn = some (h, f) → msgOf s h f v (vecOf s i v) = some (a, d) →
        ideRefuses s h a = false →
        Completes (.msixSend i v) s fun s' =>
          s'.outbox = s.outbox ++ [.memWrite h (routingId s h f) a (wordBytes d) false false false none] ∧
          Tbl.find? s'.host.pba (i * 2048 + v) = none ∧
          s'.evc = e ∧ RegsBut (at_ (h / 4) (hptOf h 0)) s s' ∧ Same [.regs, .evc, .host, .outbox] s s') ∧
  (∀ (s : State) (h : Nat) (o : List Byte), linkPresent s h = true → hls s h 31 1 = 1 → 2 ≤ mode s (h / 4) →
    (32768 < o.length → Completes (.spdmRequest h o) s fun s' =>
      s'.outbox = s.outbox ++ [.doeError h] ∧ (doeOf s' h).err = true ∧ RegsBut (at_ (h / 4) (hptOf h 0)) s s' ∧
      Same [.regs, .host, .outbox] s s') ∧
    (∀ reply, (leAt o 9 1 = 0x84 ∧ reply = [0x10, 0x04, 0, 0, 0, 1, 0x00, 0x13]) ∨
        (leAt o 9 1 = 0xE4 ∧ 4 ≤ Tbl.get 0 s.host.sessions h ∧ reply = [0x13, 0x7F, 3, 0]) →
      o.length ≤ 32768 → leAt o 0 2 = 1 → leAt o 2 1 = 1 → Completes (.spdmRequest h o) s fun s' =>
        s'.outbox = s.outbox ++ [.spdm h (doeObject 1 reply)] ∧ (doeOf s' h).rd = doeObject 1 reply ∧
        Same [.regs, .host, .outbox, .fresh] s s')) ∧
  (∀ (s : State) (h k : Nat), h < 4 * s.part.tiles → k < 9 →
    (Tbl.find? s.host.secure (h * 256 + k) = none → exec (.ideCheckFail h k) s = .next s) ∧
    (Tbl.find? s.host.secure (h * 256 + k) = some () → Completes (.ideCheckFail h k) s fun s' =>
      Tbl.find? s'.host.insecure (h * 256 + k) = some () ∧ Tbl.find? s'.host.secure (h * 256 + k) = none ∧
      gf s' (h / 4) (hptOf h 8) 4 1 = 1 ∧ Same [.regs, .trc, .host, .outbox, .fresh] s s'))

/-- In a tile that is not fenced. HOST_ISSUE with nothing given to the link changes nothing; a posted frame whose instance
is bound here and whose function may send leaves by that function as memory writes no longer than Max_Payload_Size,
ascending. HOST_TAG_WAIT with nothing waiting changes nothing; a request that alone waits and finds an entry and a tag
free takes them and leaves. HOST_COMPLETION on a link down changes nothing. On a link up one that matches no entry is
counted UNEXPECTED; one that matches a timed-out entry is counted LATE, and frees it once its data is whole or it
fails; one that matches an outstanding entry without completing its data is kept there, and one that completes it, or
fails, frees the entry. HOST_READ_TIMEOUT of a free or timed-out entry changes nothing; of an outstanding one it
leaves the entry occupied and expired. HOST_TAG_QUARANTINE_END frees an expired entry, OUTSTANDING following, and
changes nothing for any other. (R98, R101, R102, R103, R117, R337) -/
def Obligations.RequestsTowardHostsLeaveInOrder : Prop :=
  (∀ (s : State) (h : Nat), linkPresent s h = true → (tileSt s (h / 4)).fenced = false →
    (Tbl.get [] s.host.outq h = [] → exec (.hostIssue h) s = .next s) ∧
    (∀ f rest g, Tbl.get [] s.host.outq h = f :: rest → f.pkt.isRsp = false → f.pkt.isReq = false → (∀ u w, f.issuer ≠ .dmaWr u w) →
      issueFn s h f = some g → mayIssueFn s h g f = true →
      Completes (.hostIssue h) s fun s' =>
        s'.outbox = s.outbox ++ (splitRead (mpsOf s h) 33 0 f.pkt.data.length).map (fun x =>
          .memWrite h (routingId s h g) (f.pkt.addr + x.1) (bytesAt f.pkt.data x.1 x.2) f.pkt.rlx f.pkt.ns f.pkt.ep f.pasid) ∧
        Tbl.get [] s'.host.outq h = rest ∧ RegsBut (at_ (h / 4) (hptOf h 0)) s s' ∧ Same [.regs, .brg, .host, .outbox] s s') ∧
    (∀ c : Cpl, hls s h 31 1 = 0 → exec (.hostCompletion h c) s = .next s) ∧
    (∀ c : Cpl, hls s h 31 1 = 1 → s.host.tags = [] → Completes (.hostCompletion h c) s fun s' =>
      gf s' (h / 4) (hptOf h 0x18) 0 16 = (gf s (h / 4) (hptOf h 0x18) 0 16 + 1) % 65536 ∧ s'.host.tags = [] ∧
      RegsBut (ats (h / 4) [hptOf h 0, hptOf h 0x18]) s s' ∧ Same [.regs, .host, .outbox, .fresh] s s') ∧
    (∀ (c : Cpl) (k : Nat) (x : TagEnt), hls s h 31 1 = 1 → s.host.tags = [(k, some x)] → k / 4096 = h / 4 → x.link = h →
      x.rid = c.rid.toNat → x.tag = c.tag.toNat →
      let whole := c.status ≠ 0 ∨ x.len ≤ (x.got ++ c.data).length
      Completes (.hostCompletion h c) s fun s' =>
        (whole → s'.host.tags = []) ∧
        (¬ whole → ∃ x', s'.host.tags = [(k, some x')] ∧ x' = { x with got := x.got ++ c.data, poison := x'.poison }) ∧
        (x.expired = true → gf s' (h / 4) (hptOf h 0x18) 16 16 = (gf s (h / 4) (hptOf h 0x18) 16 16 + 1) % 65536 ∧
          RegsBut (fun u o => (u = h / 4 ∧ o ∈ [hptOf h 0, hptOf h 0x18, 0x1000400]) ∨ o = 0x5000208) s s' ∧
          Same [.regs, .host, .dma] s s'))) ∧
  (∀ (s : State) (t : Nat), t < s.part.tiles →
    (Tbl.get [] s.host.tagWait t = [] → exec (.hostTagWait t) s = .next s) ∧
    (∀ (f : Frame) (g e k : Nat), (tileSt s t).fenced = false → Tbl.get [] s.host.tagWait t = [f] →
      issueFn s (4 * t + f.dstSub) f = some g →
      mayIssueFn s (4 * t + f.dstSub) g f = true → freeHostTag s t (4 * t + f.dstSub) g = some (e, k) → f.dstSub < 4 →
      Completes (.hostTagWait t) s fun s' =>
        s'.outbox = s.outbox ++ [.memRead (4 * t + f.dstSub) (routingId s (4 * t + f.dstSub) g) k f.pkt.addr (lenBytes f.pkt.len)
          f.pkt.rlx f.pkt.ns f.pasid] ∧
        Tbl.get [] s'.host.tagWait t = [] ∧ (Tbl.get none s'.host.tags (t * 4096 + e)).isSome = true ∧
        Same [.regs, .host, .outbox, .fresh] s s')) ∧
  (∀ (s : State) (t e : Nat), t < s.part.tiles → e < 4096 → (tileSt s t).fenced = false →
    (Tbl.get none s.host.tags (t * 4096 + e) = none →
      exec (.hostReadTimeout t e) s = .next s ∧ exec (.hostTagQuarantineEnd t e) s = .next s) ∧
    (∀ x, Tbl.get none s.host.tags (t * 4096 + e) = some x →
      (x.expired = true → exec (.hostReadTimeout t e) s = .next s) ∧
      (x.expired = false → exec (.hostTagQuarantineEnd t e) s = .next s ∧
        Completes (.hostReadTimeout t e) s fun s' =>
          s'.host.tags = Tbl.set none s.host.tags (t * 4096 + e) (some { x with expired := true }) ∧
          s'.modes = s.modes ∧ s'.mem = s.mem) ∧
      (x.expired = true → Completes (.hostTagQuarantineEnd t e) s fun s' =>
        s'.host.tags = Tbl.set none s.host.tags (t * 4096 + e) none ∧
        gf s' t 0x1000400 0 13 = (s'.host.tags.filter (fun y => y.1 / 4096 == t && y.2.isSome)).length % 8192 ∧
        RegsBut (fun u o => (u = t ∧ o = 0x1000400) ∨ o = 0x5000208) s s' ∧ Same [.regs, .host, .dma] s s')))

/-- For every slot. LINK_TRAINING of a local slot takes its steps in order, as one command after another would; out of
training, or in a tile in FIDDLEHEAD or off, it changes nothing. In DETECT a SYNC block received on a lane of the link
takes it to SYNC, which notes each lane's LANE field and polarity; the end of SYNC takes it to IDENTIFY where the
logical lanes 0 and 1 locked in one of the two orders, and changes nothing else. In IDENTIFY an IDENT block with the
own identity leaves it waiting with its mark set and its event raised; with another, rate, width and epoch are fixed:
the widest width within target, own and offered width whose lanes locked in either order, the lowest of own, target
and offered rate, lower by one for every failed attempt and at least 1, and it goes on to EQUALISE, where the
partner's requests set the coefficients; after that to ALIGN, at whose end it is ACTIVE, in the higher of both ends'
epochs, with an empty replay buffer. TRAINING_STEP_TIMEOUT: an attempt under way falls back to DETECT with TRAIN_FAIL
and the next starts one rate lower (two at most); a board-reach link in DETECT, and one that waits on equal
identities, stay. IDENTIFY_RETRY keeps or clears the wait. TILE_LINK_TRAINING takes its steps in order too: the clock,
the test of every lane, whose lanes with more than 2 errors have failed, the partner's REPAIR block, which with at
most 8 failed lanes each way leads to ALIGN at 96 lanes, with at most 56 at 48, and beyond fails, and ALIGN, whose end
is ACTIVE. LOCK_LOSS takes ACTIVE to RECOVER and starts the timer in CHANGE; RECOVERY_COMPLETE takes RECOVER back and
queues every unacknowledged flit for resending, on a tile link after a new test and repair. In other states nothing
changes. (R124, R126, R127, R128, R129, R130, R131, R136, R147) -/
def Obligations.LodeLinksTrain : Prop :=
  ∀ (s : State) (t n : Nat), t < s.part.tiles → n < 11 →
    let x := linkSt s t n
    (n < 8 →
      (∀ l, trains s t n = false ∨ mode s t ≤ 1 → exec (.linkTraining t n l) s = .next s) ∧
      (∀ a b s1, exec (.linkTraining t n a) s = .next s1 → exec (.linkTraining t n (a ++ b)) s = exec (.linkTraining t n b) s1) ∧
      (2 ≤ mode s t →
        (∀ lane bytes b inv, readLane bytes = some (b, inv) → lane < physLanes s t n →
          (linkState s t n = 1 → b.ty ≠ syncBlock → exec (.linkTraining t n [.block lane bytes]) s = .next s) ∧
          (linkState s t n = 1 → b.ty = syncBlock → Completes (.linkTraining t n [.block lane bytes]) s fun s' =>
            linkState s' t n = 2 ∧ (linkSt s' t n).lanes = [(lane, b.lane, inv)] ∧ Same [.regs, .lode] s s') ∧
          (linkState s t n = 2 → Completes (.linkTraining t n [.block lane bytes]) s fun s' =>
            linkState s' t n = 2 ∧ (linkSt s' t n).lanes = x.lanes.filter (fun e => e.1 != lane) ++ [(lane, b.lane, inv)] ∧
            Same [.lode] s s') ∧
          (let most := Nat.min (targetWidth s t n) (Nat.min (ownWidth s t n) (Nat.max 1 b.width))
           let w0 := bestWidth (lanesIn x (physLanes s t n) false) most
           let w1 := bestWidth (lanesIn x (physLanes s t n) true) most
           let rate := Nat.max 1 (Nat.min (ownRate s t n) (Nat.min (targetRate s t n) b.rate) - x.rateDrop)
           linkState s t n = 3 → b.ty = identBlock → Completes (.linkTraining t n [.block lane bytes]) s fun s' =>
            gf s' t (lnk n 0xC) 0 16 = b.identity ∧
            (b.identity = ownIdentity s t n → linkState s' t n = 3 ∧ gf s' t (lnk n 0) 29 1 = 1 ∧ gf s' t (lnk n 8) 8 1 = 1 ∧
              Same [.regs, .trc] s s') ∧
            (b.identity ≠ ownIdentity s t n → linkState s' t n = 4 ∧ gf s' t (lnk n 0) 29 1 = 0 ∧
              gf s' t (lnk n 0) 28 1 = b2n (decide (w0 < w1)) ∧ (linkSt s' t n).aim = some (rate, Nat.max w0 w1, b.epoch) ∧
              Same [.regs, .lode] s s')) ∧
          (∀ rate w e, linkState s t n = 4 → b.ty = eqBlock → x.aim = some (rate, w, e) →
            Completes (.linkTraining t n [.block lane bytes]) s fun s' =>
              Tbl.find? (linkSt s' t n).coef (rate * 8 + b.lane % 8) = some (b.preset, b.steps) ∧
              linkState s' t n = 4 ∧ (linkSt s' t n).aim = x.aim ∧ Same [.lode] s s')) ∧
        (∀ wanted, let none0 := bestWidth (lanesIn x (physLanes s t n) false) 3 = 0
          let none1 := bestWidth (lanesIn x (physLanes s t n) true) 3 = 0
          linkState s t n = 2 →
          (none0 ∧ none1 → exec (.linkTraining t n [.locked wanted]) s = .next s) ∧
          (¬ (none0 ∧ none1) → Completes (.linkTraining t n [.locked wanted]) s fun s' =>
            linkState s' t n = 3 ∧ (linkSt s' t n).precodeAsk = wanted ∧
            (linkSt s' t n).inverted = (x.lanes.filter (fun e => e.2.2)).map Prod.fst ∧ Same [.regs, .lode] s s')) ∧
        (linkState s t n = 4 → Completes (.linkTraining t n [.tuned]) s fun s' => linkState s' t n = 5 ∧ Same [.regs] s s') ∧
        (∀ rate w e, linkState s t n = 5 → x.aim = some (rate, w, e) → Completes (.linkTraining t n [.aligned]) s fun s' =>
          linkState s' t n = 6 ∧ gf s' t (lnk n 0) 16 4 = rate % 16 ∧ gf s' t (lnk n 0) 12 4 = w % 16 ∧
          linkEpoch s' t n = Nat.max e (linkEpoch s t n) % 65536 ∧ (linkSt s' t n).replay = [] ∧ (linkSt s' t n).aim = none ∧
          s'.outbox = s.outbox ++ [.train t n rate w] ∧ Same [.regs, .lode, .outbox] s s'))) ∧
    (trains s t n = true → gf s t (lnk n 0) 29 1 = 0 → 8 ≤ n ∨ linkState s t n ≠ 1 → Completes (.trainingStepTimeout t n) s fun s' =>
      linkState s' t n = 1 ∧ gf s' t (lnk n 8) 6 1 = 1 ∧
      (linkSt s' t n).rateDrop = (if n < 8 then Nat.min 2 (x.rateDrop + 1) else 0) ∧ Same [.regs, .trc, .lode] s s') ∧
    (trains s t n = false ∨ gf s t (lnk n 0) 29 1 = 1 ∨ (n < 8 ∧ linkState s t n = 1) → exec (.trainingStepTimeout t n) s = .next s) ∧
    (∀ id : BitVec 16, n < 8 → (linkState s t n ≠ 3 → exec (.identifyRetry t n id) s = .next s) ∧
      (linkState s t n = 3 → Completes (.identifyRetry t n id) s fun s' =>
        gf s' t (lnk n 0xC) 0 16 = id.toNat ∧ linkState s' t n = 3 ∧
        gf s' t (lnk n 0) 29 1 = (if id.toNat = ownIdentity s t n then 1 else 0) ∧ Same [.regs, .trc] s s')) ∧
    (8 ≤ n →
      (∀ l, trains s t n = false → exec (.tileLinkTraining t n l) s = .next s) ∧
      (∀ a b s1, exec (.tileLinkTraining t n a) s = .next s1 →
        exec (.tileLinkTraining t n (a ++ b)) s = exec (.tileLinkTraining t n b) s1) ∧
      (linkState s t n = 1 → Completes (.tileLinkTraining t n [.clock]) s fun s' => linkState s' t n = 2 ∧ Same [.regs] s s') ∧
      (∀ errors, linkState s t n = 2 → Completes (.tileLinkTraining t n [.prbs errors]) s fun s' =>
        linkState s' t n = 3 ∧ gf s' t (lnk n 0) 0 7 = (failedLanes errors).length ∧
        (linkSt s' t n).rxFailed = failedLanes errors ∧ Same [.regs, .lode] s s') ∧
      (∀ bytes b, readBlock bytes = some b → b.ty = repairBlock → linkState s t n = 3 →
        Completes (.tileLinkTraining t n [.block bytes]) s fun s' =>
          let w := tileWidth x.rxFailed b.failed
          gf s' t (lnk n 0xC) 0 16 = b.identity ∧
          (w = 0 → linkState s' t n = 1 ∧ gf s' t (lnk n 8) 6 1 = 1 ∧ Same [.regs, .trc, .lode] s s') ∧
          (w ≠ 0 → linkState s' t n = 5 ∧ (linkSt s' t n).txFailed = b.failed ∧ (linkSt s' t n).aim = some (4, w, b.epoch) ∧
            Same [.regs, .lode] s s')) ∧
      (∀ rate w e, linkState s t n = 5 → x.aim = some (rate, w, e) → w ≠ 4 ∨ faultClass s t 2 4 = 0 →
        Completes (.tileLinkTraining t n [.aligned]) s fun s' =>
          linkState s' t n = 6 ∧ gf s' t (lnk n 0) 16 4 = rate % 16 ∧ gf s' t (lnk n 0) 12 4 = w % 16 ∧
          linkEpoch s' t n = Nat.max e (linkEpoch s t n) % 65536 ∧ (linkSt s' t n).replay = [] ∧
          (x.rxFailed ≠ [] ∨ w = 4 → gf s' t (lnk n 8) 7 1 = 1) ∧ s'.outbox = s.outbox ++ [.train t n rate w])) ∧
    (linkState s t n = 6 → Completes (.lockLoss t n) s fun s' => linkState s' t n = 8 ∧ gf s' t (lnk n 8) 0 1 = 1 ∧
      (linkSt s' t n).replay = x.replay ∧ (linkSt s' t n).resend = [] ∧ Same [.regs, .trc, .lode] s s') ∧
    (linkState s t n = 7 → Completes (.lockLoss t n) s fun s' => linkState s' t n = 7 ∧ (linkSt s' t n).locklossRun = true ∧
      (linkSt s' t n).replay = x.replay ∧ Same [.lode] s s') ∧
    (linkState s t n ≠ 6 → linkState s t n ≠ 7 → exec (.lockLoss t n) s = .next s) ∧
    (∀ l, linkState s t n ≠ 8 → exec (.recoveryComplete t n l) s = .next s) ∧
    (linkState s t n = 8 →
      let back (s' : State) : Prop := linkState s' t n = 6 ∧ gf s' t (lnk n 8) 1 1 = 1 ∧
        (linkSt s' t n).resend = x.replay.map (fun f => (f.seq, 0)) ∧ (linkSt s' t n).replay = x.replay ∧
        gf s' t (lnk n 0x1C) 0 16 = (gf s t (lnk n 0x1C) 0 16 + 1) % 65536 ∧
        s'.outbox = s.outbox ++ [.train t n (gf s t (lnk n 0) 16 4) (gf s' t (lnk n 0) 12 4)]
      (∀ l, n < 8 → Completes (.recoveryComplete t n l) s fun s' =>
        back s' ∧ gf s' t (lnk n 0) 12 4 = gf s t (lnk n 0) 12 4 ∧ Same [.regs, .trc, .lode, .outbox] s s') ∧
      ∀ errors bytes b, 8 ≤ n → readBlock bytes = some b → b.ty = repairBlock →
        let w := tileWidth (failedLanes errors) b.failed
        w ≠ 0 → w ≠ 4 ∨ faultClass s t 2 4 = 0 →
        Completes (.recoveryComplete t n [.prbs errors, .block bytes, .aligned]) s fun s' =>
          back s' ∧ gf s' t (lnk n 0) 12 4 = w ∧ (linkSt s' t n).rxFailed = failedLanes errors ∧ (linkSt s' t n).txFailed = b.failed)

/-- For every slot. CHANGE, where it reaches its register, on a tile link or while a request is open changes nothing; on a
link not ACTIVE nor in CHANGE or RECOVER it ends with LINK_DOWN (5); at the shape the link already runs at, with
UNCHANGED (1); and else an LCR with the next request number, the clamped rate and width is queued and the request is
open. LCR_ACK_RECEIVE for the open request starts the change (CHANGE, one PAUSE flit owed, no NAK sent);
LCR_REFUSE_RECEIVE for it ends it with REFUSED (3) and LCR_TIMEOUT with TIMEOUT (4); for any other number, or with
none open, nothing changes. LCR_RECEIVE with no request open, in ACTIVE: an LCR_ACK is queued, and at another shape
than the link runs at the change is accepted: it starts when the flit that carries the ACK has left; on a link that is
down nothing changes. LIVE_CHANGE_COMPLETE ends an accepted change in ACTIVE at its rate and width, with every
unacknowledged flit queued again. (R132, R133, R134, R135) -/
def Obligations.LiveChangesAgree : Prop :=
  ∀ (s : State) (t n : Nat), t < s.part.tiles → n < 11 →
    let shp := clampTarget s t n (targetRate s t n) (targetWidth s t n)
    (Reaches s t (lnk n 4) → 8 ≤ n ∨ gf s t (lnk n 0) 30 1 = 1 → exec (.change t n) s = .next s) ∧
    (Reaches s t (lnk n 4) → n < 8 → gf s t (lnk n 0) 30 1 = 0 →
      (linkState s t n ≠ 6 → linkState s t n ≠ 7 → linkState s t n ≠ 8 → Completes (.change t n) s fun s' =>
        gf s' t (lnk n 0) 8 4 = 5 ∧ linkState s' t n = linkState s t n ∧ RegsBut (ats t [lnk n 0, lnk n 4]) s s' ∧ Same [.regs, .lode] s s') ∧
      (linkState s t n = 6 → linkShape s t n = shp → Completes (.change t n) s fun s' =>
        gf s' t (lnk n 0) 8 4 = 1 ∧ gf s' t (lnk n 0) 30 1 = 0 ∧ linkState s' t n = 6 ∧
        RegsBut (ats t [lnk n 0, lnk n 4]) s s' ∧ Same [.regs, .lode] s s') ∧
      (linkState s t n = 6 → linkShape s t n ≠ shp → Completes (.change t n) s fun s' =>
        gf s' t (lnk n 0) 30 1 = 1 ∧ linkState s' t n = 6 ∧
        (∃ req, (linkSt s' t n).change = some ⟨req, shp.1, shp.2, false, true⟩ ∧
          (∀ r, (linkSt s t n).reqNum = some r → req = (r + 1) % 256) ∧
          (linkSt s' t n).msgs = (linkSt s t n).msgs ++ [linkMsg 1 req (ownIdentity s t n) shp.1 shp.2]) ∧
        RegsBut (ats t [lnk n 0, lnk n 4]) s s' ∧ Same [.regs, .lode] s s')) ∧
    (∀ c : Change, (linkSt s t n).change = some c → c.ours = true → c.accepted = false → ∀ q : BitVec 8,
      (c.req ≠ q.toNat → exec (.lcrAckReceive t n q) s = .next s ∧ exec (.lcrRefuseReceive t n q) s = .next s) ∧
      (c.req = q.toNat → linkState s t n = 6 → Completes (.lcrAckReceive t n q) s fun s' =>
        linkState s' t n = 7 ∧ (linkSt s' t n).pausing = true ∧ (linkSt s' t n).nakHeld = true ∧
        (linkSt s' t n).change = some ⟨c.req, c.rate, c.width, true, true⟩ ∧ Same [.regs, .lode] s s') ∧
      (c.req = q.toNat → Completes (.lcrRefuseReceive t n q) s fun s' =>
        gf s' t (lnk n 0) 8 4 = 3 ∧ gf s' t (lnk n 0) 30 1 = 0 ∧ (linkSt s' t n).change = none ∧
        gf s' t (lnk n 8) 5 1 = 1 ∧ linkState s' t n = linkState s t n ∧ Same [.regs, .trc, .lode] s s') ∧
      (Completes (.lcrTimeout t n) s fun s' => gf s' t (lnk n 0) 8 4 = 4 ∧ gf s' t (lnk n 0) 30 1 = 0 ∧
        (linkSt s' t n).change = none ∧ linkState s' t n = linkState s t n ∧ Same [.regs, .lode] s s')) ∧
    ((linkSt s t n).change = none → exec (.lcrTimeout t n) s = .next s ∧ exec (.liveChangeComplete t n) s = .next s ∧
      ∀ q, exec (.lcrAckReceive t n q) s = .next s ∧ exec (.lcrRefuseReceive t n q) s = .next s) ∧
    (∀ (q : BitVec 8) (id : BitVec 16) (rate width : BitVec 2),
      (linkAlive s t n = false → exec (.lcrReceive t n q id rate width) s = .next s) ∧
      (n < 8 → linkState s t n = 6 → (linkSt s t n).change = none →
        let a := clampTarget s t n rate.toNat width.toNat
        Completes (.lcrReceive t n q id rate width) s fun s' =>
          (linkSt s' t n).msgs = (linkSt s t n).msgs ++ [linkMsg 2 q.toNat (ownIdentity s t n) a.1 a.2] ∧
          linkState s' t n = 6 ∧ (linkShape s t n = a → (linkSt s' t n).change = none) ∧
          (linkShape s t n ≠ a → (linkSt s' t n).change = some ⟨q.toNat, a.1, a.2, true, false⟩ ∧
            (linkSt s' t n).pauseDue = true ∧ gf s' t (lnk n 0) 30 1 = 1) ∧
          Same [.regs, .lode] s s')) ∧
    (∀ c m, n < 8 → linkState s t n = 6 → (linkSt s t n).change = some c → (linkSt s t n).pauseDue = true →
      (linkSt s t n).paused = false → (linkSt s t n).pausing = false → (linkSt s t n).resend = [] →
      (linkSt s t n).msgs = [m] → (linkSt s t n).txq = [] → (linkSt s t n).replay.length < windowOf s t n →
      Completes (.flitTransmit t n) s fun s' =>
        linkState s' t n = 7 ∧ (linkSt s' t n).change = some ⟨c.req, c.rate, c.width, true, c.ours⟩ ∧ (linkSt s' t n).msgs = [] ∧
        (linkSt s' t n).pausing = true ∧ (linkSt s' t n).nakHeld = true ∧ Same [.regs, .lode, .outbox] s s') ∧
    (∀ c : Change, (linkSt s t n).change = some c → c.accepted = true → linkState s t n = 7 → c.rate < 16 → c.width < 16 →
      Completes (.liveChangeComplete t n) s fun s' =>
        linkState s' t n = 6 ∧ gf s' t (lnk n 0) 16 4 = c.rate ∧ gf s' t (lnk n 0) 12 4 = c.width ∧
        gf s' t (lnk n 0) 8 4 = (if c.ours then 0 else gf s t (lnk n 0) 8 4) ∧ (linkSt s' t n).change = none ∧
        (linkSt s' t n).resend = (linkSt s t n).replay.map (fun f => (f.seq, 0)) ∧
        s'.outbox = s.outbox ++ [.train t n c.rate c.width] ∧ Same [.regs, .trc, .lode, .outbox] s s')

/-- For every slot. DOWN and DISABLE, where they reach their register, on a link that is up, DOWN_RECEIVE, and
LOCKLOSS_TIMER_EXPIRY in RECOVER, or in CHANGE once it runs: the link is no longer up, its epoch is one higher modulo
65,536, and DISABLE is set if that was the command. DOWN and DOWN_RECEIVE on a link that is not up, and the timer
outside RECOVER and CHANGE, change nothing; DISABLE of a link that is not up sets DISABLE and holds it in DISABLED.
UNLOCK_MESSAGE of a host link that is not up changes nothing; of one that is up, a LOCK_END enters the switch core at
the host's port behind what the host sent before, toward the home tile of the instance whose lock the function holds,
or else of the instance bound to the function; with neither, the function's locks that a link-down has ended are
forgotten. (R113, R125, R137, R147, R156, R180, R225) -/
def Obligations.DeclarationsOfLinkDown : Prop :=
  (∀ (s : State) (t n : Nat), t < s.part.tiles → n < 11 →
    (∀ c, (c = .down t n ∨ c = .disable t n) ∧ Reaches s t (lnk n 4) ∧ linkAlive s t n = true ∨
        c = .downReceive t n ∧ linkAlive s t n = true ∨
        c = .locklossTimerExpiry t n ∧ (linkState s t n = 8 ∨ linkState s t n = 7 ∧ (linkSt s t n).locklossRun = true) →
      Completes c s fun s' =>
        linkAlive s' t n = false ∧ linkEpoch s' t n = (linkEpoch s t n + 1) % 65536 ∧
        (c = .disable t n → gf s' t (lnk n 4) 2 1 = 1 ∧ linkState s' t n = 0)) ∧
    (linkAlive s t n = false → exec (.downReceive t n) s = .next s ∧
      (Reaches s t (lnk n 4) → exec (.down t n) s = .next s ∧
        Completes (.disable t n) s fun s' => gf s' t (lnk n 4) 2 1 = 1 ∧ linkState s' t n = 0 ∧
          RegsBut (ats t [lnk n 0, lnk n 4]) s s' ∧ Same [.regs] s s')) ∧
    (linkState s t n ≠ 7 → linkState s t n ≠ 8 → exec (.locklossTimerExpiry t n) s = .next s)) ∧
  (∀ (s : State) (h f : Nat), h < 4 * s.part.tiles →
    (hostUp s h = false → exec (.unlockMessage h f) s = .next s) ∧
    (hostUp s h = true →
      let free := ∀ e ∈ s.lode.locks, ∀ x, e.2.holder = some x → x.2 ≠ fnKey h f
      (∀ i, (∃ k l, s.lode.locks = [(k, l)] ∧ l.holder = some (i, fnKey h f)) ∨ (free ∧ boundInst s h f = some i) →
        Completes (.unlockMessage h f) s fun s' =>
          (∃ x, Tbl.get [] s'.swc.ingress (ingKey (h / 4) 0 (h % 4)) = Tbl.get [] s.swc.ingress (ingKey (h / 4) 0 (h % 4)) ++ [x] ∧
            x.pkt.ty = .lockEnd ∧ x.pkt.cls = 3 ∧ x.pkt.inst = i ∧ x.cargo = .unlock h f ∧ x.dstTile = homeTile i ∧ x.dstPort = 12) ∧
          s'.brg.serial = s.brg.serial + 1 ∧ Same [.swc, .brg] s s') ∧
      (free → boundInst s h f = none → Completes (.unlockMessage h f) s fun s' =>
        (∀ t n, n < 8 → (lockSt s' t n).ended = (lockSt s t n).ended.filter (fun x => x != fnKey h f) ∧
          (lockSt s' t n).holder = (lockSt s t n).holder) ∧ Same [.lode] s s')))

/-- For every slot. FLIT_TRANSMIT of a sender that is neither ACTIVE nor owes a PAUSE flit, or is paused, changes nothing;
with nothing to send it sends an idle flit that carries the next sequence number; with a message or packet that may go
now and the window open it sends a data flit with the next sequence number, which then counts up modulo 4,096, and
holds it for resending; a queued resend goes first, marked REPLAY. A flit time with data waiting behind a full window,
and one with a frame waiting for credit, is counted. FLIT_RECEIVE: codewords of board reach are counted as corrected
or uncorrectable, and 4 uncorrectable of 8 lose the lock of an ACTIVE link; a good flit of a link not in ACTIVE or
CHANGE changes nothing; one that fails its check is only counted (on a tile link in ACTIVE or CHANGE it also counts
toward the loss of lock); of one of another epoch only counts it, saturating; an idle flit that acknowledges the one
flit outstanding, with no credit news, frees it. NAK_TIMER_EXPIRY lets a missing flit be named again, NAK_RESUME lets
naming resume, REPLAY_TIMER_EXPIRY queues the oldest unacknowledged flit unless it is queued already,
CREDIT_STALL_TIMER sets CREDIT_STALL where a frame waits for credit; each else changes nothing. (R136, R139, R141,
R142, R143, R147, R149, R150, R151, R154, R161) -/
def Obligations.FlitsFlow : Prop :=
  ∀ (s : State) (t n : Nat), t < s.part.tiles → n < 11 →
    let x := linkSt s t n
    (x.paused = true ∨ (linkState s t n ≠ 6 ∧ (linkState s t n ≠ 7 ∨ x.pausing = false)) →
      exec (.flitTransmit t n) s = .next s) ∧
    (x.paused = false → linkState s t n = 6 → x.resend = [] → x.msgs = [] → x.txq = [] → Completes (.flitTransmit t n) s fun s' =>
      (∃ hd : FlitHdr, hd.seq = nextSeq s t n ∧ hd.idle = true ∧ hd.replay = false ∧ hd.epoch = linkEpoch s t n % 16 ∧
        hd.ack = (rxNext s t n + 4095) % 4096 ∧ s'.outbox = s.outbox ++ [.flit t n (flitBytes hd [])]) ∧
      nextSeq s' t n = nextSeq s t n ∧ (linkSt s' t n).replay = x.replay ∧
      gf s' t (lnk n 0x84) 0 16 = (gf s t (lnk n 0x84) 0 16 + b2n ((List.range 4).any (fun c => waitsCredit s t n c))) % 65536 ∧
      Same [.regs, .lode, .outbox] s s') ∧
    (x.paused = false → linkState s t n = 6 → x.resend = [] → canPack x.msgs x.txq = true → x.pausing = false →
      windowOf s t n ≤ x.replay.length → Completes (.flitTransmit t n) s fun s' =>
        gf s' t (lnk n 0x80) 0 16 = (gf s t (lnk n 0x80) 0 16 + 1) % 65536 ∧
        (∃ hd : FlitHdr, hd.seq = nextSeq s t n ∧ hd.idle = true ∧ s'.outbox = s.outbox ++ [.flit t n (flitBytes hd [])]) ∧
        nextSeq s' t n = nextSeq s t n ∧ (linkSt s' t n).replay = x.replay ∧ Same [.regs, .lode, .outbox] s s') ∧
    (x.paused = false → linkState s t n = 6 → x.resend = [] → canPack x.msgs x.txq = true → x.pausing = false →
      x.replay.length < windowOf s t n → Completes (.flitTransmit t n) s fun s' =>
        (∃ f hd, (linkSt s' t n).replay = x.replay ++ [f] ∧ f.seq = nextSeq s t n ∧ hd.seq = f.seq ∧ hd.idle = false ∧
          hd.replay = false ∧ s'.outbox = s.outbox ++ [.flit t n (flitBytes hd f.payload)]) ∧
        nextSeq s' t n = (nextSeq s t n + 1) % 4096 ∧ Same [.regs, .lode, .outbox] s s') ∧
    (∀ f w, x.paused = false → linkState s t n = 6 → x.resend = [(f.seq, w)] → x.replay = [f] → Completes (.flitTransmit t n) s fun s' =>
      (∃ hd, hd.seq = f.seq ∧ hd.replay = true ∧ s'.outbox = s.outbox ++ [.flit t n (flitBytes hd f.payload)]) ∧
      (linkSt s' t n).resend = [] ∧ (linkSt s' t n).replay = [f] ∧ nextSeq s' t n = nextSeq s t n ∧
      Same [.regs, .trc, .lode, .outbox] s s') ∧
    (∀ bytes : List Byte,
      (linkState s t n ≠ 6 → linkState s t n ≠ 7 → flitOk bytes = true ∨ linkState s t n = 0 →
        exec (.flitReceive t n [] bytes) s = .next s) ∧
      (n < 8 → 6 ≤ linkState s t n → linkState s t n ≠ 6 → linkState s t n ≠ 7 → flitOk bytes = true →
        (Completes (.flitReceive t n [.corrected] bytes) s fun s' =>
          rreg s' t (lnk n 0x14) = rreg s t (lnk n 0x14) + 1 ∧ RegsBut (at_ t (lnk n 0x14)) s s' ∧ Same [.regs, .lode] s s') ∧
        Completes (.flitReceive t n [.bad] bytes) s fun s' =>
          rreg s' t (lnk n 0x18) = rreg s t (lnk n 0x18) + 1 ∧ RegsBut (at_ t (lnk n 0x18)) s s' ∧ Same [.regs, .lode] s s') ∧
      (n < 8 → linkState s t n = 6 → Completes (.flitReceive t n [.bad, .bad, .bad, .bad] bytes) s fun s' =>
        linkState s' t n = 8 ∧ rreg s' t (lnk n 0x18) = rreg s t (lnk n 0x18) + 4 ∧ (linkSt s' t n).replay = x.replay ∧
        Same [.regs, .trc, .lode] s s') ∧
      (linkState s t n ≠ 0 → flitOk bytes = false → n < 8 ∨ (linkState s t n ≠ 6 ∧ linkState s t n ≠ 7) →
        Completes (.flitReceive t n [] bytes) s fun s' =>
        gf s' t (lnk n 0x68) 16 16 = (gf s t (lnk n 0x68) 16 16 + 1) % 65536 ∧ RegsBut (at_ t (lnk n 0x68)) s s' ∧
        Same [.regs] s s') ∧
      (linkState s t n = 6 → flitOk bytes = true → (flitHdr bytes).epoch ≠ linkEpoch s t n % 16 →
        Completes (.flitReceive t n [] bytes) s fun s' =>
          gf s' t (lnk n 0x70) 0 8 = Nat.min 255 (gf s t (lnk n 0x70) 0 8 + 1) ∧ RegsBut (at_ t (lnk n 0x70)) s s' ∧
          Same [.regs, .lode] s s') ∧
      (∀ f, let hd := flitHdr bytes
        linkState s t n = 6 → flitOk bytes = true → hd.epoch = linkEpoch s t n % 16 → x.replay = [f] → f.tails = [] →
        hd.ack = (gf s t (lnk n 0x44) 0 12 + 1) % 4096 → hd.nak = none → hd.idle = true → hd.pause = false →
        hd.crTotal = x.crHeld.get hd.crClass % 4096 →
        Completes (.flitReceive t n [] bytes) s fun s' =>
          (linkSt s' t n).replay = [] ∧ gf s' t (lnk n 0x44) 0 12 = hd.ack ∧ linkState s' t n = 6 ∧
          s'.outbox = s.outbox ∧ Same [.regs, .lode] s s')) ∧
    (∀ q : BitVec 12,
      ((missing s t n).contains q.toNat = false → exec (.nakTimerExpiry t n q) s = .next s) ∧
      ((missing s t n).contains q.toNat = true → Completes (.nakTimerExpiry t n q) s fun s' =>
        (linkSt s' t n).named = x.named.filter (fun r => r != q.toNat) ∧ Same [.lode] s s')) ∧
    (linkState s t n ≠ 6 → exec (.nakResume t n) s = .next s ∧ exec (.replayTimerExpiry t n) s = .next s) ∧
    (linkState s t n = 6 →
      (Completes (.nakResume t n) s fun s' => (linkSt s' t n).nakHeld = false ∧ (linkSt s' t n).replay = x.replay ∧ Same [.lode] s s') ∧
      (x.replay = [] → exec (.replayTimerExpiry t n) s = .next s) ∧
      (∀ f r, x.replay = f :: r → Completes (.replayTimerExpiry t n) s fun s' =>
        (linkSt s' t n).resend = (if x.resend.any (fun y => y.1 == f.seq) then x.resend else x.resend ++ [(f.seq, 2)]) ∧
        (linkSt s' t n).replay = x.replay ∧ Same [.lode] s s')) ∧
    (∀ c : BitVec 2,
      (waitsCredit s t n c.toNat = false → exec (.creditStallTimer t n c) s = .next s) ∧
      (waitsCredit s t n c.toNat = true → Completes (.creditStallTimer t n c) s fun s' =>
        gf s' t (lnk n 0x78) 3 1 = 1 ∧ Same [.regs, .trc] s s'))

/-- For every local slot. In a fenced tile these commands change nothing, and so does one that finds no packet of its kind
at the head of what the link delivered. WR_RECEIVE: a write of an instance that passes the checks leaves for the host
link of its function at the translated address with its data and joins the posted frames on their way; one of an
instance that is not live, one of an old generation and one that no window takes are discarded and counted, the last
in the miss registers. RD_RECEIVE: a read whose tag is not outstanding joins those that wait for a held-read slot; one
whose tag is outstanding is answered MALFORMED (8) and counted. HELD_READ_SLOT_TAKE: with none waiting nothing
changes; the oldest read that may takes the lowest free slot; if it passes the checks it stays there and its host
reads leave, split at the host's read size in ascending order, and otherwise it is answered with the status of its
check. EVENT_ASSERT and EVENT_DEASSERT of a level source raise and lower the line, EVENT_EDGE of an enabled edge
source makes it pending, at once where no earlier write of the link is on its way, and otherwise only after a hold.
LTP_HELD_READ, where it reaches its register, shows it and begins HIGH_WATER afresh. (R169, R173, R174, R177, R183,
R204, R214, R223, R224, R228, R233) -/
def Obligations.PartnersWritesReadsAndEvents : Prop :=
  ∀ (s : State) (t n : Nat), t < s.part.tiles → n < 8 →
    let x := linkSt s t n
    let ik := ingKey t (1 + n / 2) (n % 2)
    ((tileSt s t).fenced = true → ∀ c e, c ∈ [Instr.wrReceive t n e, .rdReceive t n, .heldReadSlotTake t n e, .eventAssert t n,
      .eventDeassert t n, .eventEdge t n] → exec c s = .next s) ∧
    ((tileSt s t).fenced = false →
    (x.rxq = [] → ∀ c e, c ∈ [Instr.wrReceive t n e, .rdReceive t n, .eventAssert t n, .eventDeassert t n, .eventEdge t n] →
      exec c s = .next s) ∧
    (∀ r e, x.rxq = [r] → r.pkt.ty = .wr → r.pkt.glob = false →
      (∀ w, checkUp s t n r.pkt true e.descBad = .refused 5 w → Completes (.wrReceive t n e) s fun s' =>
        gf s' t (ltp n 0x10) 0 16 = (gf s t (ltp n 0x10) 0 16 + 1) % 65536 ∧ (linkSt s' t n).rxq = [] ∧
        RegsBut (at_ t (ltp n 0x10)) s s' ∧ Same [.regs, .lode] s s') ∧
      (∀ w, checkUp s t n r.pkt true e.descBad = .refused 7 w → Completes (.wrReceive t n e) s fun s' =>
        gf s' t (ltp n 0x10) 16 16 = (gf s t (ltp n 0x10) 16 16 + 1) % 65536 ∧ (linkSt s' t n).rxq = [] ∧
        RegsBut (at_ t (ltp n 0x10)) s s' ∧ Same [.regs, .lode] s s') ∧
      (∀ w, checkUp s t n r.pkt true e.descBad = .refused 6 w → e.descBad = false → Completes (.wrReceive t n e) s fun s' =>
        rreg s' (homeTile r.pkt.inst) 0x4000010 = word (missUpNoWindow * 2 ^ 28 + b2n w.isSome * 2 ^ 18 + w.getD 0 * 2 ^ 12 + r.pkt.inst) ∧
        gf s' (homeTile r.pkt.inst) 0x4000020 16 16 = (gf s (homeTile r.pkt.inst) 0x4000020 16 16 + e.corrected) % 65536 ∧
        (linkSt s' t n).rxq = [] ∧ Same [.regs, .trc, .lode] s s') ∧
      (∀ h f a, checkUp s t n r.pkt true e.descBad = .passes h f a → Completes (.wrReceive t n e) s fun s' =>
        (∃ y, Tbl.get [] s'.swc.ingress ik = Tbl.get [] s.swc.ingress ik ++ [y] ∧ y.pkt.addr = a ∧ y.pkt.data = r.pkt.data ∧
          y.pkt.inst = r.pkt.inst ∧ y.dstTile = h / 4 ∧ y.dstPort = 0 ∧ y.dstSub = h % 4 ∧
          ∃ z ∈ s'.brg.posted, z.serial = y.serial ∧ z.inst = r.pkt.inst ∧ z.fromSlot = some (slotKey t n) ∧ z.toHost = some h) ∧
        (linkSt s' t n).rxq = [] ∧ Same [.regs, .evc, .trc, .swc, .brg, .lode, .ins] s s')) ∧
    (∀ r, x.rxq = [r] → r.pkt.ty = .rd →
      (tagOut s t n r.pkt.tag = false → Completes (.rdReceive t n) s fun s' =>
        (linkSt s' t n).rdWait = x.rdWait ++ [r] ∧ (linkSt s' t n).rxq = [] ∧ Same [.regs, .trc, .lode] s s') ∧
      (tagOut s t n r.pkt.tag = true → Completes (.rdReceive t n) s fun s' =>
        gf s' t (ltp n 0x14) 0 16 = (gf s t (ltp n 0x14) 0 16 + 1) % 65536 ∧ (linkSt s' t n).rxq = [] ∧
        (∃ y, Tbl.get [] s'.swc.ingress ik = Tbl.get [] s.swc.ingress ik ++ [y] ∧ y.pkt.ty = .rsp ∧ y.pkt.addr = 8 ∧
          y.pkt.tag = r.pkt.tag) ∧ Same [.regs, .trc, .swc, .brg, .lode] s s')) ∧
    (∀ e, x.rdWait = [] → exec (.heldReadSlotTake t n e) s = .next s) ∧
    (∀ r k e, x.rdWait = [r] → intakeShut s t n r.pkt = false → r.pkt.glob = false →
      (List.range (heldSlots s t n)).find? (fun k => (heldRd s t n k).isNone) = some k →
      (∀ h f a, checkUp s t n r.pkt false e.descBad = .passes h f a → Completes (.heldReadSlotTake t n e) s fun s' =>
        (∃ d, heldRd s' t n k = some d ∧ d.pkt = r.pkt ∧ d.link = h ∧ d.epoch = linkEpoch s t n ∧ d.rsp = none) ∧
        (∃ l, Tbl.get [] s'.swc.ingress ik = Tbl.get [] s.swc.ingress ik ++ l ∧
          l.map (fun y => (y.pkt.addr, y.pkt.len)) =
            (splitRead (mrrsOf s h f) 33 0 (lenBytes r.pkt.len)).map (fun z => (a + z.1, lenField z.2))) ∧
        (linkSt s' t n).rdWait = [] ∧ Same [.regs, .swc, .brg, .lode] s s') ∧
      (∀ st w, checkUp s t n r.pkt false e.descBad = .refused st w → e.descBad = false → Completes (.heldReadSlotTake t n e) s fun s' =>
        (∃ y, Tbl.get [] s'.swc.ingress ik = Tbl.get [] s.swc.ingress ik ++ [y] ∧ y.pkt.ty = .rsp ∧ y.pkt.addr = st ∧
          y.pkt.tag = r.pkt.tag ∧ (heldRd s' t n k).any (fun d => d.pkt == r.pkt && d.rsp == some y.serial) = true) ∧
        (linkSt s' t n).rdWait = [] ∧ Same [.regs, .trc, .swc, .brg, .lode] s s')) ∧
    (∀ r c, x.rxq = [r] → r.pkt.ty = .event →
      (c = .eventAssert t n ∧ r.pkt.opx = 0) ∨ (c = .eventDeassert t n ∧ r.pkt.opx = 1) ∨ (c = .eventEdge t n ∧ r.pkt.opx = 2) →
      (slotPosted s t n none ≠ [] → Completes c s fun s' =>
        (∃ h, s'.brg.holds = s.brg.holds ++ [h] ∧ h.waits = slotPosted s t n none ∧ h.item = .event t n r.pkt) ∧
        s'.evc = s.evc ∧ Same [.brg, .lode] s s') ∧
      (slotPosted s t n none = [] → s.brg.holds = [] →
        (r.pkt.opx = 0 → srcLevel s t (20480 + n * 256 + r.pkt.addr % 256) = true → Completes c s fun s' =>
          Tbl.find? s'.evc.lines ((t * 8 + n) * 256 + r.pkt.addr % 256) = some () ∧ Same [.regs, .evc, .lode] s s') ∧
        (r.pkt.opx = 1 → srcLevel s t (20480 + n * 256 + r.pkt.addr % 256) = true → Completes c s fun s' =>
          Tbl.find? s'.evc.lines ((t * 8 + n) * 256 + r.pkt.addr % 256) = none ∧ Same [.regs, .evc, .lode] s s') ∧
        (r.pkt.opx = 2 → srcLevel s t (20480 + n * 256 + r.pkt.addr % 256) = false →
          gf s t (evcSrc (20480 + n * 256 + r.pkt.addr % 256)) 31 1 = 1 → 2 ≤ mode s t →
          reservedSource (20480 + n * 256 + r.pkt.addr % 256) = false → Completes c s fun s' =>
            gf s' t (0x7000000 + 4 * ((20480 + n * 256 + r.pkt.addr % 256) / 32)) ((20480 + n * 256 + r.pkt.addr % 256) % 32) 1 = 1 ∧
            Same [.regs, .evc, .lode] s s')))) ∧
    (Reaches s t (ltp n 4) → Completes (.ltpHeldRead t n) s fun s' => s'.outbox = s.outbox ++ [.read t (ltp n 4) (rreg s t (ltp n 4))] ∧
      gf s' t (ltp n 4) 16 7 = gf s t (ltp n 4) 0 7 ∧ BitsBut 16 7 (rreg s t (ltp n 4)) (rreg s' t (ltp n 4)) ∧
      RegsBut (at_ t (ltp n 4)) s s' ∧ Same [.regs, .outbox] s s')

/-- For every local slot; in a fenced tile these commands change nothing. RSP_RECEIVE: with none delivered nothing
changes; a response to a quarantined tag frees the tag, one to a request of a past epoch is remembered no more, and
both are counted late; one to a tag not outstanding is counted malformed; one to a read of the DMA frees the tag and
leaves for the DMA port of the issuing tile with its status; a good one to LOCK_BEGIN, with its locked read's host
entry still there, makes the read's function the holder of the lock. LTP_RSP_TIMEOUT: of a tag not outstanding nothing
changes; of a DMA read the tag is quarantined and the read is answered TIMEOUT (4). LOCK_BEGIN_SEND: with no locked
read waiting nothing changes; with none begun, the link up, order and the port's state as they must be, and a cell
free, LOCK_BEGIN joins the Control queue of the locked read's input; when the output's turn falls on it, it leaves
with a tag and the port reads LOCKED by its instance. LOCK_WAIT_EXPIRY: with none waiting nothing changes; else the
first gives up, is counted, and a host's request is completed. (R21, R170, R171, R172, R180, R181, R190, R235, R236) -/
def Obligations.ResponsesAndLocks : Prop :=
  ∀ (s : State) (t n : Nat), t < s.part.tiles → n < 8 →
    let x := linkSt s t n
    ((tileSt s t).fenced = true → ∀ c tag, c ∈ [Instr.rspReceive t n, .ltpRspTimeout t n tag, .lockBeginSend t n, .lockWaitExpiry t n] →
      exec c s = .next s) ∧
    ((tileSt s t).fenced = false →
    (x.rxq = [] → exec (.rspReceive t n) s = .next s) ∧
    (∀ r, x.rxq = [r] → r.pkt.isRsp = true → r.pkt.tag < 4096 →
      let k := (t * 8 + n) * 4096 + r.pkt.tag
      (∀ iss, Tbl.find? s.lode.quar k = some iss → Completes (.rspReceive t n) s fun s' =>
        Tbl.find? s'.lode.quar k = none ∧ (linkSt s' t n).rxq = [] ∧
        gf s' t (ltp n 0x18) 16 16 = (gf s t (ltp n 0x18) 16 16 + 1) % 65536 ∧ Same [.regs, .trc, .lode, .dma] s s') ∧
      (Tbl.find? s.lode.quar k = none → Tbl.find? s.lode.past k = some () → Completes (.rspReceive t n) s fun s' =>
        Tbl.find? s'.lode.past k = none ∧ (linkSt s' t n).rxq = [] ∧
        gf s' t (ltp n 0x18) 16 16 = (gf s t (ltp n 0x18) 16 16 + 1) % 65536 ∧ Same [.regs, .trc, .lode] s s') ∧
      (Tbl.find? s.lode.quar k = none → Tbl.find? s.lode.past k = none →
        (Tbl.get none s.lode.tags k = none → Completes (.rspReceive t n) s fun s' =>
          gf s' t (ltp n 0x14) 0 16 = (gf s t (ltp n 0x14) 0 16 + 1) % 65536 ∧ (linkSt s' t n).rxq = [] ∧
          Same [.regs, .trc, .lode] s s') ∧
        (∀ d u g, Tbl.get none s.lode.tags k = some d → d.issuer = .dmaTag u g → Completes (.rspReceive t n) s fun s' =>
          Tbl.get none s'.lode.tags k = none ∧
          (∃ y, Tbl.get [] s'.swc.ingress (ingKey t (1 + n / 2) (n % 2)) =
              Tbl.get [] s.swc.ingress (ingKey t (1 + n / 2) (n % 2)) ++ [y] ∧ y.pkt.addr = (rspStatus d r.pkt).1 ∧
            y.dstTile = u ∧ y.dstPort = 8 ∧ y.issuer = .dmaTag u g ∧ y.pkt.inst = d.inst ∧ y.pkt.gen = d.gen) ∧
          Same [.regs, .swc, .brg, .lode] s s') ∧
        (∀ d f a e b, Tbl.get none s.lode.tags k = some d → d.issuer = .lock t n → rspStatus d r.pkt = (0, false) →
          (lockSt s t n).begun = some f → f.issuer = .inbound a e → Tbl.get none s.host.inb (a * 1024 + e) = some b →
          b.inst = f.pkt.inst → b.gen = f.pkt.gen → Completes (.rspReceive t n) s fun s' =>
            Tbl.get none s'.lode.tags k = none ∧ (lockSt s' t n).holder = some (f.pkt.inst, f.locked.getD 0) ∧
            (lockSt s' t n).begun = none ∧ Same [.regs, .wtt, .brg, .lode] s s'))) ∧
    (∀ tag : BitVec 12, let k := (t * 8 + n) * 4096 + tag.toNat
      (Tbl.get none s.lode.tags k = none → exec (.ltpRspTimeout t n tag) s = .next s) ∧
      (∀ d u g, Tbl.get none s.lode.tags k = some d → d.issuer = .dmaTag u g → Completes (.ltpRspTimeout t n tag) s fun s' =>
        Tbl.get none s'.lode.tags k = none ∧ Tbl.find? s'.lode.quar k = some (.dmaTag u g) ∧
        gf s' t (ltp n 0x18) 0 16 = (gf s t (ltp n 0x18) 0 16 + 1) % 65536 ∧
        Tbl.get [] s'.dma.dataIn u = Tbl.get [] s.dma.dataIn u ++ [⟨g, 4, [], false⟩])) ∧
    ((lockSt s t n).wait = [] → exec (.lockBeginSend t n) s = .next s ∧ exec (.lockWaitExpiry t n) s = .next s) ∧
    (∀ id f p, oldestLocked s t n = some (id, f, p) →
      ((lockSt s t n).begun.isSome = true ∨ linkAlive s t n = false ∨ lockMayGo s t n id f = false →
        exec (.lockBeginSend t n) s = .next s) ∧
      ((lockSt s t n).begun = none → linkAlive s t n = true → lockMayGo s t n id f = true → 1 ≤ acctFree s t .shared →
        Completes (.lockBeginSend t n) s fun s' =>
          (lockSt s' t n).begun = some f ∧ (lockSt s' t n).sent = false ∧ (lockSt s' t n).wait = (lockSt s t n).wait ∧
          queueOf s' (qKey t (4 + n) p 3) = queueOf s (qKey t (4 + n) p 3) ++ [(s.swc.nextId, none)] ∧
          (∃ y, storedOf s' t s.swc.nextId = some y ∧ y.f.pkt.ty = .lockBegin ∧ y.f.pkt.inst = f.pkt.inst ∧ y.f.issuer = .lock t n) ∧
          acctFree s' t .shared = acctFree s t .shared - 1 ∧ Same [.regs, .trc, .swc, .brg, .lode] s s')) ∧
    (∀ f rest u e, (lockSt s t n).wait = f :: rest → f.issuer = .inbound u e → Completes (.lockWaitExpiry t n) s fun s' =>
      (lockSt s' t n).wait = rest.filter (fun g => g.serial != f.serial) ∧
      gf s' t (ltp n 0x24) 16 16 = (gf s t (ltp n 0x24) 16 16 + 1) % 65536 ∧
      Tbl.get none s'.host.inb (u * 1024 + e) = none ∧ s'.mem = s.mem ∧ s'.modes = s.modes)) ∧
    (∀ i id x, TurnOf s t (4 + n) i 3 id none x → x.f.pkt.ty = .lockBegin → x.f.pkt.inst < 4096 → x.f.mc = none →
      Completes (.outputArbitration t (4 + n) ⟨0, none⟩) s fun s' =>
        gf s' t (ltp n 0xC) 31 1 = 1 ∧ gf s' t (ltp n 0xC) 0 12 = x.f.pkt.inst ∧ (lockSt s' t n).sent = true ∧
        queueOf s' (qKey t (4 + n) i 3) = (queueOf s (qKey t (4 + n) i 3)).tail ∧
        (∃ j, (linkSt s' t n).txq = (linkSt s t n).txq ++ [j] ∧ j.f.pkt.ty = .lockBegin ∧ j.f.pkt.inst = x.f.pkt.inst ∧
          (Tbl.get none s'.lode.tags ((t * 8 + n) * 4096 + j.f.pkt.tag)).isSome = true) ∧
        Same [.regs, .swc, .brg, .lode, .fresh] s s')

/-- FRAME_ARRIVAL with nothing at the port, and FRAME_ADMIT with nothing waiting there, change nothing; the next frame of
a port that meets no refusal, with its cells free in the shared account, is stored under the next id and queued for
its output and class, or, a host request at its home tile, for window translation. POOL_TRANSFER of an id not stored,
of one out of its receive pool, or with no account that holds its cells, changes nothing; else the charge moves to the
account that R188 gives, and the frame returns its credit. OUTPUT_ARBITRATION where the turn falls on a head: at a
host link's output it goes to the host port, with EP where a cell beyond the first has an uncorrectable error, which
is counted; at a tile link's output it goes to the transmitter, and so does TRANSIT_FORWARD for a head in the transit
reservation; with nothing eligible no frame moves and the cycle is counted; TRANSIT_FORWARD otherwise changes nothing.
QUEUE_URGENT marks a queue that holds a frame, once. FRAME_AGE_EXPIRY discards and counts the head of a queue whose
class has an age limit, a read of the DMA being answered with Completer Abort, and changes nothing for an empty queue
or a head that never ages. FRAME_ABORT: a packet leaving by a Lode link whose rest is bad, or in a cell of which an
error is met, is marked; one whose head has not left is taken off; one that a DMA engine is taking in is discarded;
any other command changes nothing. (R13, R18, R185, R187, R188, R190, R191, R195, R197, R198, R206, R212) -/
def Obligations.FramesCrossTheSwitchCore : Prop :=
  (∀ (s : State) (t p : Nat), t < s.part.tiles → p < 12 →
    (nextIn s t p = none → exec (.frameArrival t p) s = .next s) ∧
    (Tbl.get [] s.swc.waiting (t * 12 + p) = [] → Completes (.frameAdmit t p) s fun s' => s'.swc.queues = s.swc.queues ∧
      s'.swc.frames = s.swc.frames ∧ (∀ k, Tbl.get [] s'.swc.waiting k = Tbl.get [] s.swc.waiting k) ∧ Same [.swc] s s') ∧
    (∀ c f, (c = .frameArrival t p ∧ ∃ sub rest, nextIn s t p = some (sub, f, rest)) ∨
        (c = .frameAdmit t p ∧ Tbl.get [] s.swc.waiting (t * 12 + p) = [f]) →
      Passes s t f → f.credit = none → f.pkt.cells ≤ acctFree s t .shared →
      let put (s' : State) : Prop :=
        storedOf s' t s.swc.nextId = some ⟨f, .shared, f.pkt.cells, 1, p, s.ticks * 10000000 / 32768, f.lack != 0, none⟩ ∧
        s'.swc.nextId = s.swc.nextId + 1 ∧ acctFree s' t .shared = acctFree s t .shared - f.pkt.cells
      (f.dstTile ≠ t ∨ f.dstPort ≠ 12 → Completes c s fun s' =>
        let k := qKey t (outOf s t f) p f.pkt.cls
        put s' ∧ queueOf s' k = queueOf s k ++ [(s.swc.nextId, none)] ∧ Same [.regs, .trc, .swc] s s') ∧
      (f.dstTile = t → f.dstPort = 12 → f.pkt.isRsp = false → Completes c s fun s' =>
        put s' ∧ Tbl.get [] s'.host.resolve t = Tbl.get [] s.host.resolve t ++ [(s.swc.nextId, none)] ∧
        Same [.regs, .trc, .swc, .host] s s'))) ∧
  (∀ (s : State) (t id : Nat), t < s.part.tiles →
    (storedOf s t id = none ∨ (∃ x, storedOf s t id = some x ∧ (x.acct ≠ .pool ∨ onwardAcct s t (outOf s t x.f) x = none)) →
      exec (.poolTransfer t id) s = .next s) ∧
    (∀ x a, storedOf s t id = some x → x.acct = .pool → onwardAcct s t (outOf s t x.f) x = some a →
      Completes (.poolTransfer t id) s fun s' =>
        storedOf s' t id = some { x with acct := a, f := { x.f with credit := none } } ∧
        (a = .shared → acctFree s' t .shared = acctFree s t .shared - x.cells) ∧ Same [.regs, .trc, .swc, .lode] s s')) ∧
  (∀ (s : State) (t o : Nat), t < s.part.tiles → o < 19 →
    (∀ s1, choose s t o = (none, s1) → exec (.transitForward t o) s = .next s) ∧
    (∀ i c u s1, choose s t o = (some (i, c, u), s1) → inTransit s1 t o i c = false → exec (.transitForward t o) s = .next s) ∧
    (s.swc.urgent = [] → (∀ c, c < 4 → inputsOf s t o c = []) → Tbl.get [] s.swc.mgmt t = [] → ∀ r, Completes (.outputArbitration t o r) s fun s' =>
      let k := t * 12 + outPort o
      s'.swc.queues = s.swc.queues ∧ s'.swc.frames = s.swc.frames ∧
      (outQueued s t o = true → Tbl.get 0 s'.swc.idle k = (Tbl.get 0 s.swc.idle k + 1) % 1024) ∧
      gf s' t (swcP (outPort o) 0xC) 0 16 =
        (gf s t (swcP (outPort o) 0xC) 0 16 + b2n (outQueued s t o && Tbl.get 0 s.swc.idle k + 1 == 1024)) % 65536 ∧
      Same [.regs, .swc] s s') ∧
    (∀ i c id q x k, TurnOf s t o i c id q x → x.f.mc = none →
      let gone (s' : State) : Prop :=
        queueOf s' (qKey t o i c) = (queueOf s (qKey t o i c)).tail ∧ deficitOf s' t o c = deficitOf s t o c - x.cells
      (o < 4 → Completes (.outputArbitration t o ⟨k, none⟩) s fun s' =>
        Tbl.get [] s'.host.outq (4 * t + o) = Tbl.get [] s.host.outq (4 * t + o) ++ [{ x.f with credit := none }] ∧ gone s' ∧
        gf s' t 0x3000034 16 16 = (gf s t 0x3000034 16 16 + k) % 65536 ∧ Same [.regs, .swc, .lode, .host] s s') ∧
      (o < 4 → 0 < k → k < x.cells → faultClass s t 3 1 < 2 → Completes (.outputArbitration t o ⟨0, some k⟩) s fun s' =>
        Tbl.get [] s'.host.outq (4 * t + o) = Tbl.get [] s.host.outq (4 * t + o) ++
          [{ x.f with credit := none, pkt := { x.f.pkt with ep := true } }] ∧ gone s' ∧
        gf s' t 0x3000034 0 16 = (gf s t 0x3000034 0 16 + 1) % 65536) ∧
      (12 ≤ o → o < 15 → ∀ cmd, cmd = .outputArbitration t o ⟨0, none⟩ ∨ (cmd = .transitForward t o ∧ x.acct = .transit) →
        Completes cmd s fun s' =>
          (∃ j, (linkSt s' t (o - 4)).txq = (linkSt s t (o - 4)).txq ++ [j] ∧ j.f.serial = x.f.serial ∧ j.f.pkt = x.f.pkt ∧
            j.f.links = x.f.links ++ [(slotKey t (o - 4), linkEpoch s t (o - 4))]) ∧ gone s' ∧
          Same [.regs, .swc, .brg, .lode] s s'))) ∧
  (∀ (s : State) (t o i : Nat) (c : BitVec 2), t < s.part.tiles → o < 19 → i < 12 →
    let k := qKey t o i c.toNat
    (queueOf s k = [] → exec (.queueUrgent t o i c) s = .next s ∧ exec (.frameAgeExpiry t o i c) s = .next s) ∧
    (queueOf s k ≠ [] → s.swc.urgent.contains k = true → exec (.queueUrgent t o i c) s = .next s) ∧
    (queueOf s k ≠ [] → s.swc.urgent.contains k = false →
      exec (.queueUrgent t o i c) s = .next { s with swc := { s.swc with urgent := s.swc.urgent ++ [k] } }) ∧
    (∀ id q x, headOf s t o i c.toNat = some (id, q, x) →
      (mayAge s t x.f = false → exec (.frameAgeExpiry t o i c) s = .next s) ∧
      (mayAge s t x.f = true → x.refs = 1 →
        let aged (s' : State) : Prop := queueOf s' k = (queueOf s k).tail ∧ storedOf s' t id = none ∧
          gf s' t (swcP (outPort o) 0) 16 16 = (gf s t (swcP (outPort o) 0) 16 16 + 1) % 65536
        (x.f.pkt.isReq = false → x.f.pkt.isRsp = false → x.f.cargo = .ltp → (∀ u w, x.f.issuer ≠ .dmaWr u w) →
          Completes (.frameAgeExpiry t o i c) s fun s' => aged s' ∧ Same [.regs, .trc, .swc, .brg, .lode, .fresh] s s') ∧
        (∀ u g, x.f.pkt.isReq = true → x.f.mc = none → x.f.locked = none → x.f.issuer = .dmaTag u g →
          Completes (.frameAgeExpiry t o i c) s fun s' =>
            aged s' ∧ Tbl.get [] s'.dma.dataIn u = Tbl.get [] s.dma.dataIn u ++ [⟨g, 2, [], false⟩])))) ∧
  (∀ (s : State) (t id : Nat) (ecc : Bool), t < s.part.tiles →
    ((∀ n, n < 11 → ∀ j ∈ (linkSt s t n).txq, j.f.serial = id → j.abort = true) →
      ((∀ f ∈ Tbl.get [] s.swc.into t, f.serial = id → f.bad = false) → exec (.frameAbort t id ecc) s = .next s) ∧
      ∀ f, Tbl.get [] s.swc.into t = [f] → f.serial = id → f.bad = true → Completes (.frameAbort t id ecc) s fun s' =>
        Tbl.get [] s'.swc.into t = [] ∧ gf s' t (swcP (outPort (outOf s t f)) 4) 16 16 =
          (gf s t (swcP (outPort (outOf s t f)) 4) 16 16 + 1) % 65536) ∧
    ∀ n j, n < 11 → (linkSt s t n).txq = [j] → j.f.serial = id → j.abort = false →
      (∀ m, m < 11 → m ≠ n → (linkSt s t m).txq = []) →
      let marked (s' : State) : Prop := (linkSt s' t n).txq = [{ j with abort := true, rest := abortRest j }] ∧
        gf s' t (lnk n 0x74) 0 16 = (gf s t (lnk n 0x74) 0 16 + 1) % 65536
      (j.f.bad = false → ecc = false ∨ j.started = false → exec (.frameAbort t id ecc) s = .next s) ∧
      (j.f.bad = true → j.started = false → Completes (.frameAbort t id ecc) s fun s' =>
        (linkSt s' t n).txq = [] ∧ Same [.regs, .brg, .lode] s s') ∧
      (j.f.bad = true → j.started = true → Completes (.frameAbort t id ecc) s fun s' =>
        marked s' ∧ Same [.regs, .trc, .lode, .dma, .fresh] s s') ∧
      (j.f.bad = false → j.started = true → ecc = true → j.f.copy = none → faultClass s t 3 1 < 2 →
        Completes (.frameAbort t id ecc) s fun s' =>
          marked s' ∧ gf s' t 0x3000034 0 16 = (gf s t 0x3000034 0 16 + 1) % 65536))

/-- SWC_CNT_READ, WTT_WINDOW_READ, WTT_ENTRY_READ, DMA_QCTX_READ, DMA_CNT_READ, INSTANCE_READ, ALARM_READ and
TIMESTAMP_READ, where they reach their mailbox: with BUSY 1 nothing changes. With BUSY 0 the command is accepted: BUSY
is set, VALID cleared, SEQ counts up, OP is READ, and the command will end with the words of the object the index
names, as they are now, or with BAD_INDEX where the index lies outside the range; no other register and nothing else
changes. A window's first word shows OWNED and the instance whose range holds it. A READ of the calendar itself
answers a time not before its tick and not before the last READ (the time between two ticks is free: log entry 24).
(R83, R84, R207, R220, R283, R284, R353, R392) -/
def Obligations.MailboxesReadTheirObjects : Prop :=
  (∀ (s : State) (t m : Nat) (c : Instr) (mb : Nat) (e : MbEnd), t < s.part.tiles → m < 4 →
    (let i := mbIndex s t mb;
      (c = .swcCntRead t ∧ mb = 0x3000400 ∧ e = if 47 < i then badIndex else countWords (Tbl.get 0 s.swc.counts (t * 48 + i))) ∨
      (c = .dmaCntRead t ∧ mb = 0x5000300 ∧ e = if 1023 < i then badIndex else countWords (Tbl.get 0 s.dma.counts (1024 * t + i))) ∨
      (c = .wttWindowRead t ∧ mb = 0x4000100 ∧ e = if 8191 < i then badIndex else
        .ok (((winWords s t i).headD 0 ||| (winOwner s t i).elim 0 (fun j => word (2 ^ 31 + j * 2 ^ 16))) :: (winWords s t i).drop 1)) ∨
      (c = .wttEntryRead t m ∧ mb = 0x4000200 + 0x80 * m ∧ e = if 2097151 < i then badIndex else .ok (entWords s t i)) ∨
      (c = .dmaQctxRead t ∧ mb = 0x5000100 ∧ e = if 16384 ≤ i then badIndex else .ok ((List.range 16).map (qw s t i))) ∨
      (c = .instanceRead t m ∧ mb = 0x6000100 + 0x80 * m ∧ e = if i / 512 = t then .ok (instWords s i) else badIndex) ∨
      (c = .alarmRead t ∧ mb = 0xD000300 ∧ e = if 255 < i then badIndex else .ok (alarmWords (alarmSlot s t i))) ∨
      (c = .timestampRead ∧ t = 0 ∧ mb = 0x9000000 ∧ i ≠ 0 ∧ e = if i = 1 then .ok (tsWords (powerTime s.cal.lost)) else
        if i = 2 then .ok (tsWords (powerTime s.cal.rise)) else badIndex)) →
    Heard s c → (gf s t mb 30 1 = 1 → exec c s = .next s) ∧
    (gf s t mb 30 1 = 0 → Completes c s fun s' => MbTakes t mb 1 e s s' ∧ Same [.regs, .bus] s s')) ∧
  ∀ (s : State), Heard s .timestampRead → gf s 0 0x9000000 30 1 = 0 → mbIndex s 0 0x9000000 = 0 → Completes .timestampRead s fun s' =>
    ∃ n, s.cal.lastRead ≤ n ∧ s.cal.total ≤ n ∧ s'.cal = { s.cal with lastRead := n } ∧ s'.fresh = s.fresh + 1 ∧
      MbTakes 0 0x9000000 1 (.ok (tsWords n)) s s' ∧ Same [.regs, .bus, .cal, .fresh] s s'

/-- Of commands that reach their mailbox, with BUSY 0 (with BUSY 1 nothing changes). SWC_CNT_WRITE, DMA_CNT_WRITE and
ALARM_WRITE are refused, or end with BAD_INDEX outside the range; INSTANCE_WRITE likewise, its WHY saying STATE, or
BUSY where a command for the instance runs. WTT_WINDOW_WRITE and WTT_ENTRY_WRITE store the words, device-supplied bits
zero, where they break no condition of R218, and nothing of any other descriptor or entry; FILL stores each of its
entries so, or none. ALARM_ACK returns its slot to empty where the count read is the slot's, and is refused where it
is not. TIMESTAMP_WRITE sets the calendar and VALID, and SLEW begins its correction, where the index is 0 and the
package does not follow; else both are refused. (R84, R207, R218, R220, R283, R284, R285, R353, R392) -/
def Obligations.MailboxesRefuseOrCommit : Prop :=
  ∀ (s : State) (t m : Nat) (c : Instr) (mb op : Nat), t < s.part.tiles → m < 4 →
    (c, mb, op) ∈ [(Instr.swcCntWrite t, 0x3000400, 2), (.dmaCntWrite t, 0x5000300, 2), (.alarmWrite t, 0xD000300, 2),
      (.instanceWrite t m, 0x6000100 + 0x80 * m, 2), (.wttWindowWrite t, 0x4000100, 2), (.wttEntryWrite t m, 0x4000200 + 0x80 * m, 2),
      (.fill t m, 0x4000200 + 0x80 * m, 3), (.alarmAck t, 0xD000300, 3)] ++
      (if t = 0 then [(.timestampWrite, 0x9000000, 2), (.slew, 0x9000000, 3)] else []) →
    Heard s c →
    (gf s t mb 30 1 = 1 → exec c s = .next s) ∧
    (gf s t mb 30 1 = 0 →
      let i := mbIndex s t mb
      let d := mbData s t mb
      (∀ top, (c = .swcCntWrite t ∧ top = 47) ∨ (c = .dmaCntWrite t ∧ top = 1023) ∨ (c = .alarmWrite t ∧ top = 255) →
        Completes c s fun s' => MbTakes t mb 2 (if top < i then badIndex else refusedMb) s s' ∧ Same [.regs, .bus] s s') ∧
      (c = .instanceWrite t m →
        (i / 512 ≠ t → Completes c s fun s' => MbTakes t mb 2 badIndex s s' ∧ Same [.regs, .bus] s s') ∧
        (i / 512 = t → Completes c s fun s' =>
          gf s' t (0x6000020 + 4 * m) 0 8 = (if (Tbl.get none s.ins.busy i).isSome then 10 else 1) ∧ gf s' t mb 30 1 = 1 ∧
          Tbl.get .running s'.bus.mb (key t mb) = refusedMb ∧ s'.ins.recs = s.ins.recs ∧
          RegsBut (ats t [mb, 0x6000020 + 4 * m]) s s' ∧ Same [.regs, .bus, .ins] s s')) ∧
      (c = .wttWindowWrite t → let w := maskWin ((List.range 8).map d)
        (8191 < i → Completes c s fun s' => MbTakes t mb 2 badIndex s s' ∧ Same [.regs, .bus] s s') ∧
        (i ≤ 8191 → winBad s t i w = true → Completes c s fun s' => MbTakes t mb 2 refusedMb s s' ∧ Same [.regs, .bus] s s') ∧
        (i ≤ 8191 → winBad s t i w = false → Completes c s fun s' => MbTakes t mb 2 (.ok []) s s' ∧ winWords s' t i = w ∧
          (∀ u n, t * 8192 + i ≠ u * 8192 + n → winWords s' u n = winWords s u n) ∧ s'.wtt.ents = s.wtt.ents ∧
          Same [.regs, .bus, .wtt] s s')) ∧
      (c = .wttEntryWrite t m → let w := maskEnt ((List.range 4).map d)
        (2097151 < i → Completes c s fun s' => MbTakes t mb 2 badIndex s s' ∧ Same [.regs, .bus] s s') ∧
        (i ≤ 2097151 → entBad s t i w = true → Completes c s fun s' => MbTakes t mb 2 refusedMb s s' ∧ Same [.regs, .bus] s s') ∧
        (i ≤ 2097151 → entBad s t i w = false → Completes c s fun s' => MbTakes t mb 2 (.ok []) s s' ∧ entWords s' t i = w ∧
          (∀ u n, t * 2097152 + i ≠ u * 2097152 + n → entWords s' u n = entWords s u n) ∧ s'.wtt.wins = s.wtt.wins ∧
          Same [.regs, .bus, .wtt] s s')) ∧
      (c = .fill t m → let w := maskEnt ((List.range 4).map d); let k := gf s t (0x4000030 + 4 * m) 0 22
        let e (j : Nat) : List Word := fillEntry w j;
        (2097152 < i + k → Completes c s fun s' => MbTakes t mb 3 badIndex s s' ∧ Same [.regs, .bus] s s') ∧
        (i + k ≤ 2097152 → (∃ j, j < k ∧ entBad s t (i + j) (e j) = true) → Completes c s fun s' =>
          MbTakes t mb 3 refusedMb s s' ∧ Same [.regs, .bus] s s') ∧
        (i + k ≤ 2097152 → (∀ j, j < k → entBad s t (i + j) (e j) = false) → Completes c s fun s' =>
          MbTakes t mb 3 (.ok []) s s' ∧ (∀ j, j < k → entWords s' t (i + j) = e j) ∧
          (∀ n, n < 2097152 → n < i ∨ i + k ≤ n → entWords s' t n = entWords s t n) ∧ s'.wtt.wins = s.wtt.wins ∧
          Same [.regs, .bus, .wtt] s s')) ∧
      (c = .alarmAck t →
        (i ≤ 255 → (alarmSlot s t i).count ≠ (d 0).toNat → Completes c s fun s' =>
          MbTakes t mb 3 refusedMb s s' ∧ Same [.regs, .bus] s s') ∧
        (i ≤ 255 → (alarmSlot s t i).count = (d 0).toNat → Completes c s fun s' => MbTakes t mb 3 (.ok []) s s' ∧
          alarmSlot s' t i = {} ∧ (∀ u n, u * 256 + n ≠ t * 256 + i → alarmSlot s' u n = alarmSlot s u n) ∧
          Same [.regs, .bus, .trc] s s')) ∧
      (c = .timestampWrite ∨ c = .slew → i ≤ 2 → i ≠ 0 ∨ s.cal.following = true → Completes c s fun s' =>
        MbTakes 0 mb op refusedMb s s' ∧ Same [.regs, .bus] s s') ∧
      (c = .timestampWrite → i = 0 → s.cal.following = false → Completes c s fun s' =>
        s'.cal.sub = (d 0).toNat ∧ s'.cal.sec = (d 1).toNat + fld (d 2) 0 16 * 2 ^ 32 ∧ s'.cal.valid = true ∧ s'.cal.slewing = false ∧
        gf s' 0 mb 30 1 = 1 ∧ Tbl.get .running s'.bus.mb (key 0 mb) = .ok [] ∧ Same [.regs, .bus, .trc, .cal] s s') ∧
      (c = .slew → i = 0 → s.cal.following = false → Completes c s fun s' => MbTakes 0 mb 3 (.ok []) s s' ∧
        s'.cal.slewing = true ∧ s'.cal.slew = max (-4294967296) (min 4294967296 (signed 64 (pair (d 0) (d 1)))) ∧
        s'.cal.slewTicks = 0 ∧ s'.cal.sec = s.cal.sec ∧ s'.cal.sub = s.cal.sub ∧ Same [.regs, .bus, .cal] s s'))

/-- HOST_MEMORY_REQUEST on a host link that is down, or in a class whose credits the port withholds, changes nothing;
otherwise the link is in L0 after it. A malformed one is logged in PF 0 and answered with nothing. One that falls in
no BAR is answered Unsupported Request if it is non-posted. A read or write of the manager function's control space
goes to the management port of the addressed tile of the part; the host port itself answers zeros for a tile that is
not there. A request to BAR2 (a locked read of a legacy function among them) or BAR4 of a live instance that is
neither frozen, halted nor resetting goes to window resolution at its home tile, an aligned access to BAR0 to the
management port there; a non-posted one takes the lowest free inbound entry, which holds its tag and requester. One to
an instance that takes nothing is counted NOT_LIVE if it is a write and answered Completer Abort if it is not.
OUTPUT_ARBITRATION whose turn falls on such a frame for the management port: a read of one DW of the page's doorbell
or queue context area is answered with its word, and a write of one DW of a control register is posted into the
register's domain. (R3, R12, R22, R73, R74, R75, R88, R100, R108, R187, R230, R290) -/
def Obligations.HostRequestsFollowTheirTable : Prop :=
  (∀ (s : State) (r : Tlp), linkPresent s r.link = true →
    (hostUp s r.link = false ∨ creditHeld s r = true → exec (.hostMemoryRequest r) s = .next s) ∧
    (hostUp s r.link = true → creditHeld s r = false →
      let u := r.link / 4
      let a := r.addr.toNat / 4 * 4
      let l1 (s' : State) : Prop := hls s' r.link 24 4 = (if hls s r.link 24 4 = 6 then 5 else hls s r.link 24 4)
      let x := span r.dws r.fbe r.lbe;
      (∀ k, rowOneBit r = some k → Completes (.hostMemoryRequest r) s fun s' =>
        (fnExists s r.link 0 = true → cfgF s' r.link 0 0x104 k 1 = 1) ∧ RegsBut (at_ u (hptOf r.link 0)) s s' ∧
        Same [.regs, .host, .outbox, .fresh] s s') ∧
      (rowOneBit r = none →
      (barHit s r.link (a + x.1) = none → Completes (.hostMemoryRequest r) s fun s' =>
        (r.kind ≠ .write → ∃ l, s'.outbox = s.outbox ++ .cpl r.link r.rid r.tag 1 [] false r.rlx r.ns :: l) ∧ l1 s' ∧
        RegsBut (at_ u (hptOf r.link 0)) s s' ∧ Same [.regs, .host, .outbox, .fresh] s s') ∧
      (∀ f, barHit s r.link (a + x.1) = some (f, 0) → (fnRefOf (pfsOf s r.link) f).any (fun y => y.pf.manager) = true →
        recoveryShape s = false → r.kind = .read ∨ r.kind = .write →
        let off := a - barBase s r.link f 0;
        (off / 0x10000000 < s.part.tiles → r.kind = .write ∨ (freeInb s u).isSome = true → Completes (.hostMemoryRequest r) s fun s' =>
          SentOn s s' r f managerInst off 0 (off / 0x10000000) 10 a (4 * r.dws) true .control ∧ l1 s' ∧
          RegsBut (at_ u (hptOf r.link 0)) s s' ∧ Same [.regs, .swc, .brg, .host] s s') ∧
        (s.part.tiles ≤ off / 0x10000000 → r.kind = .read → r.dws = 1 → Completes (.hostMemoryRequest r) s fun s' =>
          s'.outbox = s.outbox ++ [.cpl r.link r.rid r.tag 0 [0, 0, 0, 0] false r.rlx r.ns] ∧ l1 s' ∧
          RegsBut (at_ u (hptOf r.link 0)) s s' ∧ Same [.regs, .outbox] s s')) ∧
      ∀ f b i, barHit s r.link (a + x.1) = some (f, b) → (fnRefOf (pfsOf s r.link) f).any (fun y => y.pf.manager) = false →
        boundInst s r.link f = some i → live s i = true →
        (r.kind = .lockedRead → b ≠ 0 ∧ (fnRefOf (pfsOf s r.link) f).any (fun y => y.pf.legacy && y.vf.isNone) = true) →
        let y := instOf s i
        let off := a - barBase s r.link f b;
        (b ≠ 0 → y.frozen = false → y.halted = false → y.resetting = false → r.kind = .write ∨ (freeInb s u).isSome = true →
          Completes (.hostMemoryRequest r) s fun s' =>
            SentOn s s' r f i off b (homeTile i) 12 (a + x.1) x.2 false .window ∧
            (r.kind = .write → ∃ p, s'.brg.posted = s.brg.posted ++ [p] ∧ p.serial = s.brg.serial ∧ p.inst = i ∧
              p.fromHost = some r.link ∧ p.resolved = false) ∧
            l1 s' ∧ RegsBut (at_ u (hptOf r.link 0)) s s' ∧ Same [.regs, .swc, .brg, .host] s s') ∧
        (b ≠ 0 → y.frozen = true ∨ y.halted = true ∨ y.resetting = true →
          (r.kind = .write → Completes (.hostMemoryRequest r) s fun s' =>
            gf s' u (hptOf r.link 0x10) 16 16 = (gf s u (hptOf r.link 0x10) 16 16 + 1) % 65536 ∧
            RegsBut (ats u [hptOf r.link 0, hptOf r.link 0x10]) s s' ∧ Same [.regs] s s') ∧
          (r.kind ≠ .write → Completes (.hostMemoryRequest r) s fun s' =>
            (∃ l, s'.outbox = s.outbox ++ .cpl r.link r.rid r.tag 4 [] false r.rlx r.ns :: l) ∧
            RegsBut (at_ u (hptOf r.link 0)) s s' ∧ Same [.regs, .host, .outbox, .fresh] s s')) ∧
        (b = 0 → r.kind = .read ∨ r.kind = .write →
          (accessBad (off + x.1) x.2 = none → r.kind = .write ∨ (freeInb s u).isSome = true → Completes (.hostMemoryRequest r) s fun s' =>
            SentOn s s' r f i off 0 (homeTile i) 10 a (4 * r.dws) false .page ∧ l1 s' ∧ RegsBut (at_ u (hptOf r.link 0)) s s' ∧
            Same [.regs, .swc, .brg, .host] s s') ∧
          (accessBad (off + x.1) x.2 ≠ none → Completes (.hostMemoryRequest r) s fun s' =>
            gf s' u (hptOf r.link 0x14) 16 16 = (gf s u (hptOf r.link 0x14) 16 16 + 1) % 65536 ∧
            (r.kind = .read → ∃ l, s'.outbox = s.outbox ++ .cpl r.link r.rid r.tag 4 [] false r.rlx r.ns :: l) ∧
            RegsBut (ats u [hptOf r.link 0, hptOf r.link 0x14]) s s' ∧ Same [.regs, .host, .outbox, .fresh] s s'))))) ∧
  ∀ (s : State) (t i c id : Nat) (q : Option (Nat × Nat)) (x : Stored) (r : HReq), t < s.part.tiles → TurnOf s t 17 i c id q x →
    x.f.mc = none → x.f.lack = 0 → x.f.pkt.isRsp = false → r.dws = 1 → r.off % 4 = 0 →
    (∀ u e, x.f.cargo = .page r → x.f.issuer = .inbound u e → r.kind = .read → r.off < 0x8000 → homeTile r.inst = t →
      Tbl.get [] s.bus.xq (xqKey t 17) = [] → Completes (.outputArbitration t 17 ⟨0, none⟩) s fun s' =>
        let k := (r.off - 0x4000) / 64
        let w := if 0x4000 ≤ r.off ∧ k < (instOf s r.inst).qCount then qw s t ((instOf s r.inst).qBase + k) (r.off % 64 / 4) else 0
        (∃ y, Tbl.get [] s'.swc.ingress (ingKey t 10 0) = Tbl.get [] s.swc.ingress (ingKey t 10 0) ++ [y] ∧ y.pkt.ty = .rspD ∧
          y.pkt.data = wordBytes w ∧ y.issuer = x.f.issuer ∧ y.dstTile = x.f.srcTile ∧ y.dstPort = x.f.srcPort ∧ y.dstSub = x.f.srcSub) ∧
        queueOf s' (qKey t 17 i c) = (queueOf s (qKey t 17 i c)).tail ∧ Same [.regs, .swc, .brg, .lode] s s') ∧
    (x.f.cargo = .control r → r.kind = .write → r.off / 0x10000000 = t → TileOpen s t → regThere s t (r.off % 0x10000000) = true →
      blockDomain (r.off % 0x10000000 / 0x1000000) ≠ 21 → Completes (.outputArbitration t 17 ⟨0, none⟩) s fun s' =>
        let off := r.off % 0x10000000
        s'.bus = (post s t (blockDomain (off / 0x1000000)) (.reg off r.fbe (wordOf (bytesAt r.data 0 4)))).bus ∧
        queueOf s' (qKey t 17 i c) = (queueOf s (qKey t 17 i c)).tail ∧ Same [.regs, .bus, .swc, .lode] s s')

/-- HOST_REQUEST_RESOLVE in a fenced tile, or with nothing waiting, changes nothing; a request whose inbound entry is gone
is dropped. In a tile whose ports are open in SERVICE, with no prefetch stream, a request stored in the shared account
whose output takes it: a write of whole DWs that resolves to a local port joins that output's Posted queue as one WR
with the translated address and its data, its record naming its slot; a read that resolves, with nothing it must wait
for, joins the Request queue as an RD for its bytes in the name of its inbound entry; a request whose resolution
stands goes so without being resolved again. A write refused for any cause but ECC is counted under that cause,
WTT_MISS_LAST shows cause, instance and window; a read so refused frees its entry and is answered Completer Abort. An
Unlock that finds its function's lock on a slot of this tile becomes the LOCK_END in that output's Control queue.
PREFETCH_AGE_EXPIRY, in a tile that is not fenced, ends a stream that holds data, counting DISCARDED, and changes
nothing where there is none. (R21, R113, R212, R213, R215, R217, R221, R223, R225, R228, R229, R230) -/
def Obligations.RequestsResolveAtTheHomeTile : Prop :=
  ∀ (s : State) (t : Nat) (e : WttRead), t < s.part.tiles →
    ((tileSt s t).fenced = true ∨ Tbl.get [] s.host.resolve t = [] → exec (.hostRequestResolve t e) s = .next s) ∧
    (∀ id hit rest x, (tileSt s t).fenced = false → Tbl.get [] s.host.resolve t = (id, hit) :: rest → storedOf s t id = some x → x.refs = 1 →
      (∀ r, x.f.cargo = .window r → entryHolds s r = false → Completes (.hostRequestResolve t e) s fun s' =>
        Tbl.get [] s'.host.resolve t = rest ∧ storedOf s' t id = none ∧ Same [.regs, .swc, .brg, .lode, .host] s s') ∧
      (x.acct = .shared → x.f.credit = none → acctFree s t .shared + x.cells < 2 ^ 18 →
        let queued (s' : State) (o cls : Nat) : Prop := Tbl.get [] s'.host.resolve t = rest ∧
          queueOf s' (qKey t o x.inPort cls) = queueOf s (qKey t o x.inPort cls) ++ [(s.swc.nextId, none)]
        (∀ r, x.f.cargo = .window r → entryHolds s r = true → r.inst / 512 = t → portsClosed s t = false → mode s t = 3 →
          s.wtt.streams = [] →
          let g := (instOf s r.inst).gen
          (∀ h, hit = some h ∨ (hit = none ∧ resolve s r.inst r.bar r.off r.kind e = .ok h) →
            (r.kind = .write → 0 < r.dws → enables r.dws r.fbe r.lbe = List.replicate (4 * r.dws) true → h.group = none →
              let fr := r.frame g x.f.serial h .wr 0 (h.addr % 2 ^ 64) (4 * r.dws) (bytesAt r.data 0 (4 * r.dws))
              let o := outOf s t fr
              outUp s t o = true → (4 ≤ o → o < 12 → lockEnded s t (o - 4) fr = false) → fr.pkt.cells ≤ acctFree s t .shared →
              Completes (.hostRequestResolve t e) s fun s' =>
                queued s' o 0 ∧ (∃ y, storedOf s' t s.swc.nextId = some y ∧ y.f.pkt.ty = .wr ∧ y.f.pkt.inst = r.inst ∧ y.f.pkt.gen = g ∧
                  y.f.pkt.addr = h.addr % 2 ^ 64 ∧ y.f.pkt.data = bytesAt r.data 0 (4 * r.dws) ∧ y.f.serial = x.f.serial ∧
                  y.f.dstTile = h.port / 4 ∧ y.f.dstPort = 1 + h.port % 4 ∧ y.f.dstSub = h.sub) ∧
                (∀ p ∈ s'.brg.posted, p.serial = x.f.serial → p.resolved = true ∧
                  p.toSlot = some (slotKey (h.port / 4) (2 * (h.port % 4) + h.sub))) ∧
                Same [.regs, .trc, .swc, .brg, .host] s s') ∧
            (r.kind = .read → r.zeroLen = false → mcBefore s r.inst r.link = [] → s.brg.holds = [] →
              let fr := r.out g x.f.serial h
              let o := outOf s t fr
              outUp s t o = true → (4 ≤ o → o < 12 → lockEnded s t (o - 4) fr = false) → fr.pkt.cells ≤ acctFree s t .shared →
              Completes (.hostRequestResolve t e) s fun s' =>
                queued s' o 1 ∧ (∃ y, storedOf s' t s.swc.nextId = some y ∧ y.f.pkt.ty = .rd ∧ y.f.pkt.inst = r.inst ∧
                  y.f.pkt.addr = (h.addr + (span r.dws r.fbe r.lbe).1) % 2 ^ 64 ∧ y.f.pkt.len = lenField (span r.dws r.fbe r.lbe).2 ∧
                  y.f.issuer = r.issuer ∧ y.f.dstTile = h.port / 4 ∧ y.f.dstPort = 1 + h.port % 4 ∧ y.f.dstSub = h.sub) ∧
                Same [.regs, .trc, .swc, .host] s s')) ∧
          (∀ cause win, hit = none → resolve s r.inst r.bar r.off r.kind e = .error (cause, win) → cause ≠ 6 → e.descBad = false →
            e.entryBad = false → r.inst < 4096 → win.getD 0 < 64 →
            (r.kind = .write → x.f.pkt.ty = .wr → x.f.issuer = .nobody → Completes (.hostRequestResolve t e) s fun s' =>
              (let m := missCount cause; gf s' t m.1 m.2.1 16 = (gf s t m.1 m.2.1 16 + 1) % 65536) ∧
              fld (rreg s' t 0x4000010) 28 4 = cause % 16 ∧ fld (rreg s' t 0x4000010) 0 12 = r.inst ∧
              fld (rreg s' t 0x4000010) 18 1 = b2n win.isSome ∧ fld (rreg s' t 0x4000010) 12 6 = win.getD 0 ∧
              gf s' t 0x4000020 16 16 = (gf s t 0x4000020 16 16 + e.corrected) % 65536 ∧
              Tbl.get [] s'.host.resolve t = rest ∧ storedOf s' t id = none ∧ Same [.regs, .brg, .swc, .wtt, .trc, .host] s s') ∧
            (∀ u k b, r.kind = .read → x.f.pkt.ty = .rd → x.f.locked = none → x.f.issuer = .inbound u k → r.entry = some (u, k) →
              Tbl.get none s.host.inb (u * 1024 + k) = some b → Completes (.hostRequestResolve t e) s fun s' =>
                Tbl.get none s'.host.inb (u * 1024 + k) = none ∧
                (∃ l, s'.outbox = s.outbox ++ .cpl b.link b.rid b.tag 4 [] false false false :: l) ∧ storedOf s' t id = none ∧
                Same [.regs, .brg, .swc, .wtt, .trc, .host, .outbox, .fresh] s s'))) ∧
        (∀ h f n l i, x.f.cargo = .unlock h f → n < 8 → s.lode.locks = [(t * 8 + n, l)] → l.holder = some (i, fnKey h f) →
          linkAlive s t n = true → 1 ≤ acctFree s t .shared → Completes (.hostRequestResolve t e) s fun s' =>
            queued s' (4 + n) 3 ∧ (∃ y, storedOf s' t s.swc.nextId = some y ∧ y.f.pkt.ty = .lockEnd ∧ y.f.pkt.inst = i ∧
              y.f.dstTile = t ∧ y.f.dstPort = 1 + n / 2 ∧ y.f.dstSub = n % 2) ∧
            (∀ k ∈ (lockSt s' t n).ended, k ≠ fnKey h f) ∧ Same [.regs, .trc, .swc, .brg, .lode, .host] s s'))) ∧
    ∀ k, k < 256 →
      (streamOf s t k = none → exec (.prefetchAgeExpiry t k) s = .next s) ∧
      (∀ x, streamOf s t k = some x →
        ((∀ p ∈ x.parts, p.data = none) ∨ (tileSt s t).fenced = true → exec (.prefetchAgeExpiry t k) s = .next s) ∧
        ((∃ p ∈ x.parts, p.data.isSome = true ∧ p.len ≠ 0) → (tileSt s t).fenced = false → Completes (.prefetchAgeExpiry t k) s fun s' =>
          streamOf s' t k = none ∧ gf s' t 0x4000018 16 16 = (gf s t 0x4000018 16 16 + 1) % 65536 ∧
          Tbl.get [] s'.host.resolve t = x.waiters.map (fun w => (w.1, some w.2)) ++ Tbl.get [] s.host.resolve t ∧
          Same [.regs, .trc, .host, .wtt] s s'))

/-- Of commands that reach their register: while BUSY both change nothing. With an instance of another tile they end at
once with RESULT 1, with a FREE one at once with RESULT 0. Else BUSY is set with OP and instance, and the command
runs; FENCE first discards the instance's prefetch streams. FENCE_COMPLETE ends it with RESULT 0, BUSY 0 and CMD_DONE
once no posted write, no read and no read-ahead it waits for is left, and changes nothing before; what was not
resolved when it was accepted it does not wait for. In a fenced tile neither ends. RESTAMP_COMPLETE with the
generation unchanged leaves every descriptor of the instance's range with that generation and every valid entry of its
range too, changes no other field of them, and ends with RESULT 0; with the generation changed it ends with RESULT 2.
With no command of theirs running they change nothing. (R221, R213) -/
def Obligations.FenceAndRestampRunToTheirEnd : Prop :=
  ∀ (s : State) (t : Nat), t < s.part.tiles →
    let ends (s' : State) (res : Nat) : Prop := gf s' t 0x4000000 31 1 = 0 ∧ gf s' t 0x4000000 28 2 = res ∧
      wttRun s' t = none;
    (∀ (c : Instr) (op : Nat) (i : BitVec 12), (c = .fence t i ∧ op = 1) ∨ (c = .restamp t i ∧ op = 2) → Heard s c →
      (gf s t 0x4000000 31 1 = 1 → exec c s = .next s) ∧
      (gf s t 0x4000000 31 1 = 0 →
        (∀ res, (i.toNat / 512 ≠ t ∧ res = 1) ∨ (i.toNat / 512 = t ∧ (instOf s i.toNat).state = .free ∧ res = 0) →
          Completes c s fun s' => ends s' res ∧ gf s' t 0x4000000 24 4 = op ∧ gf s' t 0x4000000 0 12 = i.toNat ∧
            s'.wtt.wins = s.wtt.wins ∧ s'.wtt.ents = s.wtt.ents ∧ Same [.regs, .trc, .wtt] s s') ∧
        (i.toNat / 512 = t → (instOf s i.toNat).state ≠ .free → Completes c s fun s' =>
          gf s' t 0x4000000 31 1 = 1 ∧ gf s' t 0x4000000 24 4 = op ∧ gf s' t 0x4000000 0 12 = i.toNat ∧
          (∃ r, wttRun s' t = some r ∧ r.op = op ∧ r.inst = i.toNat ∧ r.gen = (instOf s i.toNat).gen ∧
            (op = 1 → ∀ p ∈ s.brg.posted, p.inst = i.toNat → p.resolved = true → p.fromHost.isSome = true ∨ p.fromSlot.isSome = true →
              p.serial ∈ r.waits)) ∧
          s'.wtt.wins = s.wtt.wins ∧ s'.wtt.ents = s.wtt.ents ∧ Same [.regs, .trc, .host, .wtt] s s'))) ∧
    ((tileSt s t).fenced = true ∨ wttRun s t = none → exec (.fenceComplete t) s = .next s ∧ exec (.restampComplete t) s = .next s) ∧
    (∀ r, (tileSt s t).fenced = false → wttRun s t = some r → r.op = 1 →
      let left := (∃ p ∈ s.brg.posted, p.serial ∈ r.waits) ∨ (∃ x ∈ r.reads, readPending s x = true) ∨
        (∃ a ∈ s.wtt.ahead, a.1 ∈ r.aheads);
      (left → exec (.fenceComplete t) s = .next s) ∧
      (¬ left → Completes (.fenceComplete t) s fun s' => ends s' 0 ∧ s'.wtt.wins = s.wtt.wins ∧ s'.wtt.ents = s.wtt.ents ∧
        Same [.regs, .trc, .wtt] s s')) ∧
    (∀ r, (tileSt s t).fenced = false → wttRun s t = some r → r.op = 2 → r.inst / 512 = t →
      let y := instOf s r.inst
      (y.gen ≠ r.gen → Completes (.restampComplete t) s fun s' => ends s' 2 ∧ Same [.regs, .trc, .wtt, .fresh] s s') ∧
      (y.gen = r.gen → Completes (.restampComplete t) s fun s' => ends s' 0 ∧
          (∀ n, n < 8192 → winWords s' t n = (if y.wBase ≤ n ∧ n < y.wBase + y.wCount then
            (winWords s t n).set 1 (setFld ((winWords s t n).getD 1 0) 24 8 r.gen) else winWords s t n)) ∧
          (∀ n, n < 2097152 → entWords s' t n = (if y.wttBase ≤ n ∧ n < y.wttBase + y.wttCount ∧
              bit ((entWords s t n).getD 0 0) 31 = true then
            (entWords s t n).set 1 (setFld ((entWords s t n).getD 1 0) 24 8 r.gen) else entWords s t n)) ∧
          Same [.regs, .trc, .wtt] s s'))

/-- HOLD_RELEASE of a hold that is not there or has not ended changes nothing. A frame whose hold has ended joins the
arrivals of its port; a vector joins those that are due; an event acts on its line; a request goes back to the front
of its home tile's resolution, its resolution standing; the hold is gone. A hold has ended when no posted frame it
waits for is left (or, where that is enough, each has left) and no earlier hold of its path is left.
ZERO_LENGTH_READ_COMPLETE, in a fenced tile or where no zero-length read at the head of a Request queue of the slot
has ended, changes nothing; where one has, because no earlier Posted frame of its path is queued or unacknowledged and
no other instance holds the lock of the port, it leaves its queue, is answered with four bytes of zero, and its
inbound entry is free. (R224, R228, R229, R242) -/
def Obligations.HoldsReleaseInOrder : Prop :=
  (∀ (s : State) (id : Nat),
    (s.brg.holds.find? (fun h => h.id == id) = none → exec (.holdRelease id) s = .next s) ∧
    ∀ h, s.brg.holds.find? (fun h => h.id == id) = some h →
      let ended := (∀ p ∈ s.brg.posted, p.serial ∈ h.waits → h.sentOk = true ∧ p.sent = true) ∧
        (∀ g ∈ s.brg.holds, g.id < id → sameHold g.item h.item = false)
      let gone (s' : State) : Prop := s'.brg.holds = s.brg.holds.filter (fun g => g.id != id);
      (¬ ended → exec (.holdRelease id) s = .next s) ∧
      (ended →
        (∀ t p f, h.item = .frame t p f → Completes (.holdRelease id) s fun s' => gone s' ∧
          (let k := ingKey f.srcTile f.srcPort f.srcSub; Tbl.get [] s'.swc.ingress k = Tbl.get [] s.swc.ingress k ++ [f]) ∧
          Same [.swc, .brg] s s') ∧
        (∀ i v, h.item = .vector i v → Completes (.holdRelease id) s fun s' => gone s' ∧ s'.evc.vecDue = s.evc.vecDue ++ [(i, v)] ∧
          Same [.evc, .brg] s s') ∧
        (∀ t j hit i l, h.item = .request t j hit i l → Completes (.holdRelease id) s fun s' => gone s' ∧
          Tbl.get [] s'.host.resolve t = (j, some hit) :: Tbl.get [] s.host.resolve t ∧ Same [.host, .brg] s s') ∧
        (∀ t n p, h.item = .event t n p → p.opx = 0 → srcLevel s t (20480 + n * 256 + p.addr % 256) = true →
          Completes (.holdRelease id) s fun s' => gone s' ∧
            Tbl.find? s'.evc.lines ((t * 8 + n) * 256 + p.addr % 256) = some () ∧ Same [.regs, .evc, .brg] s s'))) ∧
  ∀ (s : State) (t n : Nat), t < s.part.tiles → n < 8 →
    ((tileSt s t).fenced = true ∨
        (∀ i id q x, i < 12 → headOf s t (4 + n) i 1 = some (id, q, x) → zeroEnded s t n i id x.f = false) →
      exec (.zeroLengthReadComplete t n) s = .next s) ∧
    ∀ i id q x u e b, (tileSt s t).fenced = false → i < 12 → headOf s t (4 + n) i 1 = some (id, q, x) → x.f.cargo = .zeroRead →
      orderAllows s t (4 + n) i id x.f = true → (gf s t (ltp n 0xC) 31 1 = 0 ∨ x.f.pkt.glob = false ∧ gf s t (ltp n 0xC) 0 12 = x.f.pkt.inst) →
      (∀ p ∈ s.brg.posted, p.inst = x.f.pkt.inst → p.toSlot = some (slotKey t n) → p.fromHost = some (4 * x.f.srcTile + x.f.srcSub) →
        x.f.serial ≤ p.serial) →
      (∀ j id q x, j < 12 → j ≠ i → headOf s t (4 + n) j 1 = some (id, q, x) → x.f.cargo ≠ .zeroRead) →
      x.f.issuer = .inbound u e → Tbl.get none s.host.inb (u * 1024 + e) = some b →
      Completes (.zeroLengthReadComplete t n) s fun s' =>
        queueOf s' (qKey t (4 + n) i 1) = (queueOf s (qKey t (4 + n) i 1)).tail ∧ Tbl.get none s'.host.inb (u * 1024 + e) = none ∧
        s'.outbox = s.outbox ++ [.cpl b.link b.rid b.tag 0 [0, 0, 0, 0] false false false] ∧
        Same [.regs, .swc, .brg, .lode, .host, .wtt, .outbox] s s'

/-- A driver's write to the page of an instance bound to no function changes nothing; of one bound and not live it is
discarded and counted, as is one to a slot beyond the instance's queues. Where it reaches the page (DOORBELL_WRITE of
a DW, INLINE_DOORBELL of 64 bytes): a doorbell of a queue that is DISABLED or RESETTING, or of a RESETTING instance,
sets DB_DROPPED and is recorded in DMA_Q_LAST by kind and queue; a host ring's sets TAIL to a value below its size; a
local ring's ends its poll wait; a whole 64-byte write with one present descriptor puts it at TAIL of an inline store
that has room, TAIL advancing. QUEUE_ENABLE, QUEUE_RESUME, QUEUE_SKIP and QUEUE_RESET change nothing while BUSY; of a
FROZEN, HALTED or RESETTING instance, or from a state their row does not allow, they end with WRONG_STATE. ENABLE of a
DISABLED queue runs it, or ends with BAD_CONFIG, or with NO_SPACE where its inline reservation does not fit beside the
others'. RESUME and SKIP run a HALTED one: RESUME with its failed descriptor first, from its failing element on, or
unstarted again where its aperture check failed; SKIP past a failed fetch, or with an entry of the elements written.
RESET makes the queue RESETTING with nothing fetched or stored, and QUEUE_RESET_COMPLETE, once nothing is outstanding,
DISABLED with its state words at reset and its reservation released. CPL_HEAD_WRITE records an index below the ring
size and ignores any other. LOCAL_RING_POLL ends a poll wait with a fetch at HEAD. (R53, R73, R246, R247, R248, R249,
R251, R252, R253, R260, R280) -/
def Obligations.QueuesTakeTheirDriversWrites : Prop :=
  (∀ (s : State) (i n off : Nat) (be : BitVec 4) (v : Word) (l : List Bool) (b : List Byte), i < 512 * s.part.tiles →
    ∀ c ∈ [Instr.doorbellWrite i n off be v, .inlineDoorbell i n l b],
      (instLink s i = none → exec c s = .next s) ∧ (∀ h, instLink s i = some h → live s i = false → Discards s c h 16) ∧
      (∀ h, instLink s i = some h → PageReaches s i 17 → (instOf s i).qCount ≤ n → Discards s c h 0)) ∧
  (∀ (s : State) (i n : Nat), PageReaches s i 17 → n < (instOf s i).qCount → (instOf s i).qBase + n < 16384 →
      let t := i / 512
      let q := (instOf s i).qBase + n
      let dropped (kind : Nat) (s' : State) : Prop := qf s' t q 0 19 1 = 1 ∧ rreg s' t 0x500000C = word (kind * 2 ^ 28 + q) ∧
        (let lo := if kind = 1 ∨ kind = 5 then 16 else 0; gf s' t 0x5000000 lo 16 = (gf s t 0x5000000 lo 16 + 1) % 65536) ∧
        WordsBut t q [0] s s' ∧ Same [.regs, .trc, .dma] s s'
      (∀ kind c, (doorbellShut s i t q = some kind) →
        ((∃ off be v, c = Instr.doorbellWrite i n off be v ∧ (qKind s t q = 0 → off = 0)) ∨ (∃ l b, c = Instr.inlineDoorbell i n l b)) →
        Completes c s (dropped kind)) ∧
      (∀ off be v, qKind s t q = 0 → off ≠ 0 → exec (.doorbellWrite i n off be v) s = .next s) ∧
      (doorbellShut s i t q = none →
        (∀ v c, (c = .doorbellWrite i n 0 15 v ∨ ∃ l b, c = .inlineDoorbell i n (true :: true :: l) b ∧ leAt b 0 2 = fld v 0 16) →
          qKind s t q = 0 →
          (fld v 0 16 < qSize s t q → Completes c s fun s' => qTail s' t q = fld v 0 16 ∧
            BitsBut 16 16 (qw s t q 1) (qw s' t q 1) ∧ WordsBut t q [1] s s' ∧ Same [.dma] s s') ∧
          (qSize s t q ≤ fld v 0 16 → Completes c s (dropped 2)) ∧
          Completes (.doorbellWrite i n 0 1 v) s (dropped 6)) ∧
        (∀ off be v l b, qKind s t q = 1 → ∀ c ∈ [Instr.doorbellWrite i n off be v, .inlineDoorbell i n l b], Completes c s fun s' =>
          eng s' t q = { eng s t q with pollWait := false } ∧ EnginesBut t q s s' ∧ s'.dma.qctx = s.dma.qctx ∧ Same [.dma] s s') ∧
        (∀ off be v, 2 ≤ qKind s t q → Completes (.doorbellWrite i n off be v) s (dropped 3)) ∧
        (∀ l b, 2 ≤ qKind s t q → l.length < 64 ∨ false ∈ l → Completes (.inlineDoorbell i n l b) s (dropped 3)) ∧
        (∀ b, 2 ≤ qKind s t q → 128 ≤ leAt b 3 1 → leAt b 35 1 < 128 →
          let used := (qTail s t q + qSize s t q - qHead s t q) % qSize s t q
          (qSize s t q - 1 < used + 1 → Completes (.inlineDoorbell i n (List.replicate 64 true) b) s (dropped 4)) ∧
          (used + 1 ≤ qSize s t q - 1 → qTail s t q < 65535 → Completes (.inlineDoorbell i n (List.replicate 64 true) b) s fun s' =>
            Tbl.find? (eng s' t q).store (qTail s t q) = some (bytesAt b 0 32) ∧
            qTail s' t q = (if qTail s t q + 1 = qSize s t q then 0 else qTail s t q + 1) ∧
            WordsBut t q [1] s s' ∧ EnginesBut t q s s' ∧ Same [.dma] s s')))) ∧
  (∀ (s : State) (t q : Nat), t < s.part.tiles → q < 16384 →
    let cmds : List Instr := [.queueEnable t q, .queueResume t q, .queueSkip t q, .queueReset t q]
    (∀ be v, ∀ c ∈ cmds ++ [.cplHeadWrite t q be v],
      (qOwner s t q = none → exec c s = .next s) ∧
      ∀ i, qOwner s t q = some i → (instLink s i = none → exec c s = .next s) ∧
        ∀ h, instLink s i = some h → live s i = false → Discards s c h 16) ∧
    ((∃ i, qOwner s t q = some i ∧ PageReaches s i 17) →
    (qf s t q 0 17 1 = 1 → ∀ c ∈ cmds, exec c s = .next s) ∧
    (qf s t q 0 17 1 = 0 →
      let ends (res : Nat) (s' : State) : Prop := qf s' t q 0 24 4 = res ∧ qState s' t q = qState s t q ∧
        BitsBut 24 4 (qw s t q 0) (qw s' t q 0) ∧ WordsBut t q [0] s s' ∧ s'.dma.eng = s.dma.eng ∧ Same [.dma] s s'
      (limited s t q = true → ∀ c ∈ cmds, Completes c s (ends 1)) ∧
      (limited s t q = false →
        (qState s t q ≠ 0 → Completes (.queueEnable t q) s (ends 1)) ∧
        (qState s t q ≠ 2 → Completes (.queueResume t q) s (ends 1) ∧ Completes (.queueSkip t q) s (ends 1)) ∧
        (qState s t q = 3 → Completes (.queueReset t q) s (ends 1)) ∧
        (qState s t q = 0 → badConfig s t q = true → Completes (.queueEnable t q) s (ends 2)) ∧
        (qState s t q = 0 → badConfig s t q = false → qKind s t q ≠ 2 → Completes (.queueEnable t q) s fun s' =>
          qState s' t q = 1 ∧ qf s' t q 0 24 4 = 0 ∧ BitsBut 24 8 (qw s t q 0) (qw s' t q 0) ∧ WordsBut t q [0] s s' ∧
          s'.dma.eng = s.dma.eng ∧ Same [.dma] s s') ∧
        (qState s t q = 0 → badConfig s t q = false → qKind s t q = 2 →
          let use := gf s t 0x5000004 0 15 - (eng s t q).held + qSize s t q
          (16384 < use → Completes (.queueEnable t q) s (ends 3)) ∧
          (use ≤ 16384 → Completes (.queueEnable t q) s fun s' => qState s' t q = 1 ∧ gf s' t 0x5000004 0 15 = use ∧
            eng s' t q = { eng s t q with held := qSize s t q } ∧ EnginesBut t q s s' ∧
            WordsBut t q [0] s s' ∧ RegsBut (at_ t 0x5000004) s s' ∧ Same [.regs, .dma] s s')) ∧
        (qState s t q = 2 → Completes (.queueResume t q) s fun s' => qState s' t q = 1 ∧ qf s' t q 0 24 4 = 0 ∧
          ((eng s t q).halted = none → s'.dma.eng = s.dma.eng) ∧
          (∀ r k, (eng s t q).halted = some (r, k) → (eng s' t q).halted = none ∧
            (qf s t q 11 28 4 ≠ 2 → ∃ r', (eng s' t q).runs = r' :: (eng s t q).runs ∧
              r'.d = r.d ∧ r'.first = k ∧ r'.readTo = k * r.d.sw ∧ r'.wroteTo = k * r.d.dw ∧ r'.reads = [] ∧ r'.writes = []) ∧
            (qf s t q 11 28 4 = 2 → (eng s' t q).runs = (eng s t q).runs ∧
              (qKind s t q ≠ 2 → (eng s' t q).fetched = r.d :: (eng s t q).fetched) ∧
              (qKind s t q = 2 → qHead s' t q = r.d.idx % 65536 ∧ (Tbl.find? (eng s' t q).store r.d.idx).isSome = true))) ∧
          WordsBut t q [0] s s' ∧ EnginesBut t q s s' ∧ Same [.dma] s s') ∧
        (qState s t q = 2 → ∀ r k, (eng s t q).halted = some (r, k) → Completes (.queueSkip t q) s fun s' =>
          let free := r.entry || decide (0 < cplFree s t q)
          qState s' t q = 1 ∧ qf s' t q 0 24 4 = 0 ∧ qf s' t q 0 18 1 = (if free then qf s t q 0 18 1 else 1) ∧
          eng s' t q = { eng s t q with halted := none, skipped := some (⟨r.d.idx, r.d.cookie, 1, k, bit r.d.ctrl 29⟩, free) } ∧
          WordsBut t q [0] s s' ∧ EnginesBut t q s s' ∧ Same [.dma] s s') ∧
        (qState s t q = 2 → (eng s t q).halted = none → Completes (.queueSkip t q) s fun s' =>
          qState s' t q = 1 ∧ qf s' t q 0 24 4 = 0 ∧ qHead s' t q = (if qf s t q 11 28 4 ≠ 3 then qHead s t q else
            if qHead s t q + 1 = qSize s t q then 0 else (qHead s t q + 1) % 65536) ∧
          WordsBut t q [0] s s' ∧ s'.dma.eng = s.dma.eng ∧ Same [.dma] s s') ∧
        (qState s t q ≠ 3 → Completes (.queueReset t q) s fun s' => qState s' t q = 3 ∧ qf s' t q 0 17 1 = 1 ∧
          eng s' t q = { eng s t q with
            fetched := [], fetch := [], fetchN := 0, store := [], skipped := none, failed := none, settling := false, stop := none } ∧
          WordsBut t q [0] s s' ∧ EnginesBut t q s s' ∧ RegsBut (at_ t 0x500020C) s s' ∧ Same [.regs, .dma] s s'))) ∧
    (∀ be v, let x := fld (mergeBytes (qw s t q 8) be v) 0 16
      (cplSize s t q ≤ x → exec (.cplHeadWrite t q be v) s = .next s) ∧
      (x < cplSize s t q → Completes (.cplHeadWrite t q be v) s fun s' => qw s' t q 8 = word x ∧
        BitsBut 18 1 (qw s t q 0) (qw s' t q 0) ∧ WordsBut t q [0, 8] s s' ∧ EnginesBut t q s s' ∧ Same [.dma] s s'))) ∧
    ((tileSt s t).fenced = true ∨ qState s t q ≠ 3 ∨ queueOutstanding s t q = true → exec (.queueResetComplete t q) s = .next s) ∧
    ((tileSt s t).fenced = false → qState s t q = 3 → queueOutstanding s t q = false → Completes (.queueResetComplete t q) s fun s' =>
      qw s' t q 0 = setBit 0x00010000 19 (bit (qw s t q 0) 19) ∧ qTail s' t q = 0 ∧ qw s' t q 7 = 0x80000000 ∧
      (∀ n ∈ [8, 9, 10, 11], qw s' t q n = 0) ∧ gf s' t 0x5000004 0 15 = gf s t 0x5000004 0 15 - (eng s t q).held ∧
      eng s' t q = {} ∧ WordsBut t q [0, 1, 7, 8, 9, 10, 11] s s' ∧ EnginesBut t q s s' ∧
      RegsBut (ats t [0x5000004, 0x500020C]) s s' ∧ Same [.regs, .dma] s s') ∧
    ((tileSt s t).fenced = true ∨ (eng s t q).pollWait = false → exec (.localRingPoll t q) s = .next s) ∧
    ((tileSt s t).fenced = false → (eng s t q).pollWait = true →
      exec (.localRingPoll t q) s = exec (.descriptorFetch t q) (setEng s t q { eng s t q with pollWait := false }) ∧
      (mayStart s t q = none → Completes (.localRingPoll t q) s fun s' => eng s' t q = { eng s t q with pollWait := false } ∧
        EnginesBut t q s s' ∧ s'.dma.qctx = s.dma.qctx ∧ Same [.dma] s s')))

/-- With BUSY 1 nothing changes; with BUSY 0 an index at or above 16,384 ends with BAD_INDEX. DMA_QCTX_WRITE of a queue
that is not DISABLED, or with an aperture at a port that does not exist, is REFUSED; else every writable word takes
its data word, clamped as its registers are, and the error words clear. SET_SHARE replaces Q_SHARE alone. QCTX_COMMAND
does to the queue what the driver's command of that number does where no limit of its instance stands against it, and
nothing for a number that is no command. (R84, R246, R261, R277) -/
def Obligations.ManagersSetQueueContexts : Prop :=
  ∀ (s : State) (t : Nat) (c : Instr) (op : Nat), t < s.part.tiles →
    (c = .dmaQctxWrite t ∧ op = 2) ∨ (c = .setShare t ∧ op = 3) ∨ (c = .qctxCommand t ∧ op = 4) →
    Heard s c →
    let mb := 0x5000100
    let q := mbIndex s t mb
    let d := mbData s t mb
    (gf s t mb 30 1 = 1 → exec c s = .next s) ∧
    (gf s t mb 30 1 = 0 → 16384 ≤ q → Completes c s fun s' => MbTakes t mb op badIndex s s' ∧ Same [.regs, .bus] s s') ∧
    (gf s t mb 30 1 = 0 → q < 16384 →
      (op = 2 → qState s t q ≠ 0 ∨ localExists s (fld (d 15) 27 5) (fld (d 15) 26 1) = false → Completes c s fun s' =>
        MbTakes t mb op refusedMb s s' ∧ Same [.regs, .bus] s s') ∧
      (op = 2 → qState s t q = 0 → localExists s (fld (d 15) 27 5) (fld (d 15) 26 1) = true → Completes c s fun s' =>
        MbTakes t mb op (.ok []) s s' ∧ qState s' t q = 0 ∧ qHead s' t q = fld (d 0) 0 16 ∧ qf s' t q 0 16 1 = fld (d 0) 16 1 ∧
        qTail s' t q = fld (d 1) 16 16 ∧ qw s' t q 2 = d 2 &&& 0xFFFFFFC0#32 ∧ qw s' t q 3 = d 3 ∧ qw s' t q 4 = clampQCfg (d 4) ∧
        qw s' t q 5 = d 5 &&& 0xFFFFFFC0#32 ∧ qw s' t q 6 = d 6 ∧ qw s' t q 7 = d 7 &&& 0x8000FFFF#32 ∧
        qf s' t q 8 0 16 = (if fld (d 8) 0 16 < 2 ^ fld (clampQCfg (d 4)) 8 5 then fld (d 8) 0 16 else qf s t q 8 0 16) ∧
        (∀ n ∈ [9, 10, 11], qw s' t q n = 0) ∧ qw s' t q 12 = d 12 &&& 0x3FFFF#32 ∧ qw s' t q 13 = d 13 &&& 0x800FFFFF#32 ∧
        qw s' t q 14 = d 14 ∧ qf s' t q 15 26 6 = fld (d 15) 26 6 ∧
        qf s' t q 15 0 24 = Nat.min (fld (d 15) 0 24) (2 ^ 32 - (d 14).toNat) ∧
        s'.dma.eng = s.dma.eng ∧ WordsBut t q (List.range 16) s s' ∧ Same [.regs, .bus, .dma] s s') ∧
      (op = 3 → Completes c s fun s' => MbTakes t mb op (.ok []) s s' ∧ qw s' t q 12 = d 12 &&& 0x3FFFF#32 ∧
        WordsBut t q [12] s s' ∧ s'.dma.eng = s.dma.eng ∧ Same [.regs, .bus, .dma] s s') ∧
      (op = 4 → ∀ k x, (k, x) ∈ [(1, Instr.queueEnable t q), (2, .queueResume t q), (3, .queueSkip t q), (4, .queueReset t q)] →
        fld (d 1) 0 4 = k → limited s t q = false → (∃ i, qOwner s t q = some i ∧ PageReaches s i 17) → Completes c s fun s' => Completes x s fun s1 =>
          s'.dma = s1.dma ∧ gf s' t mb 30 1 = 1 ∧ Tbl.get .running s'.bus.mb (key t mb) = .ok [] ∧ Same [.regs, .bus, .dma] s s') ∧
      (op = 4 → fld (d 1) 0 4 = 0 ∨ 5 ≤ fld (d 1) 0 4 → Completes c s fun s' => MbTakes t mb op (.ok []) s s' ∧ Same [.regs, .bus] s s'))

/-- In a fenced tile, or for a queue that may not run, DESCRIPTOR_FETCH and DESCRIPTOR_START change nothing. A fetch of a
queue that has something to fetch, tags and a read port that holds nothing back issues its reads from the read
engine's port, split as reads are, each under a free tag, to the host link or to the aperture's port; with too few
tags, or a frame waiting at the port, it waits. DMA_READ_DATA with its data ends it: the descriptors are taken, HEAD
advancing; a local ring's first that does not match starts the poll wait; a failing status or poisoned data leaves the
queue with cause FETCH, the status and the ring address. A start takes the next descriptor, fetched or from the inline
store, records the class and the weights in force, and reserves its completion entry; one that wants an entry while
the completion ring is full sets CPL_WAIT and waits; one whose local span leaves the aperture is not started.
COMPLETION_ENTRY_WRITE with nothing started, or while the write port holds a frame back, writes nothing; with the
oldest descriptor complete and an entry wanted, or a skipped one's entry reserved, its 16 bytes leave for the
completion ring at CPL_TAIL, which advances, PHASE toggling at the wrap, poisoned data showing as status 2. QUEUE_HALT
of a queue not RUNNING, or while a settle period has requests out, changes nothing. A settle period that ends finds
the failing descriptor and element; once what comes before it is written the queue halts with that descriptor held and
the later ones unstarted; an aperture or fetch failure halts it once nothing is started, a refused completion entry at
once. (R187, R246, R250, R251, R254, R256, R258, R259, R260, R271, R278, R280) -/
def Obligations.DescriptorsAreFetchedStartedAndCompleted : Prop :=
  ∀ (s : State) (t q : Nat), t < s.part.tiles → q < 16384 →
    let e := eng s t q
    let cmds : List Instr := [.descriptorFetch t q, .descriptorStart t q]
    let only (s' : State) : Prop := EnginesBut t q s s' ∧ Same [.regs, .dma] s s'
    ((tileSt s t).fenced = true → ∀ c ∈ cmds ++ [.completionEntryWrite t q, .queueHalt t q], exec c s = .next s) ∧
    (mayStart s t q = none → ∀ c ∈ cmds, exec c s = .next s) ∧
    (mayFetch s t q = false ∨ fetchCount s t q = 0 → exec (.descriptorFetch t q) s = .next s) ∧
    ((tileSt s t).fenced = false →
    (∀ i, mayStart s t q = some i → mayFetch s t q = true → fetchCount s t q ≠ 0 →
      let l := fetchReads s t q i
      let a := ringAddr s t q + 32 * qHead s t q
      (slotsFor s t q = 0 → Completes (.descriptorFetch t q) s fun s' => s'.dma = s.dma ∧ Same [.regs, .trc] s s') ∧
      (slotsFor s t q ≠ 0 → 4096 < gf s t 0x5000208 0 13 + l.length ∨ engineWaits s t 8 1 = true →
        exec (.descriptorFetch t q) s = .next s) ∧
      (slotsFor s t q ≠ 0 → gf s t 0x5000208 0 13 + l.length ≤ 4096 → engineWaits s t 8 1 = false →
        (∃ free : List Nat, free.Nodup ∧ free.length = l.length ∧ ∀ x ∈ free, x < 4096 ∧ Tbl.get none s.dma.tags (t * 4096 + x) = none) →
        Completes (.descriptorFetch t q) s fun s' =>
          (eng s' t q).fetchN = Nat.min (fetchCount s t q) (slotsFor s t q) ∧ (eng s' t q).fetch.map (fun x => (x.off, x.len)) = l ∧
          (∃ ys, Tbl.get [] s'.swc.ingress (ingKey t 8 0) = Tbl.get [] s.swc.ingress (ingKey t 8 0) ++ ys ∧ ys.length = l.length ∧
            ∀ (j : Nat) (y : Frame) (p : Nat × Nat) (x : DRead), ys[j]? = some y → l[j]? = some p → (eng s' t q).fetch[j]? = some x →
              y.pkt.ty = .rd ∧ y.pkt.addr = (a + p.1) % 2 ^ 64 ∧ y.pkt.len = lenField p.2 ∧ y.pkt.inst = i ∧
              y.issuer = .dmaTag t x.tag ∧ x.status = none ∧ Tbl.get none s.dma.tags (t * 4096 + x.tag) = none ∧
              (∃ g, Tbl.get none s'.dma.tags (t * 4096 + x.tag) = some g ∧ g.queue = q ∧ g.inst = i ∧ g.quar = false) ∧
              (qKind s t q = 1 → (y.dstTile, y.dstPort, y.dstSub) = apDest s t q) ∧
              (qKind s t q ≠ 1 → ∀ h, instLink s i = some h → (y.dstTile, y.dstPort, y.dstSub) = (h / 4, 0, h % 4))) ∧
          gf s' t 0x5000208 0 13 = (gf s t 0x5000208 0 13 + l.length) % 8192 ∧ s'.dma.qctx = s.dma.qctx ∧ EnginesBut t q s s' ∧
          RegsBut (ats t [0x5000208, 0x500020C]) s s' ∧ Same [.regs, .swc, .brg, .dma, .fresh] s s')) ∧
    (∀ x rest g y, Tbl.get [] s.dma.dataIn t = x :: rest → x.tag < 4096 → Tbl.get none s.dma.tags (t * 4096 + x.tag) = some g →
      g.quar = false → g.queue = q → g.gen = (instOf s g.inst).gen → (instOf s g.inst).resetting = false →
      (instOf s g.inst).halted = false → qState s t q ≠ 3 → x.status ≠ 4 → qKind s t q ≤ 1 →
      e.fetch = [y] → e.fetchN = 1 → y.tag = x.tag → y.status = none →
      let d := readDesc (qHead s t q) (bytesAt x.data 0 y.len)
      let e0 := { e with fetch := [], fetchN := 0 }
      let h0 (st : Nat) : Halt := ⟨3, false, qKind s t q == 1, st, qHead s t q, ringAddr s t q + 32 * qHead s t q⟩
      let misses := qKind s t q = 1 ∧ b2n (bit d.ctrl 31) ≠ qf s t q 0 16 1
      Completes (.dmaReadData t) s fun s' => Tbl.get none s'.dma.tags (t * 4096 + x.tag) = none ∧
        (x.status ≠ 0 ∨ x.ep = true → s'.dma.qctx = s.dma.qctx ∧ eng s' t q =
          { e0 with settling := true, stop := none, failed := some (h0 (if x.status = 0 then 2 else x.status)) }) ∧
        (x.status = 0 → x.ep = false → misses → s'.dma.qctx = s.dma.qctx ∧ eng s' t q = { e0 with pollWait := true }) ∧
        (x.status = 0 → x.ep = false → ¬ misses → 1 < qSize s t q → eng s' t q = { e0 with fetched := e.fetched ++ [d] } ∧
          qHead s' t q = (if qHead s t q + 1 = qSize s t q then 0 else (qHead s t q + 1) % 65536) ∧
          qf s' t q 0 16 1 = (if qKind s t q = 1 ∧ qHead s t q + 1 = qSize s t q then 1 - qf s t q 0 16 1 else qf s t q 0 16 1)) ∧
        WordsBut t q [0] s s' ∧ only s') ∧
    (∀ i, mayStart s t q = some i →
      (nextDesc s t q = none → exec (.descriptorStart t q) s = .next s) ∧
      (∀ d, nextDesc s t q = some d → e.runs.length < 8 → (∀ r ∈ e.runs, r.d.marker = false) →
        e.settling = false → e.stop = none → e.skipped = none → (∀ h, e.failed = some h → h.cause = 3) →
        fld (shareNow s t q) 0 16 ≠ 0 → instShareNow s i ≠ 0 →
        (∀ x, apertureFails s t q d = some x → Completes (.descriptorStart t q) s fun s' =>
          eng s' t q = { e with failed := some ⟨2, x.1, true, 0, d.idx, x.2⟩ } ∧ s'.dma.qctx = s.dma.qctx ∧ only s') ∧
        (apertureFails s t q d = none → d.wantsEntry = true → cplFree s t q = 0 → Completes (.descriptorStart t q) s fun s' =>
          qf s' t q 0 18 1 = 1 ∧ BitsBut 18 1 (qw s t q 0) (qw s' t q 0) ∧ WordsBut t q [0] s s' ∧ s'.dma.eng = s.dma.eng ∧ only s') ∧
        (apertureFails s t q d = none → d.wantsEntry = false ∨ cplFree s t q ≠ 0 → Completes (.descriptorStart t q) s fun s' =>
          (qKind s t q ≠ 2 → (eng s' t q).fetched = e.fetched.drop 1 ∧ qHead s' t q = qHead s t q) ∧
          (qKind s t q = 2 → qHead s' t q = if qHead s t q + 1 = qSize s t q then 0 else (qHead s t q + 1) % 65536) ∧
          qf s' t q 0 18 1 = 0 ∧ WordsBut t q [0] s s' ∧
          (∃ r, (eng s' t q).runs = e.runs ++ [r] ∧ r.d = d ∧ r.prio = fld (shareNow s t q) 16 2 ∧
            r.weight = fld (shareNow s t q) 0 16 ∧ r.instWeight = instShareNow s i ∧ r.entry = d.wantsEntry ∧ r.readTo = 0 ∧
            r.wroteTo = 0) ∧ RegsBut (at_ t 0x500020C) s s' ∧ only s'))) ∧
    (e.runs = [] → e.skipped = none ∨ (∃ c, e.skipped = some (c, false)) → exec (.completionEntryWrite t q) s = .next s) ∧
    (∀ i, qOwner s t q = some i → qState s t q = 1 → runsOn s i = true → (instOf s i).halted = false → (instOf s i).resetting = false →
      e.settling = false →
      (engineWaits s t 9 0 = true → (∀ r, e.runs.head? = some r → r.done = false ∨ r.d.wantsEntry = true) →
        exec (.completionEntryWrite t q) s = .next s) ∧
      (engineWaits s t 9 0 = false → qf s t q 4 29 1 = 1 ∨ (instLink s i).isSome = true →
        (∀ c, e.runs = [] → e.skipped = some (c, true) → Completes (.completionEntryWrite t q) s fun s' =>
          eng s' t q = { e with skipped := none } ∧ EntryWritten t q i c s s') ∧
        (∀ r rest, e.skipped = none → e.runs = r :: rest → r.done = true → r.d.wantsEntry = true →
          Completes (.completionEntryWrite t q) s fun s' =>
            eng s' t q = { e with runs := rest } ∧
            (r.poisoned = true → gf s' t 0x5000218 0 16 = (gf s t 0x5000218 0 16 + 1) % 65536) ∧
            EntryWritten t q i ⟨r.d.idx, r.d.cookie, if r.poisoned then 2 else 0, r.d.len, bit r.d.ctrl 29⟩ s s'))) ∧
    (qState s t q ≠ 1 → exec (.queueHalt t q) s = .next s) ∧
    (qState s t q = 1 → e.settling = true → (∃ r ∈ e.runs, r.ended = false) ∨ (∃ x ∈ e.fetch, x.status = none) →
      exec (.queueHalt t q) s = .next s) ∧
    (qState s t q = 1 → e.settling = true → (∀ r ∈ e.runs, r.ended = true) → (∀ x ∈ e.fetch, x.status ≠ none) →
      (∀ h, e.failed = some h → h.cause = 4 → h.addr < 2 ^ 64 → (∀ i, qOwner s t q = some i → (instOf s i).frozen = false) →
        Completes (.queueHalt t q) s fun s' => Latched t q h s s' ∧ Returned t q e.runs s s' ∧ (eng s' t q).runs = [] ∧
          (eng s' t q).failed = none ∧ (eng s' t q).settling = false) ∧
      (∀ r k h, (∀ x, e.failed = some x → x.cause ≠ 4) → e.runs.find? Run.failed = some r → failing r = some (k, h) →
        Completes (.queueHalt t q) s fun s' => eng s' t q = { e with settling := false, failed := none, stop := some (r.born, k, h) } ∧
          s'.dma.qctx = s.dma.qctx ∧ EnginesBut t q s s' ∧ Same [.dma] s s')) ∧
    (qState s t q = 1 → e.settling = false → (∀ i, qOwner s t q = some i → (instOf s i).frozen = false) →
      (∀ r rest k h, e.stop = some (r.born, k, h) → e.runs = r :: rest → h.addr < 2 ^ 64 →
        h.writeSide = true ∨ k * r.d.dw ≤ r.wroteTo → (∀ x ∈ r.writes, x.status ≠ none) →
        Completes (.queueHalt t q) s fun s' => Latched t q h s s' ∧ Returned t q rest s s' ∧ (eng s' t q).runs = [] ∧
          (eng s' t q).halted = some (r, k) ∧ (eng s' t q).stop = none)) ∧
    (∀ h, qState s t q = 1 → e.settling = false → e.stop = none → e.runs = [] → e.fetch = [] → e.failed = some h → h.addr < 2 ^ 64 →
      (h.cause = 2 → Completes (.queueHalt t q) s fun s' => Latched t q h s s' ∧ (eng s' t q).failed = none ∧
        ∀ d, nextDesc s t q = some d → ∃ r, (eng s' t q).halted = some (r, 0) ∧ r.d = d) ∧
      (h.cause = 3 → e.fetched = [] → Completes (.queueHalt t q) s fun s' => Latched t q h s s' ∧
        eng s' t q = { e with failed := none })))

/-- In a fenced tile these commands change nothing. READ_ISSUE with no queue eligible, or while a frame waits at the read
port, issues nothing; with one queue eligible, its deficits positive and no queue urgent, the next read of its
descriptor leaves the read port of the tile under the free tag, to the host link or the aperture's port, and both
deficits fall by its length; an urgent queue's leaves before any other and ends its urgency; a host-side read of an
instance bound to no function ends at once with NOT_LIVE. DMA_URGENT puts a queue with a read to issue at the end of
the urgent list once, and changes nothing for another. DRR_EPOCH brings the shares and weights as written into force
and sets each eligible queue's and instance's deficit to its quantum. DMA_READ_DATA, WRITE_SETTLE and DMA_ABORT_REPORT
with nothing arrived change nothing; data of a tag not outstanding is dropped; of a quarantined one it frees the tag;
any other data frees the tag, goes to its place in the descriptor and is counted, an error status starting a settle
period. DMA_READ_TIMEOUT, and TIMEOUT as the answer, quarantine an outstanding tag; the timeout of one that a reset
has quarantined frees it. A write settled without error counts its bytes, one settled with an error, or timed out
(WRITE_SETTLE_TIMEOUT), starts a settle period, as a refused completion entry does; a number not on record changes
nothing. WRITE_ISSUE with no queue ready, or while a frame waits at the write port, changes nothing; else the first
ready queue's next write leaves with the converted bytes. An aborted frame's issuer is answered BUS_ERROR (2). (R68,
R101, R187, R196, R265, R267, R268, R269, R275, R276, R277, R283) -/
def Obligations.EnginesReadAndWrite : Prop :=
  ∀ (s : State) (t : Nat), t < s.part.tiles →
    let toward (i q : Nat) (islocal : Bool) (y : Frame) : Prop :=
      (islocal = true → (y.dstTile, y.dstPort, y.dstSub) = apDest s t q) ∧
      (islocal = false → ∀ h, instLink s i = some h → (y.dstTile, y.dstPort, y.dstSub) = (h / 4, 0, h % 4))
    let issued (c tag : Nat) (x : Cand) (s' : State) : Prop :=
      let n := nextRead s x.i x.r
      (∃ g, Tbl.get none s'.dma.tags (t * 4096 + tag) = some g ∧ g.queue = x.q ∧ g.inst = x.i ∧ g.quar = false ∧
        g.gen = (instOf s x.i).gen) ∧
      (bit x.r.d.ctrl 27 = true ∨ (instLink s x.i).isSome = true →
        (∃ y, Tbl.get [] s'.swc.ingress (ingKey t 8 0) = Tbl.get [] s.swc.ingress (ingKey t 8 0) ++ [y] ∧ y.pkt.ty = .rd ∧
          y.pkt.addr = (x.r.d.src + n.1) % 2 ^ 64 ∧ y.pkt.len = lenField n.2 ∧ y.pkt.inst = x.i ∧ y.issuer = .dmaTag t tag ∧
          toward x.i x.q (bit x.r.d.ctrl 27) y) ∧
        Tbl.get [] s'.dma.dataIn t = Tbl.get [] s.dma.dataIn t ∧ Same [.regs, .trc, .swc, .brg, .dma, .fresh] s s') ∧
      (bit x.r.d.ctrl 27 = false → instLink s x.i = none →
        Tbl.get [] s'.dma.dataIn t = Tbl.get [] s.dma.dataIn t ++ [⟨tag, 5, [], false⟩] ∧ s'.swc = s.swc) ∧
      (∃ r, (eng s' t x.q).runs = (eng s t x.q).runs.set x.at_ r ∧ r.d = x.r.d ∧ r.readTo = n.1 + n.2) ∧
      Tbl.get 0 s'.dma.queueDef (qdKey t c x.q) = Tbl.get 0 s.dma.queueDef (qdKey t c x.q) - n.2 ∧
      gf s' t 0x5000208 0 13 = (gf s t 0x5000208 0 13 + 1) % 8192 ∧ EnginesBut t x.q s s'
    ((tileSt s t).fenced = true → ∀ q p tag w, ∀ c ∈ [Instr.readIssue t, .dmaUrgent t q p, .drrEpoch t, .dmaReadData t,
        .writeIssue t, .writeSettle t, .writeSettleTimeout t w, .dmaAbortReport t] ++ (if q < 16384 ∧ tag < 4096 then
          [Instr.dmaReadTimeout t tag] else []), q < 16384 → exec c s = .next s) ∧
    ((tileSt s t).fenced = false →
    (engineWaits s t 8 1 = true ∨ (Tbl.get [] s.dma.urgent t = [] ∧ ∀ c, c < 4 → eligibleQ s t c = []) →
      Completes (.readIssue t) s fun s' =>
        s'.swc = s.swc ∧ s'.dma.eng = s.dma.eng ∧ s'.dma.tags = s.dma.tags ∧ s'.dma.urgent = s.dma.urgent ∧
        Same [.regs, .trc, .dma] s s') ∧
    (engineWaits s t 8 1 = false → Tbl.get [] s.dma.urgent t = [] →
      ∀ c x tag, c < 4 → eligibleQ s t c = [x] → (∀ d, d < 4 → d ≠ c → eligibleQ s t d = []) → freeTag s t = some tag →
        x.i / 512 = t → x.q < 16384 → 0 < Tbl.get 0 s.dma.instDef (idKey t c x.i) → 0 < Tbl.get 0 s.dma.queueDef (qdKey t c x.q) →
        Completes (.readIssue t) s fun s' => issued c tag x s' ∧
          Tbl.get 0 s'.dma.instDef (idKey t c x.i) = Tbl.get 0 s.dma.instDef (idKey t c x.i) - (nextRead s x.i x.r).2) ∧
    (engineWaits s t 8 1 = false → ∀ u rest x tag, Tbl.get [] s.dma.urgent t = u :: rest →
      (eligibleQ s t (u % 4)).find? (fun x => x.q == u / 4) = some x → freeTag s t = some tag → x.q < 16384 →
        Completes (.readIssue t) s fun s' => issued (u % 4) tag x s' ∧ Tbl.get [] s'.dma.urgent t = rest.filter (fun v => v != u) ∧
          gf s' t 0x5000218 16 16 = (gf s t 0x5000218 16 16 + 1) % 65536) ∧
    (∀ (q : Nat) (p : BitVec 2), q < 16384 →
      let u := q * 4 + p.toNat
      let l := Tbl.get [] s.dma.urgent t
      let can := ∃ x ∈ wantsRead s t p.toNat, x.q = q;
      (¬ can ∨ u ∈ l → exec (.dmaUrgent t q p) s = .next s) ∧
      (can → u ∉ l → Completes (.dmaUrgent t q p) s fun s' => Tbl.get [] s'.dma.urgent t = l ++ [u] ∧ s'.dma.eng = s.dma.eng ∧
        (∀ v, v ≠ t → Tbl.get [] s'.dma.urgent v = Tbl.get [] s.dma.urgent v) ∧ Same [.dma] s s')) ∧
    (Completes (.drrEpoch t) s fun s' =>
      (∀ q, q < 16384 → (∀ e ∈ s.dma.qctx, e.1 = qcKey t q * 16 + 12 → e.2 = qw s t q 12) → shareNow s' t q = qw s t q 12) ∧
      (∀ i, i / 512 = t → (∀ e ∈ s.ins.recs, e.1 = i → e.2 = instOf s i) →
        instShareNow s' i = if (instOf s i).state = .free then 0 else (instOf s i).weight) ∧
      (∀ c x, c < 4 → x ∈ eligibleQ s t c → x.q < 16384 → Tbl.get 0 s'.dma.queueDef (qdKey t c x.q) = (queueQuantum s t x.q c : Int)) ∧
      (∀ c x, c < 4 → x ∈ eligibleQ s t c → (∀ y ∈ eligibleQ s t c, y.i % 512 = x.i % 512 → y.i = x.i) →
        Tbl.get 0 s'.dma.instDef (idKey t c x.i) = (instQuantum s t x.i c : Int)) ∧
      s'.dma.qctx = s.dma.qctx ∧ s'.dma.eng = s.dma.eng ∧ Same [.dma] s s') ∧
    (Tbl.get [] s.dma.dataIn t = [] → exec (.dmaReadData t) s = .next s) ∧
    (∀ x rest, Tbl.get [] s.dma.dataIn t = x :: rest → x.tag < 4096 →
      let tag := Tbl.get none s.dma.tags (t * 4096 + x.tag)
      let freed (s' : State) : Prop := Tbl.get none s'.dma.tags (t * 4096 + x.tag) = none ∧ Tbl.get [] s'.dma.dataIn t = rest ∧
        gf s' t 0x5000208 0 13 = gf s t 0x5000208 0 13 - 1
      let mine (y : DRead) : Bool := y.tag == x.tag && y.status.isNone;
      (tag = none ∨ (∃ g, tag = some g ∧ g.quar = true ∧ x.status = 4) → Completes (.dmaReadData t) s fun s' =>
        Tbl.get [] s'.dma.dataIn t = rest ∧ s'.dma.eng = s.dma.eng ∧ s'.dma.tags = s.dma.tags ∧ Same [.dma] s s') ∧
      (∀ g, tag = some g → g.quar = true → x.status ≠ 4 → Completes (.dmaReadData t) s fun s' => freed s' ∧
        gf s' t 0x5000208 16 13 = gf s t 0x5000208 16 13 - 1 ∧ s'.dma.eng = s.dma.eng ∧ RegsBut (at_ t 0x5000208) s s' ∧
        Same [.regs, .dma] s s') ∧
      (∀ g, tag = some g → g.quar = false → g.queue < 16384 → x.status ≠ 4 →
        let e := eng s t g.queue
        let running := e.runs.any (fun r => r.reads.any mine)
        let count := Tbl.get 0 s.dma.counts (2 * g.inst)
        (qState s t g.queue = 3 ∨ (instOf s g.inst).gen ≠ g.gen → Completes (.dmaReadData t) s fun s' => freed s' ∧
          s'.dma.eng = s.dma.eng ∧ s'.dma.counts = s.dma.counts ∧ Same [.regs, .dma] s s') ∧
        (qState s t g.queue ≠ 3 → (instOf s g.inst).gen = g.gen → (instOf s g.inst).resetting = true ∨ (instOf s g.inst).halted = true →
          Completes (.dmaReadData t) s fun s' => freed s' ∧ s'.dma.counts = s.dma.counts ∧ EnginesBut t g.queue s s' ∧
            (e.fetch.any mine = true → (eng s' t g.queue).fetch = []) ∧ Same [.regs, .dma] s s') ∧
        (qState s t g.queue ≠ 3 → (instOf s g.inst).gen = g.gen → (instOf s g.inst).resetting = false →
          (instOf s g.inst).halted = false → Completes (.dmaReadData t) s fun s' => freed s' ∧
            Tbl.get 0 s'.dma.counts (2 * g.inst) = (if x.status = 0 ∧ running = true then (count + x.data.length) % 2 ^ 64 else count) ∧
            (e.fetch.any mine = false → running = true → x.status ≠ 0 → (eng s' t g.queue).settling = true) ∧
            (∀ r y, e.fetch = [] → e.runs = [r] → r.d.wantsEntry = true → r.reads = [y] → mine y = true →
              (eng s' t g.queue).runs =
                [{ r with reads := [{ y with status := some x.status, data := bytesAt x.data 0 y.len, bad := x.ep }] }]) ∧
            EnginesBut t g.queue s s' ∧ Same [.regs, .trc, .dma] s s'))) ∧
    (∀ tag c, tag < 4096 →
      c = .dmaReadTimeout t tag ∨ (∃ x rest, c = .dmaReadData t ∧ Tbl.get [] s.dma.dataIn t = x :: rest ∧ x.tag = tag ∧ x.status = 4) →
      let g := Tbl.get none s.dma.tags (t * 4096 + tag)
      (g = none ∨ (∃ x, g = some x ∧ x.quar = true ∧ x.byReset = false) → exec (.dmaReadTimeout t tag) s = .next s) ∧
      (∀ x, g = some x → x.quar = true → x.byReset = true → Completes (.dmaReadTimeout t tag) s fun s' =>
        Tbl.get none s'.dma.tags (t * 4096 + tag) = none ∧ gf s' t 0x5000208 16 13 = gf s t 0x5000208 16 13 - 1 ∧
        gf s' t 0x5000208 0 13 = gf s t 0x5000208 0 13 - 1 ∧ s'.dma.eng = s.dma.eng ∧ Same [.regs, .dma] s s') ∧
      (∀ x, g = some x → x.quar = false → Completes c s fun s' =>
        let e := eng s t x.queue
        Tbl.get none s'.dma.tags (t * 4096 + tag) = some { x with quar := true, byReset := false } ∧
        gf s' t 0x5000208 16 13 = (gf s t 0x5000208 16 13 + 1) % 8192 ∧
        (qState s t x.queue ≠ 3 → (instOf s x.inst).resetting = false → (instOf s x.inst).halted = false → e.fetch = [] →
          e.runs.any (fun r => r.reads.any (fun y => y.tag == tag && y.status.isNone)) = true → (eng s' t x.queue).settling = true) ∧
        Same [.regs, .trc, .dma] s s')) ∧
    (let l := Tbl.get [] s.dma.ready t
     (engineWaits s t 9 0 = true ∨ (∀ q ∈ l, ∀ i, mayIssue s t q = some i → nextWrite s t q i = none) →
       exec (.writeIssue t) s = .next s) ∧
     (∀ pre q rest i k r off n, engineWaits s t 9 0 = false → l = pre ++ q :: rest → q < 16384 →
      (∀ p ∈ pre, ∀ i, mayIssue s t p = some i → nextWrite s t p i = none) → mayIssue s t q = some i →
      nextWrite s t q i = some (k, r, off, n) → Completes (.writeIssue t) s fun s' =>
        (bit r.d.ctrl 26 = true ∨ (instLink s i).isSome = true →
          (∃ y, Tbl.get [] s'.swc.ingress (ingKey t 9 0) = Tbl.get [] s.swc.ingress (ingKey t 9 0) ++ [y] ∧ y.pkt.ty = .wr ∧
            y.pkt.addr = (r.d.dst + off) % 2 ^ 64 ∧ y.pkt.data = writeBytes r off n ∧ y.pkt.inst = i ∧ y.pkt.ep = writeBad r off n ∧
            toward i q (bit r.d.ctrl 26) y) ∧
          Same [.regs, .evc, .trc, .ins, .swc, .brg, .dma] s s') ∧
        (bit r.d.ctrl 26 = false → instLink s i = none →
          Tbl.get [] s'.dma.settles t = Tbl.get [] s.dma.settles t ++ [(s.dma.nextW, 5)] ∧ s'.swc = s.swc) ∧
        (∃ r', (eng s' t q).runs = (eng s t q).runs.set k r' ∧ r'.d = r.d ∧ r'.wroteTo = off + n ∧ r'.reads = r.reads) ∧
        EnginesBut t q s s')) ∧
    (Tbl.get [] s.dma.settles t = [] → exec (.writeSettle t) s = .next s) ∧
    (∀ w c st, (c = .writeSettleTimeout t w ∧ st = 4) ∨ (∃ rest, c = .writeSettle t ∧ Tbl.get [] s.dma.settles t = (w, st) :: rest) →
      let k := t * 2 ^ 32 + w
      (Tbl.get none s.dma.writes k = none → Completes c s fun s' => s'.dma.eng = s.dma.eng ∧ s'.dma.counts = s.dma.counts ∧
        s'.dma.qctx = s.dma.qctx ∧ Same [.dma] s s') ∧
      (∀ x, Tbl.get none s.dma.writes k = some x → x.queue < 16384 → x.isEntry = true → qState s t x.queue ≠ 3 →
        let h0 : Halt := ⟨4, true, x.islocal, st, x.desc, x.addr⟩
        Completes c s fun s' => Tbl.get none s'.dma.writes k = none ∧ eng s' t x.queue = (if st = 0 then eng s t x.queue else
            { eng s t x.queue with failed := some h0, settling := true, stop := none }) ∧
          EnginesBut t x.queue s s' ∧ Same [.regs, .trc, .dma] s s') ∧
      (∀ x i, Tbl.get none s.dma.writes k = some x → x.queue < 16384 → x.isEntry = false → qState s t x.queue ≠ 3 →
        qOwner s t x.queue = some i → Completes c s fun s' =>
          let len := (((eng s t x.queue).runs.flatMap (fun r => r.writes.filter (fun y => y.w == w))).map DWrite.len).sum
          Tbl.get none s'.dma.writes k = none ∧
          Tbl.get 0 s'.dma.counts (2 * i + 1) = (if st = 0 then (Tbl.get 0 s.dma.counts (2 * i + 1) + len) % 2 ^ 64 else
            Tbl.get 0 s.dma.counts (2 * i + 1)) ∧
          (st ≠ 0 → (eng s' t x.queue).settling = true) ∧ EnginesBut t x.queue s s' ∧ Same [.regs, .trc, .dma] s s')) ∧
    (Tbl.get [] s.dma.aborts t = [] → exec (.dmaAbortReport t) s = .next s) ∧
    ∀ u g rest, (Tbl.get [] s.dma.aborts t = .dmaTag u g :: rest → Completes (.dmaAbortReport t) s fun s' =>
        Tbl.get [] s'.dma.dataIn u = Tbl.get [] s.dma.dataIn u ++ [⟨g, 2, [], false⟩] ∧ Tbl.get [] s'.dma.aborts t = rest ∧
        s'.dma.eng = s.dma.eng ∧ Same [.brg, .wtt, .dma] s s') ∧
      (Tbl.get [] s.dma.aborts t = .dmaWr u g :: rest → Completes (.dmaAbortReport t) s fun s' =>
        Tbl.get [] s'.dma.settles u = Tbl.get [] s.dma.settles u ++ [(g, 2)] ∧ Tbl.get [] s'.dma.aborts t = rest ∧
        s'.dma.eng = s.dma.eng ∧ Same [.brg, .wtt, .dma] s s'))

/-- CREATE, REMOVE, BIND, UNBIND, FREEZE, INSTANCE_RESUME, INSTANCE_RESET_COMMAND, SET_WEIGHT and LOG_CLEAR: with BUSY 1
nothing changes. With BUSY 0 an instance of another tile ends with BAD_INDEX; else the command is refused, its WHY
naming the first reason that applies: a command running on the instance (10), the mode of the tile (2), the state of
the instance (1), and CREATE's, BIND's, SET_WEIGHT's and LOG_CLEAR's own checks in their order. No instance record
changes, no register but MB_CTRL and WHY. (R285, R286, R288, R291, R304) -/
def Obligations.InstanceCommandsAreCheckedInOrder : Prop :=
  ∀ (s : State) (t m : Nat) (c : Instr) (op : Nat), t < s.part.tiles → m < 4 →
    (c, op) ∈ [(Instr.create t m, 3), (.remove t m, 4), (.bind t m, 5), (.unbind t m, 6), (.freeze t m, 7), (.instanceResume t m, 8),
      (.instanceResetCommand t m, 9), (.setWeight t m, 10), (.logClear t m, 11)] →
    let mb := 0x6000100 + 0x80 * m
    let i := mbIndex s t mb
    let r := instOf s i
    let pass (n : Nat) : Bool := match n with
      | 3 => r.state == .free
      | 4 => r.state == .unbound
      | 5 => r.state == .unbound
      | 6 => r.state == .bound && r.frozen
      | 7 => r.state != .free && !r.frozen
      | 8 => r.frozen
      | 11 => r.state == .bound
      | _ => r.state != .free
    let own (n : Nat) : Option Nat := match n with
      | 3 => createBad s t m i
      | 5 => bindBad s t m i
      | 10 =>
        let mates := (othersOf s i).filter (fun x => x.pool == r.pool)
        if (poolOf s t r.pool).shareBudget < fld (mbData s t mb 1) 0 16 + (mates.map Inst.weight).sum then some 5 else none
      | 11 => if bit (logOf s i).cfg 0 then none else some 1
      | _ => none;
    Heard s c →
    (gf s t mb 30 1 = 1 → exec c s = .next s) ∧
    (gf s t mb 30 1 = 0 → i / 512 ≠ t → Completes c s fun s' => MbTakes t mb op badIndex s s' ∧ Same [.regs, .bus] s s') ∧
    (gf s t mb 30 1 = 0 → i / 512 = t → ∀ why,
      ((Tbl.get none s.ins.busy i).isSome = true ∧ why = 10) ∨
      ((Tbl.get none s.ins.busy i).isSome = false ∧
        let ok := insModeOk s t (op == 4 || op == 6 || op == 9);
        (ok = false ∧ why = 2) ∨ (ok = true ∧ pass op = false ∧ why = 1) ∨ (ok = true ∧ pass op = true ∧ own op = some why)) →
      Completes c s fun s' => gf s' t (0x6000020 + 4 * m) 0 8 = why % 256 ∧ gf s' t mb 30 1 = 1 ∧ gf s' t mb 24 4 = op ∧
        Tbl.get .running s'.bus.mb (key t mb) = refusedMb ∧ s'.ins.recs = s.ins.recs ∧
        RegsBut (ats t [mb, 0x6000020 + 4 * m]) s s' ∧ Same [.regs, .bus, .ins] s s')

/-- For the same commands on an instance of the tile with no command running, in a mode and state its row allows: CREATE
makes the instance UNBOUND with the resources its data words name and the generation one higher, and puts its queues
at reset. REMOVE and INSTANCE_RESET_COMMAND start an instance reset that ends the command, REMOVE's freeing the
number. BIND makes it BOUND to the function its data word names, which then finds it; on a change of link the host
sequence goes up and its queues with a ring in the earlier host's memory are DISABLED. UNBIND makes it UNBOUND, and
its function finds none. FREEZE makes it FROZEN, not RELEASED, with the handover data given, and the command runs on.
RESUME makes it neither. SET_WEIGHT changes its weight alone. LOG_CLEAR begins a new round with CLEARING set and
OVERFLOW and WRITE_ERROR clear. (R285, R286, R287, R288, R289, R291, R293, R296, R298, R304) -/
def Obligations.InstanceCommandsAct : Prop :=
  ∀ (s : State) (t m : Nat), t < s.part.tiles → m < 4 →
    let mb := 0x6000100 + 0x80 * m
    let i := mbIndex s t mb
    let r := instOf s i
    let w (k : Nat) : Word := mbData s t mb k
    let taken (op : Nat) (e : MbEnd) (s' : State) : Prop := gf s' t mb 30 1 = 1 ∧ gf s' t mb 31 1 = 0 ∧ gf s' t mb 24 4 = op ∧
      gf s' t mb 16 8 = (gf s t mb 16 8 + 1) % 256 ∧ Tbl.get .running s'.bus.mb (key t mb) = e ∧
      Tbl.get none s'.ins.busy i = some m ∧ (∀ j, j ≠ i → instOf s' j = instOf s j);
    Heard s (.create t m) → gf s t mb 30 1 = 0 → i / 512 = t → Tbl.get none s.ins.busy i = none →
    (insModeOk s t false = true →
      (r.state = .free → createBad s t m i = none → Completes (.create t m) s fun s' => taken 3 (.ok []) s' ∧
        instOf s' i = { state := .unbound, gen := (r.gen + 1) % 256, pool := fld (w 0) 12 4, weight := fld (w 1) 0 16,
                        qCount := Nat.min 256 (fld (w 3) 16 9), qBase := fld (w 3) 0 14, etCount := Nat.min 64 (fld (w 4) 24 7),
                        wCount := Nat.min 64 (fld (w 4) 16 7), wBase := fld (w 4) 0 13, etBase := fld (w 5) 22 10,
                        wttBase := fld (w 5) 0 21, wttCount := Nat.min 2097152 (fld (w 6) 0 22),
                        vCount := Nat.min 2048 (fld (w 7) 16 12), vBase := fld (w 7) 0 16 } ∧
        (∀ k n, k < (instOf s' i).qCount → n < 16 → qw s' t ((instOf s' i).qBase + k) n = qReset n) ∧
        Same [.regs, .bus, .evc, .brg, .host, .ins, .dma] s s') ∧
      (r.state = .unbound → bindBad s t m i = none → r.lastLink.any (fun l => l != fld (w 2) 16 5) = false →
        Completes (.bind t m) s fun s' => taken 5 (.ok []) s' ∧
          instOf s' i = { r with state := .bound, fn := some (fld (w 2) 16 5, fld (w 2) 0 15), lastLink := some (fld (w 2) 16 5) } ∧
          boundInst s' (fld (w 2) 16 5) (fld (w 2) 0 15) = some i ∧ Same [.regs, .bus, .evc, .host, .ins] s s') ∧
      (∀ l, r.state = .unbound → bindBad s t m i = none → r.lastLink = some l → l ≠ fld (w 2) 16 5 →
        Completes (.bind t m) s fun s' => taken 5 (.ok []) s' ∧
          instOf s' i = { r with state := .bound, fn := some (fld (w 2) 16 5, fld (w 2) 0 15), lastLink := some (fld (w 2) 16 5),
                                 hseq := (r.hseq + 1) % 65536, fromLink := l, events := setFld r.events 3 1 1 } ∧
          boundInst s' (fld (w 2) 16 5) (fld (w 2) 0 15) = some i ∧
          (∀ q ∈ instQueues s i, qKind s t q = 0 ∨ qf s t q 4 29 1 = 0 → qState s' t q = 0 ∧ (eng s' t q).fetched = []) ∧
          (∀ q, q < 16384 → q ∉ instQueues s i ∨ (qKind s t q ≠ 0 ∧ qf s t q 4 29 1 = 1) → qState s' t q = qState s t q) ∧
          Same [.regs, .bus, .evc, .host, .ins, .dma] s s') ∧
      (r.state ≠ .free → r.frozen = false → Completes (.freeze t m) s fun s' => taken 7 .running s' ∧
        instOf s' i = { r with frozen := true, released := false, handover := bit (w 2) 31, toLink := fld (w 2) 26 5,
                               events := setFld r.events 1 1 1 } ∧
        Tbl.get none s'.ins.freezes i = some mb ∧
        Same [.regs, .bus, .evc, .trc, .swc, .brg, .host, .wtt, .ins, .dma] s s') ∧
      (r.frozen = true → Completes (.instanceResume t m) s fun s' => taken 8 (.ok []) s' ∧
        instOf s' i = { r with frozen := false, released := false, events := setFld r.events 2 1 1 } ∧
        Same [.regs, .bus, .evc, .swc, .brg, .ins] s s') ∧
      (r.state ≠ .free →
        fld (w 1) 0 16 + (((othersOf s i).filter (fun x => x.pool == r.pool)).map Inst.weight).sum ≤ (poolOf s t r.pool).shareBudget →
        Completes (.setWeight t m) s fun s' => taken 10 (.ok []) s' ∧ instOf s' i = { r with weight := fld (w 1) 0 16 } ∧
          RegsBut (at_ t mb) s s' ∧ Same [.regs, .bus, .ins] s s') ∧
      (r.state = .bound → bit (logOf s i).cfg 0 = true → Completes (.logClear t m) s fun s' => taken 11 .running s' ∧
        instOf s' i = r ∧ (logOf s' i).round = (logOf s i).round + 1 ∧ (logOf s' i).clearMb = some mb ∧
        bit (logOf s' i).state 31 = true ∧ bit (logOf s' i).state 30 = false ∧ bit (logOf s' i).state 29 = false ∧
        RegsBut (at_ t mb) s s' ∧ Same [.regs, .bus, .ins] s s')) ∧
    (insModeOk s t true = true →
      (∀ h f, r.state = .bound → r.fn = some (h, f) → r.frozen = true → Completes (.unbind t m) s fun s' => taken 6 (.ok []) s' ∧
        instOf s' i = { r with state := .unbound, fn := none } ∧ bit (logOf s' i).cfg 0 = false ∧
        boundInst s' h f = none ∧ Same [.regs, .bus, .swc, .brg, .lode, .host, .ins] s s') ∧
      (∀ c op, (c = .remove t m ∧ op = 4 ∧ r.state = .unbound) ∨ (c = .instanceResetCommand t m ∧ op = 9 ∧ r.state ≠ .free) →
        r.resetting = false → (tileSt s t).fenced = false → Completes c s fun s' => taken op .running s' ∧ (instOf s' i).resetting = true ∧
          (instOf s' i).state = r.state ∧ (instOf s' i).gen =
            (if tagsRecord s i ((r.gen + 1) % 256) then r.gen else (r.gen + 1) % 256) ∧
          (∃ y, resetRun s' i = some y ∧ y.mb = some mb ∧ y.removing = (op == 4) ∧
            y.step = (if tagsRecord s i ((r.gen + 1) % 256) then 2 else 4)) ∧
          s'.modes = s.modes ∧ s'.mem = s.mem ∧ s'.core = s.core))

/-- For every instance of the part. FREEZE_COMPLETE, LOG_CLEAR_COMPLETE and DIRTY_LOG_ENTRY_WRITE in a fenced tile change
nothing. FREEZE_COMPLETE with no FREEZE running, or while a reset, a started descriptor or a write of the instance
runs, changes nothing; once all that it waits for has ended it ends the command with OK. INSTANCE_RESET of a FREE
instance, or in a fenced tile, changes nothing; of another it makes it RESETTING with nothing fetched or stored in its
queues. INSTANCE_RESET_STALL_END while a tag still records the next generation, and the two ends with no reset
running, change nothing; with none left the generation goes up and the drain begins. INSTANCE_RESET_DRAIN_END while a
write is on its way changes nothing; else the instance is neither HALTED nor RESETTING and its reset has ended.
RELEASE, LOG_ENABLE and LOG_CMD_CLEAR change nothing of an instance bound to no function, and are discarded and
counted where it is not live; where they reach its page: RELEASE marks a FROZEN instance and changes nothing of
another. LOG_ENABLE begins a round at LOG_HEAD with PHASE 1. LOG_CMD_CLEAR begins a CLEAR, once; LOG_CLEAR_COMPLETE
ends it when nothing it waits for is left. DIRTY_LOG_ENTRY_WRITE with no entry due, or before the write it follows is
on the link, changes nothing; else it writes the entries whose writes are on the link, up to the end of a 64-byte
block, toward the bound link, PHASE toggling at the wrap. (R293, R296, R299, R301, R304, R308) -/
def Obligations.InstanceEnginesRunToTheirEnd : Prop :=
  ∀ (s : State) (i : Nat), i < 512 * s.part.tiles →
    let r := instOf s i
    let l := logOf s i
    let t := i / 512
    let out := r.resetting || writesOnWay s i || (instQueues s i).any (queueRuns s t) || !(readsOut s i).isEmpty ||
      s.wtt.ahead.any (fun a => a.2 == i) ||
      s.dma.tags.any (fun e => e.1 / 4096 == t && e.2.any (fun g => g.inst == i && !g.quar))
    ((tileSt s t).fenced = true → ∀ c ∈ [Instr.freezeComplete i, .logClearComplete i, .dirtyLogEntryWrite i], exec c s = .next s) ∧
    (Tbl.get none s.ins.freezes i = none ∨ out = true → exec (.freezeComplete i) s = .next s) ∧
    (∀ mb, (tileSt s t).fenced = false → Tbl.get none s.ins.freezes i = some mb → out = false →
      Completes (.freezeComplete i) s fun s' => Tbl.get none s'.ins.freezes i = none ∧ s'.ins.recs = s.ins.recs ∧
        Tbl.get .running s'.bus.mb (key t mb) = .ok [] ∧ Same [.bus, .ins] s s') ∧
    (r.state = .free ∨ (tileSt s t).fenced = true → exec (.instanceReset i) s = .next s) ∧
    (r.state ≠ .free → (tileSt s t).fenced = false → 2 ≤ mode s t → r.resetting = false →
      Completes (.instanceReset i) s fun s' => (instOf s' i).resetting = true ∧ (resetRun s' i).isSome = true ∧
        (∀ j, j ≠ i → instOf s' j = instOf s j) ∧
        (∀ q ∈ instQueues s i, (eng s' t q).fetched = [] ∧ (eng s' t q).fetch = [] ∧ (eng s' t q).store = []) ∧ s'.modes = s.modes ∧ s'.mem = s.mem) ∧
    (resetRun s i = none → exec (.instanceResetStallEnd i) s = .next s ∧ exec (.instanceResetDrainEnd i) s = .next s) ∧
    (∀ x, resetRun s i = some x →
      (x.step ≠ 2 → exec (.instanceResetStallEnd i) s = .next s) ∧
      (x.step = 2 → tagsRecord s i ((r.gen + 1) % 256) = true → Completes (.instanceResetStallEnd i) s fun s' =>
        resetRun s' i = some x ∧ s'.ins.recs = s.ins.recs ∧ Same [.ins] s s') ∧
      (x.step = 2 → tagsRecord s i ((r.gen + 1) % 256) = false → Completes (.instanceResetStallEnd i) s fun s' =>
        instOf s' i = { r with gen := (r.gen + 1) % 256 } ∧ resetRun s' i = some { x with step := 4 } ∧
        (∀ j, j ≠ i → instOf s' j = instOf s j)) ∧
      (x.step ≠ 4 ∨ writesOnWay s i = true → exec (.instanceResetDrainEnd i) s = .next s) ∧
      (x.step = 4 → writesOnWay s i = false → x.removing = false → Completes (.instanceResetDrainEnd i) s fun s' =>
        instOf s' i = { r with halted := false, halt := 0, resetting := false, events := setFld r.events 0 1 1 } ∧
        resetRun s' i = none ∧ (∀ mb, x.mb = some mb → Tbl.get .running s'.bus.mb (key t mb) = .ok []) ∧
        (∀ q ∈ instQueues s i, eng s' t q = {} ∧ qState s' t q = 0 ∧ qw s' t q 12 = qw s t q 12) ∧
        Same [.regs, .bus, .evc, .trc, .swc, .brg, .host, .ins, .dma] s s') ∧
      (x.step = 4 → writesOnWay s i = false → x.removing = true → Completes (.instanceResetDrainEnd i) s fun s' =>
        instOf s' i = { gen := r.gen } ∧ resetRun s' i = none ∧
        Same [.regs, .bus, .evc, .trc, .swc, .brg, .host, .ins, .dma] s s')) ∧
    (∀ c ∈ [Instr.release i, .logEnable i, .logCmdClear i], (instLink s i = none → exec c s = .next s) ∧
      ∀ h, instLink s i = some h → live s i = false → Discards s c h 16) ∧
    (PageReaches s i 1 →
    (r.frozen = false → exec (.release i) s = .next s) ∧
    (r.frozen = true → Completes (.release i) s fun s' => instOf s' i = { r with released := true } ∧
      (∀ j, j ≠ i → instOf s' j = instOf s j) ∧ Same [.regs, .trc, .ins] s s') ∧
    (bit l.cfg 0 = true → exec (.logEnable i) s = .next s) ∧
    (bit l.cfg 0 = false → Completes (.logEnable i) s fun s' =>
      bit (logOf s' i).cfg 0 = true ∧ (logOf s' i).tail = l.head % 2 ^ 20 ∧ bit (logOf s' i).state 28 = true ∧
      (logOf s' i).round = l.round + 1 ∧ (logOf s' i).head = l.head ∧ s'.ins.recs = s.ins.recs ∧ Same [.ins] s s') ∧
    (bit l.state 31 = true → exec (.logCmdClear i) s = .next s) ∧
    (bit l.state 31 = false → Completes (.logCmdClear i) s fun s' =>
      bit (logOf s' i).state 31 = true ∧ bit (logOf s' i).state 30 = false ∧ bit (logOf s' i).state 29 = false ∧
      (logOf s' i).round = l.round + 1 ∧ (logOf s' i).clearEnts = l.due.length ∧ s'.ins.recs = s.ins.recs ∧ Same [.ins] s s')) ∧
    (let waits := bit l.state 31 = false ∨ l.clearEnts ≠ 0 ∨ (∃ w ∈ l.clearWaits, ∃ p ∈ s.brg.posted, p.serial = w);
      (waits → exec (.logClearComplete i) s = .next s) ∧
      ((tileSt s t).fenced = false → ¬ waits → Completes (.logClearComplete i) s fun s' =>
        bit (logOf s' i).state 31 = false ∧ (logOf s' i).clearMb = none ∧
        (logOf s' i).clearTail = word (b2n l.lost * 2 ^ 31 + l.newAt) ∧
        (∀ mb, l.clearMb = some mb → Tbl.get .running s'.bus.mb (key t mb) = .ok [word l.newAt]) ∧
        s'.ins.recs = s.ins.recs ∧ RegsBut (at_ t 0x600000C) s s' ∧ Same [.regs, .bus, .ins] s s')) ∧
    (let n := Nat.min (l.due.takeWhile (fun e => !(s.brg.posted.any (fun x => x.serial == e.2.2)))).length (8 - l.tail % 8)
     let phase := bit l.state 28
     let next := if l.tail + n = l.size then 0 else l.tail + n
     (n = 0 → exec (.dirtyLogEntryWrite i) s = .next s) ∧
     ((tileSt s t).fenced = false → n ≠ 0 → l.tail + n < 2 ^ 20 → Completes (.dirtyLogEntryWrite i) s fun s' =>
        (∀ h, instLink s i = some h → ∃ y, Tbl.get [] s'.swc.ingress (ingKey t 10 0) = Tbl.get [] s.swc.ingress (ingKey t 10 0) ++ [y] ∧
          y.pkt.ty = .wr ∧ y.pkt.addr = pair l.ringLo l.ringHi + 8 * l.tail ∧ y.pkt.len = lenField (8 * n) ∧
          y.pkt.data = (l.due.take n).flatMap (fun x => leBytes 8 (x.1 * 4096 + 2 * b2n x.2.1 + b2n phase)) ∧
          y.dstTile = h / 4 ∧ y.dstPort = 0 ∧ y.dstSub = h % 4 ∧ y.asPf = true) ∧
        (instLink s i = none → s'.swc = s.swc) ∧
        (logOf s' i).due = l.due.drop n ∧ (logOf s' i).clearEnts = l.clearEnts - n ∧ (logOf s' i).tail = next ∧
        bit (logOf s' i).state 28 = (if next = 0 then !phase else phase) ∧ Same [.swc, .brg, .ins] s s'))

/-- For every tile. EVENT_PIN_CHANGE stores the level, and changes nothing of a part in boundary scan; a change from
inactive to active of a pin that is an enabled edge source makes it pending, and in a controller held in reset, or in
a fenced tile, nothing but the level changes. A PENDING_WORD_WRITE that reaches its word sets, in the bytes enabled,
each enabled edge source of the word to the written bit, where no instance reset locks it, and changes no other bit of
it; a written 0 where an edge had ARRIVED sets the lost bit. PENDING_WORD_READ that reaches its word answers the word
and clears ARRIVED for its bits alone. ROUTE_WRITE sets the route, and changes nothing where an instance's source
would leave its own targets or its instance is resetting. EVC_DELIVERY of a tile held in reset or fenced changes
nothing; else the chosen source's message gets the next SEQ, LAST names the source, it is in service, the hold-off of
its group runs if it has one, and the message is carried by its target's kind: a vector to MSIX_SEND, an EVENT frame
from the management port, or a note for Headframe. TARGET_DONE of a resetting instance's target changes nothing; of an
idle target, or with a SEQ not in service, it is counted; with CHECK it ends the message of that SEQ, without it the
one in service of the highest level. HOLDOFF_EXPIRY clears HOLDING alone, and changes nothing in a fenced tile. (R310,
R311, R313, R315, R316, R317, R318, R320, R322, R325, R327) -/
def Obligations.EventsPendRouteAndAreDelivered : Prop :=
  (∀ (s : State) (t p : Nat) (level : Bool), t < s.part.tiles → p < 64 →
    let src := 22528 + p
    let low := gf s t (evcSrc src) 29 1 == 1
    let kept (s' : State) : Prop := Tbl.get false s'.evc.pins (t * 64 + p) = level ∧ gf s' t (0x7046000 + 4 * p) 31 1 = b2n level
    (s.core.scanned = true → exec (.eventPinChange t p level) s = .next s) ∧
    (s.core.scanned = false →
    (mode s t ≤ 1 ∨ (tileSt s t).fenced = true → Completes (.eventPinChange t p level) s fun s' => kept s' ∧ RegsBut (at_ t (0x7046000 + 4 * p)) s s' ∧
      Same [.regs, .evc] s s') ∧
    (2 ≤ mode s t → (tileSt s t).fenced = false → srcLevel s t src = false → Completes (.eventPinChange t p level) s fun s' => kept s' ∧
      gf s' t (0x7000000 + 4 * (src / 32)) (src % 32) 1 = (if Tbl.get false s.evc.pins (t * 64 + p) = low ∧ level ≠ low ∧
        gf s t (evcSrc src) 31 1 = 1 then 1 else gf s t (0x7000000 + 4 * (src / 32)) (src % 32) 1) ∧
      RegsBut (ats t [0x7046000 + 4 * p, 0x7000000 + 4 * (src / 32)]) s s' ∧ Same [.regs, .evc] s s') ∧
    (2 ≤ mode s t → (tileSt s t).fenced = false → srcLevel s t src = true → Completes (.eventPinChange t p level) s fun s' => kept s' ∧
      (∀ w, w < 1024 → rreg s' t (0x7000000 + 4 * w) = rreg s t (0x7000000 + 4 * w)) ∧ Same [.regs, .evc] s s'))) ∧
  (∀ (s : State) (t w : Nat) (be : BitVec 4) (v : Word), t < s.part.tiles → w < 1024 → Reaches s t (0x7000000 + 4 * w) →
    let free (b : Nat) : Bool := be.getLsbD (b / 8) && srcEnabled s t (32 * w + b) && !srcLevel s t (32 * w + b) && !srcLocked s t (32 * w + b);
    (Completes (.pendingWordWrite t w be v) s fun s' => (∀ b, b < 32 →
        gf s' t (0x7000000 + 4 * w) b 1 = (if free b = true then b2n (bit v b) else gf s t (0x7000000 + 4 * w) b 1) ∧
        gf s' t (0x7002000 + 4 * w) b 1 = (if free b = true ∧ bit v b = false ∧
          (Tbl.find? s.evc.arrived (t * 32768 + (32 * w + b))).isSome = true then 1 else gf s t (0x7002000 + 4 * w) b 1)) ∧
      (∀ u, u < 1024 → u ≠ w → rreg s' t (0x7000000 + 4 * u) = rreg s t (0x7000000 + 4 * u)) ∧ Same [.regs, .evc] s s') ∧
    Completes (.pendingWordRead t w) s fun s' =>
      s'.outbox = s.outbox ++ [.read t (0x7000000 + 4 * w) (pendWord s t w)] ∧
      (∀ k, Tbl.find? s'.evc.arrived k = if k / 32 = t * 1024 + w then none else Tbl.find? s.evc.arrived k) ∧
      Same [.evc, .outbox] s s') ∧
  (∀ (s : State) (t src : Nat) (route : BitVec 11), t < s.part.tiles → src < 32768 → Reaches s t (evcSrc src) →
    let own := (tgtOwner s t route.toNat).isSome = true ∧ tgtOwner s t route.toNat = srcOwner s t src;
    ((src < 20480 ∧ route.toNat < 1024 ∧ ¬ own) ∨ srcLocked s t src = true → exec (.routeWrite t src route) s = .next s) ∧
    (¬ (src < 20480 ∧ route.toNat < 1024 ∧ ¬ own) → srcLocked s t src = false → Completes (.routeWrite t src route) s fun s' =>
      gf s' t (evcSrc src) 0 11 = route.toNat ∧ BitsBut 0 11 (rreg s t (evcSrc src)) (rreg s' t (evcSrc src)) ∧
      (∀ x, x < 32768 → x ≠ src → rreg s' t (evcSrc x) = rreg s t (evcSrc x)) ∧ Same [.regs, .evc] s s')) ∧
  (∀ (s : State) (t : Nat), t < s.part.tiles →
    (mode s t ≤ 1 ∨ (tileSt s t).fenced = true → exec (.evcDelivery t) s = .next s) ∧
    (2 ≤ mode s t → (tileSt s t).fenced = false → let s1 := evcRefresh s t
      (select s1 t = none → Completes (.evcDelivery t) s fun s' => s'.regs = s1.regs ∧ s'.evc.svc = s1.evc.svc ∧
        Same [.regs, .evc] s s') ∧
      (∀ src x u, select s1 t = some (src, x, u) → x < 1024 → Completes (.evcDelivery t) s fun s' =>
        let seq := (gf s t (tgtReg x 4) 24 8 + 1) % 256
        gf s' t (tgtReg x 4) 24 8 = seq ∧ rreg s' t (tgtReg x 12) = word src ∧
        svcOf s' t x = svcOf s1 t x ++ [⟨if prioMode s t then srcPri s t src else 0, seq, src, false⟩] ∧
        (let g := 0x7044000 + 4 * gf s t (evcSrc src) 16 8; gf s t g 0 16 ≠ 0 → gf s' t g 31 1 = 1) ∧
        (let v := gf s t (tgtReg x 0) 0 11
         let kind := tgtKind s t x
         (∀ i, kind = 1 → tgtOwner s t x = some i → (instOf s i).vCount ≤ v →
           gf s' t 0x704500C 0 16 = (gf s t 0x704500C 0 16 + 1) % 65536 ∧ s'.evc.vecDue = s.evc.vecDue) ∧
         (∀ i, kind = 1 → tgtOwner s t x = some i → v < (instOf s i).vCount → vectorWaits s1 i t src = [] →
           s.brg.holds.any (fun h => sameHold h.item (.vector i v)) = false → s'.evc.vecDue = s.evc.vecDue ++ [(i, v)]) ∧
         (kind = 2 → ∃ y, Tbl.get [] s'.swc.ingress (ingKey t 10 0) = Tbl.get [] s.swc.ingress (ingKey t 10 0) ++ [y] ∧
           y.pkt.ty = .event ∧ y.pkt.addr = x + t * 65536 ∧ y.dstTile * 4 + y.dstPort = gf s t (tgtReg x 0) 12 5 + 1 ∧
           y.dstSub = gf s t (tgtReg x 0) 11 1) ∧
         (kind = 3 → Tbl.get [] s'.evc.hfDue t = Tbl.get [] s.evc.hfDue t ++ [x * 256 + seq]) ∧
         (kind = 4 → s'.evc.vecDue = s.evc.vecDue ++ [(managerInst, v % 64)])) ∧
        Same [.regs, .evc, .swc, .brg] s s'))) ∧
  (∀ (s : State) (t x : Nat) (check : Bool) (seq : BitVec 8), t < s.part.tiles → x < 1024 → Reaches s t (tgtReg x 8) →
    let l := svcOf s t x;
    (tgtLocked s t x = true → exec (.targetDone t x check seq) s = .next s) ∧
    (tgtLocked s t x = false →
      (l = [] → Completes (.targetDone t x check seq) s fun s' => gf s' t 0x7045008 0 16 = (gf s t 0x7045008 0 16 + 1) % 65536 ∧
        RegsBut (at_ t 0x7045008) s s' ∧ Same [.regs] s s') ∧
      (l ≠ [] → check = true → (∀ v ∈ l, v.seq ≠ seq.toNat) → Completes (.targetDone t x check seq) s fun s' =>
        gf s' t 0x7045008 16 16 = (gf s t 0x7045008 16 16 + 1) % 65536 ∧ RegsBut (at_ t 0x7045008) s s' ∧ Same [.regs] s s') ∧
      (check = true → (∃ v ∈ l, v.seq = seq.toNat) → Completes (.targetDone t x check seq) s fun s' =>
        svcOf s' t x = l.filter (fun v => v.seq != seq.toNat) ∧ RegsBut (at_ t (tgtReg x 4)) s s' ∧ Same [.regs, .evc] s s') ∧
      (l ≠ [] → check = false → prioMode s t = false → Completes (.targetDone t x check seq) s fun s' =>
        svcOf s' t x = [] ∧ gf s' t (tgtReg x 4) 23 1 = 0 ∧ RegsBut (at_ t (tgtReg x 4)) s s' ∧ Same [.regs, .evc] s s') ∧
      (l ≠ [] → check = false → prioMode s t = true → Completes (.targetDone t x check seq) s fun s' =>
        svcOf s' t x = l.filter (fun v => v.level != (l.map Svc.level).foldl Nat.max 0) ∧
        RegsBut (at_ t (tgtReg x 4)) s s' ∧ Same [.regs, .evc] s s'))) ∧
  ∀ (s : State) (t g : Nat), t < s.part.tiles → g < 256 →
    ((tileSt s t).fenced = true → exec (.holdoffExpiry t g) s = .next s) ∧
    ((tileSt s t).fenced = false → Completes (.holdoffExpiry t g) s fun s' =>
      gf s' t (0x7044000 + 4 * g) 31 1 = 0 ∧ BitsBut 31 1 (rreg s t (0x7044000 + 4 * g)) (rreg s' t (0x7044000 + 4 * g)) ∧
      (∀ u, u < 256 → u ≠ g → rreg s' t (0x7044000 + 4 * u) = rreg s t (0x7044000 + 4 * u)) ∧
      (∀ o, 0x7000000 ≤ o → o < 0x7040000 → rreg s' t o = rreg s t o) ∧ Same [.regs, .evc] s s')

/-- For every tile and bank. FAULT_RECORD of a cause that is never raised, or in an OFF tile, and HF_WATCHDOG before
COMPOSE, change nothing. Else, for a cause of class A, or any class B or C cause in a tile that only records, the
cause and its NEW bit are set, LAST names it, RECORDED counts up, and a cause whose bit was clear leaves its record at
the next place of the MRAM ring. A class C cause also starts its deadline, ESCALATION away. An uncorrectable error of
the frame buffer or the window store is counted in its block. HEADFRAME_FAULT_SERVICE clears NEW of each bank whose
source is pending, and takes the message. FAULT_ACKNOWLEDGE that reaches its bank clears the written cause bits and
ends their class C deadlines, and changes nothing else. CLASS_B_EXPIRY and CLASS_C_EXPIRY with no deadline running, or
in a tile that only records, change nothing; a class B expiry resets the instance; a class C expiry fences the tile in
RECOVERY. FAULT_LOSS_SUMMARY with nothing lost or no token changes nothing; else the bank's losses are told once.
(R331, R333, R334, R335, R336, R337, R340, R347, R390) -/
def Obligations.FaultsAreRecordedAndReactedTo : Prop :=
  (∀ (s : State) (t b : Nat), t < s.part.tiles → b < 14 →
    let dl (s' : State) (c : Nat) : Prop := s'.flt.deadlines = s.flt.deadlines ++ [⟨t, b, c, none, escalation s t b c * 512, false⟩]
    (mode s t ≤ 1 → exec (.hfWatchdog t) s = .next s) ∧
    (∀ c i d, faultDefault b c = none ∨ mode s t = 0 → exec (.faultRecord t b c i d) s = .next s) ∧
    (∀ (cmd : Instr) c d cls, ((∃ o det, cmd = .faultRecord t b c o det ∧ d = det.toNat ∧ 1 ≤ mode s t ∧
          (∃ e m, faultDefault b c = some (e, m, false))) ∨ (cmd = .hfWatchdog t ∧ b = 0 ∧ c = 3 ∧ d = 0 ∧ 2 ≤ mode s t)) →
      c < 8 → cls = actsAs s t b c none → cls = 0 ∨ cls = 2 →
      Completes cmd s fun s' =>
        let n := Tbl.get 0 s.flt.recSeq t
        let act := if recordsOnly s t then 4 else 0;
        gf s' t (fltB b 0) c 1 = 1 ∧ gf s' t (fltB b 4) c 1 = 1 ∧ rreg s' t (fltB b 0x10) = word (cls * 2 ^ 30 + c * 2 ^ 24) ∧
        gf s' t (fltB b 0x14) 16 16 = (gf s t (fltB b 0x14) 16 16 + 1) % 65536 ∧
        (gf s t (fltB b 0) c 1 = 0 → Tbl.get 0 s'.flt.recSeq t = (n + 1) % 2 ^ 32 ∧
          mramRead s' t (0x1E0000 + 32 * (n % 4096)) 32 = faultBytes s t b c cls none 0 act d s.cal.sec s.cal.sub) ∧
        (cls = 2 → recordsOnly s t = false →
          (∀ x ∈ s.flt.deadlines, ¬ (x.tile = t ∧ x.bank = b ∧ x.cause = c ∧ x.inst = none)) → dl s' c) ∧
        (cls = 0 ∨ recordsOnly s t = true → s'.flt.deadlines = s.flt.deadlines) ∧
        ((b, c) = (3, 1) → gf s' t 0x3000034 0 16 = (gf s t 0x3000034 0 16 + 1) % 65536) ∧
        ((b, c) = (4, 1) → gf s' t 0x4000020 0 16 = (gf s t 0x4000020 0 16 + 1) % 65536) ∧
        ((b, c) ≠ (6, 2) → s'.ins = s.ins) ∧ Same [.regs, .mem, .flt, .trc, .ins] s s') ∧
    (∀ bits : BitVec 8, Reaches s t (fltB b 0) → Completes (.faultAcknowledge t b bits) s fun s' =>
      rreg s' t (fltB b 0) = rreg s t (fltB b 0) &&& ~~~(bits.setWidth 32) ∧
      (∀ x, x ∈ s'.flt.deadlines ↔ x ∈ s.flt.deadlines ∧
        ¬ (x.tile = t ∧ x.bank = b ∧ x.inst = none ∧ bit (bits.setWidth 32) x.cause = true)) ∧
      RegsBut (at_ t (fltB b 0)) s s' ∧ Same [.regs, .flt] s s') ∧
    (recordsOnly s t = true → (∀ i, exec (.classBExpiry t b i) s = .next s) ∧ exec (.classCExpiry t b) s = .next s) ∧
    (∀ i, (∀ x ∈ s.flt.deadlines, x.isB t b i = false) → exec (.classBExpiry t b i) s = .next s) ∧
    (∀ i x, recordsOnly s t = false → s.flt.deadlines = [x] → x.isB t b i = true → (instOf s i).state ≠ .free →
      (instOf s i).resetting = false → (tileSt s (i / 512)).fenced = false → 2 ≤ mode s (i / 512) →
      Completes (.classBExpiry t b i) s fun s' => (instOf s' i).resetting = true ∧ (resetRun s' i).isSome = true ∧
        gf s' t (fltB b 0x14) 0 16 = (gf s t (fltB b 0x14) 0 16 + 1) % 65536 ∧ s'.modes = s.modes ∧ s'.core = s.core) ∧
    ((∀ x ∈ s.flt.deadlines, ¬ (x.tile = t ∧ x.bank = b ∧ x.inst = none)) → exec (.classCExpiry t b) s = .next s) ∧
    (∀ x, s.core.scanned = false → recordsOnly s t = false → 2 ≤ mode s t → mode s t ≤ 5 → s.flt.deadlines = [x] → x.tile = t → x.bank = b → x.inst = none →
      Completes (.classCExpiry t b) s fun s' => mode s' t = 4 ∧ fld (Tbl.get 0 s'.modes t) 8 4 = 3 ∧
        (tileSt s' t).fenced = true ∧ (tileSt s' t).transitStop = (b == 2 || b == 3) ∧
        ∀ u, u ≠ t → Tbl.get 0 s'.modes u = Tbl.get 0 s.modes u) ∧
    (let l := Tbl.get {} s.flt.lost (t * 16 + b);
      (l.count = 0 ∨ faultToken s t = false → exec (.faultLossSummary t b) s = .next s) ∧
      (l.count ≠ 0 → faultToken s t = true → Completes (.faultLossSummary t b) s fun s' =>
        Tbl.get {} s'.flt.lost (t * 16 + b) = {} ∧ (∀ k, k ≠ t * 16 + b → Tbl.get {} s'.flt.lost k = Tbl.get {} s.flt.lost k) ∧
        Tbl.get 0 s'.flt.recSeq t = (Tbl.get 0 s.flt.recSeq t + 1) % 2 ^ 32 ∧ (alarmSlot s' t 113).active = true ∧
        Same [.regs, .mem, .flt, .trc] s s'))) ∧
  ∀ (s : State) (t : Nat), t < s.part.tiles →
    (mode s t ≤ 1 ∨ (tileSt s t).fenced = true ∨ Tbl.get [] s.evc.hfDue t = [] → exec (.headframeFaultService t) s = .next s) ∧
    (∀ m rest, 2 ≤ mode s t → (tileSt s t).fenced = false → Tbl.get [] s.evc.hfDue t = m :: rest → m < 262144 →
      Completes (.headframeFaultService t) s fun s' => Tbl.get [] s'.evc.hfDue t = rest ∧
        (∀ b, b < 14 → rreg s' t (fltB b 4) = (if pendBit s t (26624 + b) = true then 0 else rreg s t (fltB b 4))) ∧
        (∀ b c, b < 14 → c < 8 → pendBit s t (26624 + b) = true → bit (rreg s t (fltB b 4)) c = true →
          (alarmSlot s' t (8 * b + c)).active = true) ∧ Same [.regs, .evc, .trc] s s')

/-- DUMP_WRITE with no request, with a dump being written, or before Headframe of tile 0 runs, changes nothing; with no
slot free the request is lost and alarm 115 raised; else the slot named by the rule is being written, under the next
sequence number, and what it held is erased but for its start record. DUMP_COMPLETE with no dump being written changes
nothing; else the slot is COMPLETE and the newest, its 64-byte header stands at its start, the sequence number is
shown, and a waiting request steps up. DUMP_RELEASE that reaches its register releases a COMPLETE slot, whose RELEASED
word reads 0, and changes nothing of another. No byte of flash outside the slot changes. (R341, R342, R343, R345,
R349) -/
def Obligations.DumpsAreWrittenAndReleased : Prop :=
  ∀ (s : State),
    let base (k : Nat) : Nat := 0x2000000 + k * 0x2000000
    let out (k : Nat) (s' : State) : Prop := ∀ a, a < base k ∨ base k + 0x2000000 ≤ a → flashRead s' a 1 = flashRead s a 1
    (mode s 0 ≤ 1 ∨ s.flt.dump.isSome = true ∨ s.flt.dumpReq = none → exec .dumpWrite s = .next s) ∧
    (∀ r, 2 ≤ mode s 0 → s.flt.dump = none → s.flt.dumpReq = some r →
      (dumpSlot s = none → Completes .dumpWrite s fun s' => s'.flt.dumpReq = none ∧ s'.flt.dump = none ∧
        gf s' 0 0x8001000 29 1 = 1 ∧ (alarmSlot s' 0 115).active = true ∧ Same [.regs, .flt, .trc] s s') ∧
      (∀ k, dumpSlot s = some k → Completes .dumpWrite s fun s' => s'.flt.dumpReq = none ∧
        s'.flt.dump = some ⟨r, k, gf s 0 0x8001010 0 32 + 1⟩ ∧ slotState s' k = 4 ∧ gf s' 0 0x8001000 31 1 = 1 ∧ out k s' ∧
        (∀ a, base k ≤ a → a < base k + 0x2000000 → a < base k + 0xF00 ∨ base k + 0xF04 ≤ a → flashRead s' a 1 = [0xFF]) ∧
        s'.mem.mram = s.mem.mram ∧ RegsBut (at_ 0 0x8001000) s s' ∧ Same [.regs, .mem, .flt, .fresh] s s')) ∧
    (s.flt.dump = none → exec .dumpComplete s = .next s) ∧
    (∀ d, s.flt.dump = some d → d.slot < 2 → s.part.tiles ≤ 8 → Completes .dumpComplete s fun s' =>
      s'.flt.dump = none ∧ s'.flt.dumpReq = s.flt.dumpWait ∧ s'.flt.dumpWait = none ∧ slotState s' d.slot = 1 ∧
      gf s' 0 0x8001000 8 1 = d.slot ∧ gf s' 0 0x8001000 31 1 = 0 ∧ rreg s' 0 0x8001010 = word d.seq ∧ out d.slot s' ∧
      flashRead s' (base d.slot) 64 = dumpHeader s d ∧ s'.mem.mram = s.mem.mram ∧
      RegsBut (ats 0 [0x8001000, 0x8001010]) s s' ∧ Same [.regs, .mem, .flt] s s') ∧
    ∀ k, k < 2 → Reaches s 0 0x8001004 →
      (slotState s k ≠ 1 → exec (.dumpRelease k) s = .next s) ∧
      (slotState s k = 1 → Completes (.dumpRelease k) s fun s' => slotState s' k = 3 ∧ out k s' ∧
        flashRead s' (base k + 0x3C) 4 = [0, 0, 0, 0] ∧ s'.mem.mram = s.mem.mram ∧ RegsBut (at_ 0 0x8001000) s s' ∧
        Same [.regs, .mem] s s')

/-- CRYSTAL_STOP under main power lets the calendar run on the substitute, on VBAT marks the stop, and changes nothing
while it stands already; CRYSTAL_RESUME ends both. SLEW_END with the offset used up ends the slew, and else changes
nothing. CANARY_SAMPLE keeps a reading of a live tile with VALID where it is in range, and none of a fenced or
FIDDLEHEAD tile; with the worst slack below GUARD by more than HYST and no loop running it raises AGE_VREQ by one step
of 2.5 mV within 0.85 V and sends it. VOLTAGE_RAISE_STEP with no loop changes nothing; acknowledged, with the slack
still below GUARD, it takes the next step, and out of a re-plan ends the loop at GUARD; one not acknowledged restores
the request and ends the loop. REPLAN_START outside its second or while disabled, and PLAN_NOW that reaches its
register during a re-plan, or before Headframe runs, change nothing; REPLAN_START during a re-plan is counted; else
every live tile that is not fenced shows PLANNING. EQ_TRIAL_END with no re-plan, or in a fenced tile, changes nothing;
else the lane takes the setting of the largest eye height. REPLAN_END, with no re-plan or the voltage loop running,
changes nothing; else the tile's record is written, PLANNING clears and the re-plan is over. MAINT_GRANT opens the
window with its minutes and scope, with MINUTES 0 it ends one; MAINT_WINDOW_END of a window not open, or in a fenced
tile, changes nothing. (R351, R353, R355, R357, R358, R360, R361, R362, R364, R365, R366) -/
def Obligations.CalendarAndAgeingKeepTheirRecords : Prop :=
  (∀ s : State,
    (s.cal.still = true ∨ s.cal.dead = true → exec .crystalStop s = .next s) ∧
    (s.cal.still = false → s.cal.dead = false → s.core.pwrgood = false →
      exec .crystalStop s = .next { s with cal := { s.cal with still := true, stopFlag := true } }) ∧
    (s.cal.still = false → s.cal.dead = false → s.core.pwrgood = true → Completes .crystalStop s fun s' =>
      s'.cal = { s.cal with still := true, substitute := true } ∧ gf s' 0 0x90000A8 6 1 = 1) ∧
    exec .crystalResume s = .next { s with cal := { s.cal with still := false, substitute := false } } ∧
    (s.cal.slew ≠ 0 → exec .slewEnd s = .next s) ∧
    (s.cal.slew = 0 → exec .slewEnd s = .next { s with cal := { s.cal with slewing := false, slewTicks := 0 } }) ∧
    (∀ t m v, t < s.part.tiles → m < 64 →
      (mode s t ≤ 1 ∨ (tileSt s t).fenced = true → Completes (.canarySample [(t, m, v)]) s fun s' => s'.age.now = s.age.now) ∧
      (2 ≤ mode s t → (tileSt s t).fenced = false → Completes (.canarySample [(t, m, v)]) s fun s' =>
        canaryNow s' t m = word ((if Config.canaryInRange m v then 2 ^ 31 else 0) + (if m < 48 then v.toNat else v.toNat % 65536)) ∧
        ∀ k, k ≠ t * 64 + m → Tbl.get 0 s'.age.now k = Tbl.get 0 s.age.now k)) ∧
    (∀ v, worstSlack s = some v → s.age.volt = none → 2 ≤ mode s 0 →
      (v < guardOf s - hystOf s → vreq s < 8500 → Completes (.canarySample []) s fun s' =>
        vreq s' = Nat.min 8500 (vreq s + 25) ∧ s'.age.volt = some ⟨false, 1, vreq s, false, true⟩ ∧
        s'.outbox = s.outbox ++ [.pmbus (gf s 0 0xC000018 0 7) 0x21 (BitVec.ofNat 16 (Nat.min 8500 (vreq s + 25)))] ∧
        Same [.regs, .age, .outbox] s s') ∧
      (guardOf s - hystOf s ≤ v → Completes (.canarySample []) s fun s' => vreq s' = vreq s ∧ s'.age = s.age ∧ Same [.regs] s s')) ∧
    (s.age.volt = none → ∀ l a, exec (.voltageRaiseStep l a) s = .next s) ∧
    (∀ x v, s.age.volt = some x → worstSlack s = some v → x.lowered = false →
      (v < guardOf s → vreq s < 8500 → x.plan = false ∨ x.steps < 8 → Completes (.voltageRaiseStep [] true) s fun s' =>
        vreq s' = Nat.min 8500 (vreq s + 25) ∧
        s'.age.volt = some { x with steps := x.steps + 1, before := vreq s, lowered := false } ∧
        s'.outbox = s.outbox ++ [.pmbus (gf s 0 0xC000018 0 7) 0x21 (BitVec.ofNat 16 (Nat.min 8500 (vreq s + 25)))] ∧
        s'.pwr.retry = none ∧ Same [.regs, .age, .pwr, .outbox] s s') ∧
      (guardOf s ≤ v → x.plan = false → Completes (.voltageRaiseStep [] true) s fun s' =>
        s'.age.volt = none ∧ vreq s' = vreq s ∧ s'.pwr.retry = none)) ∧
    (∀ x, s.age.volt = some x → x.before < 65536 → Completes (.voltageRaiseStep [] false) s fun s' =>
      vreq s' = x.before ∧ s'.age.volt = none ∧ s'.pwr.retry = some 0x21) ∧
    (∀ l, s.cal.sec % 86400 ≠ gf s 0 0x9000090 0 17 ∨ gf s 0 0x9000080 1 1 = 0 ∨ mode s 0 ≤ 1 → exec (.replanStart l) s = .next s) ∧
    (Reaches s 0 0x9000080 → ∀ l, planning s = true ∨ mode s 0 ≤ 1 → exec (.planNow l) s = .next s) ∧
    (∀ l, s.cal.sec % 86400 = gf s 0 0x9000090 0 17 → gf s 0 0x9000080 1 1 = 1 → 2 ≤ mode s 0 → planning s = true →
      Completes (.replanStart l) s fun s' => s'.age = s.age ∧ Same [.regs] s s' ∧
        ∀ t, t < s.part.tiles → 2 ≤ mode s t → (tileSt s t).fenced = false →
          gf s' t 0x9000084 8 8 = Nat.min 255 (gf s t 0x9000084 8 8 + 1)) ∧
    (∀ c, ((c = .planNow [] ∧ Reaches s 0 0x9000080) ∨ (c = .replanStart [] ∧ s.cal.sec % 86400 = gf s 0 0x9000090 0 17 ∧ gf s 0 0x9000080 1 1 = 1)) →
      planning s = false → 2 ≤ mode s 0 → Completes c s fun s' => planning s' = true ∧
        (∀ t, t < s.part.tiles → 2 ≤ mode s t → (tileSt s t).fenced = false → gf s' t 0x9000084 31 1 = 1) ∧ s'.age.now = s.age.now ∧ Same [.regs, .age, .outbox] s s') ∧
    (s.age.plan = none ∨ s.age.volt ≠ none → ∀ l, exec (.replanEnd l) s = .next s) ∧
    (∀ p t, s.age.plan = some p → s.age.volt = none → p.recs = [t] → t < s.part.tiles → s.age.maintDue = [] → (tileSt s t).fenced = false →
      Completes (.replanEnd []) s fun s' => s'.age.plan = none ∧ gf s' t 0x9000084 31 1 = 0 ∧
        gf s' t 0x9000084 0 8 = (gf s t 0x9000084 0 8 + 1) % 256 ∧
        Tbl.get 0 s'.age.histSeq t = (Tbl.get 0 s.age.histSeq t + 1) % 2 ^ 32)) ∧
  (∀ (s : State) (t n : Nat) (x : EqTrial), t < s.part.tiles → n < 8 →
    (s.age.plan = none → exec (.eqTrialEnd t n x) s = .next s) ∧
    (∀ p, s.age.plan = some p →
      let k := (t * 11 + n) * 128 + x.lane
      let run := (tileSt s t).fenced = false ∧ t ∈ p.tiles ∧ mode s t = 3 ∧ linkState s t n = 6 ∧ x.lane < 8 ∧ k ∉ p.lanes ∧ x.height0 < gf s t 0x900008C 0 8 + 8;
      (¬ run → exec (.eqTrialEnd t n x) s = .next s) ∧
      (run → Completes (.eqTrialEnd t n x) s fun s' => (∃ q, s'.age.plan = some q ∧ q.lanes = p.lanes ++ [k] ∧ q.tiles = p.tiles) ∧
        (x.disturbed = true → s'.age.eq = s.age.eq) ∧
        (x.disturbed = false → ∃ c h, Tbl.get 0 s'.age.eq k = Tbl.get 0 s.age.eq k + c ∧
          (c, some h) ∈ [((0 : Int), some x.height0), (1, x.up), (-1, x.down)] ∧ x.height0 ≤ h ∧
          (∀ u, x.up = some u → u ≤ h) ∧ ∀ d, x.down = some d → d ≤ h) ∧
        Same [.age, .fresh] s s'))) ∧
  ∀ (s : State) (t : Nat), t < s.part.tiles →
    ((tileSt s t).fenced = true ∨ gf s t 0x9000084 30 1 = 0 → exec (.maintWindowEnd t) s = .next s) ∧
    (∀ c scope, (c = .maintWindowEnd t ∧ scope = gf s t 0x9000094 0 8 ∧ (tileSt s t).fenced = false) ∨
        (∃ v : BitVec 8, c = .maintGrant t 0 v ∧ scope = v.toNat ∧ Reaches s t 0x9000094) →
      gf s t 0x9000084 30 1 = 1 → Completes c s fun s' => gf s' t 0x9000084 30 1 = 0 ∧ gf s' t 0x9000094 8 8 = 0 ∧
        gf s' t 0x9000094 0 8 = scope ∧ gf s' t 0x90000A8 4 1 = 1 ∧ Same [.regs, .trc, .age] s s') ∧
    ∀ (minutes scope : BitVec 8), minutes ≠ 0 → Reaches s t 0x9000094 →
      let shown (s' : State) : Prop := rreg s' t 0x9000094 = word (minutes.toNat * 256 + scope.toNat) ∧ gf s' t 0x9000084 30 1 = 1 ∧
        BitsBut 30 1 (rreg s t 0x9000084) (rreg s' t 0x9000084) ∧ RegsBut (ats t [0x9000094, 0x9000084]) s s' ∧ Same [.regs, .age] s s'
      (mode s t ≤ 1 ∨ (tileSt s t).fenced = true ∨ Tbl.get [] s.age.lowPorts t = [] →
        Completes (.maintGrant t minutes scope) s shown) ∧
      (2 ≤ mode s t → (tileSt s t).fenced = false → planning s = true → Completes (.maintGrant t minutes scope) s fun s' =>
        shown s' ∧ Tbl.get false s'.age.maintDue t = true)

/-- While the ring does not run HELLO_SEND, TIME_SEND and RING_FRAME_RECEIVE change nothing. HELLO_SEND puts a HELLO with
its role and the alarm summary on both rings under the next SEQ; TIME_SEND of the manager its next whole second, of a
worker nothing. A frame that is not whole is counted; the package's own returning frame changes nothing, and one of
its identity that it has not sent sets ID_CLASH alone; a frame for another package goes on, unchanged, on the same
ring; a duplicate is counted; a HELLO of another package marks it seen and lets a package alone on its board no longer
be so. RING_RX_UP marks the receiver up; RING_RX_DOWN marks it down, and changes nothing where it was. PACKAGE_LOST
takes a package out of those seen, and changes nothing of one not seen or the package itself. GAL_SYNC_EDGE with a
TIME waiting sets the calendar of a worker that does not follow and begins to follow; SYNC_LOST and FOLLOWING_TIMEOUT
end SYNC_OK and FOLLOWING. (R371, R372, R373, R375, R377, R381, R382, R383, R385) -/
def Obligations.RingFramesAreSentAndTaken : Prop :=
  ∀ (s : State),
    (ringRuns s = false → exec .helloSend s = .next s ∧ exec .timeSend s = .next s ∧
      (∀ b l, exec (.ringFrameReceive b l) s = .next s) ∧ ∀ b, exec (.ringRxUp b) s = .next s) ∧
    (ringRuns s = true →
      let sends (kind flags arg : Nat) (pay : List Byte) (s' : State) : Prop := s'.outbox = s.outbox ++
        [.ring false (ringBytes kind (galId s) 0x80 flags s.gal.seq 0 arg pay),
         .ring true (ringBytes kind (galId s) 0x80 (flags + 1) s.gal.seq 0 arg pay)] ∧ s'.gal.seq = (s.gal.seq + 1) % 65536
      (Completes .helloSend s fun s' => sends 1 0 (b2n (galManager s) + 2 * b2n (galBit s 30) + 4 * b2n (galBit s 29))
        (wordBytes (alarmSummary s)) s' ∧ Same [.gal, .outbox] s s') ∧
      (galManager s = false → exec .timeSend s = .next s) ∧
      (galManager s = true → galBit s 29 = false → Completes .timeSend s fun s' => sends 2 (4 * b2n s.cal.valid) (s.cal.sec + 1) [] s' ∧
        galBit s' 25 = true ∧ s'.gal.syncDue = true ∧ RegsBut (at_ 0 0xB000000) s s' ∧ Same [.regs, .gal, .outbox] s s') ∧
      (∀ b, Completes (.ringRxUp b) s fun s' => galBit s' (if b then 26 else 27) = true ∧ RegsBut (at_ 0 0xB000000) s s' ∧
        Same [.regs] s s') ∧
      (∀ b l, let f := readFrame l
        (ringOk l = false → Completes (.ringFrameReceive b l) s fun s' =>
          gf s' 0 0xB000018 16 16 = (gf s 0 0xB000018 16 16 + 1) % 65536 ∧ RegsBut (at_ 0 0xB000018) s s' ∧ Same [.regs] s s') ∧
        (ringOk l = true → f.src = galId s →
          (l ∈ s.gal.sent → exec (.ringFrameReceive b l) s = .next s) ∧
          (l ∉ s.gal.sent → Completes (.ringFrameReceive b l) s fun s' => galBit s' 29 = true ∧
            BitsBut 29 1 (rreg s 0 0xB000000) (rreg s' 0 0xB000000) ∧ RegsBut (at_ 0 0xB000000) s s' ∧ Same [.regs] s s')) ∧
        (ringOk l = true → f.src ≠ galId s → clashes s f = false →
          (f.bcast = false → f.dest ≠ galId s → exec (.ringFrameReceive b l) s = .next (emit s (.ring b l))) ∧
          (f.bcast = true ∨ f.dest = galId s → isDuplicate s f = true → Completes (.ringFrameReceive b l) s fun s' =>
            gf s' 0 0xB000018 0 16 = (gf s 0 0xB000018 0 16 + 1) % 65536 ∧ RegsBut (at_ 0 0xB000018) s s' ∧
            s'.outbox = s.outbox ++ (if f.bcast then [.ring b l] else []) ∧ Same [.regs, .outbox] s s') ∧
          (f.bcast = true → isDuplicate s f = false → f.kind = 1 → Completes (.ringFrameReceive b l) s fun s' =>
            bit (rreg s' 0 0xB00000C) f.src = true ∧ galBit s' 28 = false ∧ s'.outbox = s.outbox ++ [.ring b l] ∧
            isDuplicate s' f = true ∧ Tbl.find? s'.gal.lost f.src = none ∧ Same [.regs, .trc, .gal, .outbox] s s')))) ∧
    (∀ b, let i := if b then 26 else 27
      (galBit s i = false → exec (.ringRxDown b) s = .next s) ∧
      (galBit s i = true → galBit s 28 = true → Completes (.ringRxDown b) s fun s' => galBit s' i = false ∧
        BitsBut i 1 (rreg s 0 0xB000000) (rreg s' 0 0xB000000) ∧ RegsBut (at_ 0 0xB000000) s s' ∧ Same [.regs] s s') ∧
      (galBit s i = true → galBit s 28 = false → Completes (.ringRxDown b) s fun s' => galBit s' i = false ∧
        (galBit s (53 - i) = true → gf s' 0 0xB000008 (b2n b) 1 = 1) ∧ s'.gal = s.gal)) ∧
    (∀ p, p < 32 →
      (p = galId s ∨ bit (rreg s 0 0xB00000C) p = false → exec (.packageLost p) s = .next s) ∧
      (p ≠ galId s → bit (rreg s 0 0xB00000C) p = true → Completes (.packageLost p) s fun s' =>
        bit (rreg s' 0 0xB00000C) p = false ∧ BitsBut p 1 (rreg s 0 0xB00000C) (rreg s' 0 0xB00000C) ∧
        Tbl.find? s'.gal.lost p = some () ∧ gf s' 0 0xB000008 2 1 = 1 ∧ Same [.regs, .trc, .gal] s s')) ∧
    (ringRuns s = false ∨ galManager s = true → exec .galSyncEdge s = .next s) ∧
    (ringRuns s = true → galManager s = false →
      (s.gal.time = none → Completes .galSyncEdge s fun s' => galBit s' 25 = true ∧ s'.cal = s.cal ∧
        RegsBut (at_ 0 0xB000000) s s' ∧ Same [.regs] s s') ∧
      (∀ sec, s.gal.time = some sec → galBit s 29 = false → s.cal.following = false → sec < 2 ^ 48 - 1 →
        Completes .galSyncEdge s fun s' => galBit s' 25 = true ∧ s'.gal.time = none ∧ s'.cal.following = true ∧ s'.cal.valid = true ∧
          s'.cal.sec = sec ∧ s'.cal.sub = gf s 0 0xB000010 0 8 * 2 ^ 32 / 1000000000 ∧ Same [.regs, .trc, .cal, .gal, .fresh] s s')) ∧
    (galManager s = true ∨ galBit s 25 = false → exec .syncLost s = .next s) ∧
    (galManager s = false → galBit s 25 = true → Completes .syncLost s fun s' => galBit s' 25 = false ∧
      gf s' 0 0xB000008 4 1 = 1 ∧ Same [.regs, .trc] s s') ∧
    exec .followingTimeout s = .next { s with cal := { s.cal with following := false } }

/-- RREAD, RWRITE, DIST_IMG, HF_ERASE, DIST_HF and HF_CHECK that reach their remote mailbox: with BUSY 1 nothing changes.
With BUSY 0 an index outside the operation's range ends with BAD_INDEX; a request to another package is refused, its
REASON saying why, where the package is in a clash (6), is no manager (1), has not seen the other (3), or has heard it
in a clash (6); else it leaves on both rings under the next SEQ, KIND 0x10 and on by operation, and the mailbox waits;
a request to the package itself waits to be served here and nothing is sent. REMOTE_TIMEOUT with no request out, or
with one served here, changes nothing; else the request ends REFUSED with REASON 2. (R84, R372, R376, R377, R378) -/
def Obligations.RemoteRequestsAreSentAndEnd : Prop :=
  ∀ (s : State) (m : Nat), m < 4 →
    let mb := 0xB000100 + 0x80 * m
    let d := rreg s 0 (0xB000300 + 4 * m)
    let dest := fld d 8 5
    let off := mbIndex s 0 mb
    (∀ c op, (c, op) ∈ [(Instr.rread m, 3), (.rwrite m, 4), (.distImg m, 5), (.hfErase m, 6), (.distHf m, 7), (.hfCheck m, 8)] → Heard s c →
      (gf s 0 mb 30 1 = 1 → exec c s = .next s) ∧
      (gf s 0 mb 30 1 = 0 →
        (rmtBad op off (fld d 0 5) = true → Completes c s fun s' => MbTakes 0 mb op badIndex s s' ∧ Same [.regs, .bus] s s') ∧
        (rmtBad op off (fld d 0 5) = false →
          let x : Rmt := { op := op, dest := dest, seq := s.gal.seq, off := off, count := fld d 0 5, copy := fld d 16 1, isLocal := false
                           data := (List.range 16).map (mbData s 0 mb) };
          (∀ why, dest ≠ galId s → (galBit s 29 = true ∧ why = 6) ∨
              (galBit s 29 = false ∧ galManager s = false ∧ why = 1) ∨
              (galBit s 29 = false ∧ galManager s = true ∧ bit (rreg s 0 0xB00000C) dest = false ∧ why = 3) ∨
              (galBit s 29 = false ∧ galManager s = true ∧ bit (rreg s 0 0xB00000C) dest = true ∧
                (Tbl.find? s.gal.clash dest).isSome = true ∧ why = 6) →
            Completes c s fun s' => gf s' 0 (0xB000300 + 4 * m) 24 8 = why ∧ gf s' 0 mb 30 1 = 1 ∧
              Tbl.get .running s'.bus.mb (key 0 mb) = refusedMb ∧ s'.outbox = s.outbox ∧
              RegsBut (ats 0 [mb, 0xB000300 + 4 * m]) s s' ∧ Same [.regs, .bus, .gal] s s') ∧
          (dest ≠ galId s → rmtWhy s dest = none → Completes c s fun s' => MbTakes 0 mb op .running s s' ∧
            Tbl.get none s'.gal.run m = some x ∧ s'.gal.seq = (s.gal.seq + 1) % 65536 ∧
            s'.outbox = s.outbox ++
              [.ring false (ringBytes (0xD + op) (galId s) dest 0 s.gal.seq 0 (rmtArg x) (rmtPayload x)),
               .ring true (ringBytes (0xD + op) (galId s) dest 1 s.gal.seq 0 (rmtArg x) (rmtPayload x))] ∧
            Same [.regs, .bus, .gal, .outbox] s s') ∧
          (dest = galId s → Completes c s fun s' => MbTakes 0 mb op .running s s' ∧
            (∃ y, Tbl.get none s'.gal.run m = some y ∧ y.isLocal = true ∧ y.op = op ∧ y.off = off ∧ y.count = fld d 0 5) ∧
            Same [.regs, .bus, .gal] s s')))) ∧
    ((∀ x, Tbl.get none s.gal.run m = some x → x.isLocal = true) → exec (.remoteTimeout m) s = .next s) ∧
    ∀ x, Tbl.get none s.gal.run m = some x → x.isLocal = false → Completes (.remoteTimeout m) s fun s' =>
      Tbl.get none s'.gal.run m = none ∧ gf s' 0 (0xB000300 + 4 * m) 24 8 = 2 ∧
      Tbl.get .running s'.bus.mb (key 0 mb) = refusedMb ∧ RegsBut (at_ 0 (0xB000300 + 4 * m)) s s' ∧ Same [.regs, .bus, .gal] s s'

/-- TRACE_LOSS_SUMMARY with nothing lost, no token or the ring held changes nothing; else the losses are told once and
alarm 112 is active. GOVERNOR_WINDOW of a tile that is not OFF moves the estimate toward the activity by no more than
one step up or down and not above the ceiling unless a fall of one step does not reach it, and shows it in units of
0.1 A with THROTTLED where the activity is not met. TEMP_SAMPLE shows the hottest sensor and its number; above 125 °C
THERMTRIP_N is driven, once. VBAT_SAMPLE shows the voltage, LOW below 2.2 V and whether the supply charges.
CHARGE_CONTROL_WRITE that reaches its register takes CHARGE only under its key. PMBUS_RETRY sends again what was not
acknowledged, and changes nothing with nothing to send; VRM_ALERT sets its event; READ_VOUT_SAMPLE shows the voltage
read back. SMBUS_BLOCK_READ answers the known commands and changes no state; a package without power or in reset
answers and samples nothing. (R388, R391, R399, R400, R401, R404, R405, R406, R428, R429) -/
def Obligations.TracesPowerAndManagementBus : Prop :=
  (∀ (s : State) (t b : Nat), t < s.part.tiles → b < 14 →
    let l := Tbl.get {} s.trc.lost (t * 16 + b)
    (l.count = 0 ∨ hasToken s t b = false ∨ ringHeld s t b = true → exec (.traceLossSummary t b) s = .next s) ∧
    (l.count ≠ 0 → hasToken s t b = true → ringHeld s t b = false → Completes (.traceLossSummary t b) s fun s' =>
      Tbl.get {} s'.trc.lost (t * 16 + b) = {} ∧ Tbl.get 0 s'.trc.seq (t * 16 + b) = (Tbl.get 0 s.trc.seq (t * 16 + b) + 1) % 2 ^ 32 ∧
      Tbl.get 0 s'.trc.tokensUsed (t * 16 + b) = Tbl.get 0 s.trc.tokensUsed (t * 16 + b) + 32768 ∧
      (alarmSlot s' t 112).active = true ∧ Same [.regs, .trc] s s')) ∧
  (∀ (s : State) (t wanted : Nat), t < s.part.tiles →
    (mode s t = 0 → exec (.governorWindow t wanted) s = .next s) ∧
    (1 ≤ mode s t → Completes (.governorWindow t wanted) s fun s' =>
      let e := Tbl.get 0 s.pwr.est t
      let e' := Tbl.get 0 s'.pwr.est t
      e' ≤ e + govStep s ∧ e ≤ e' + govStep s ∧ (govCeil s < e' → e' = e - govStep s) ∧
      (wanted * 8 ≤ e + govStep s → wanted * 8 ≤ govCeil s → e ≤ wanted * 8 + govStep s → e' = wanted * 8) ∧
      gf s' t 0xC000008 0 12 = Nat.min 4095 (e' / 8) ∧ gf s' t 0xC000008 31 1 = b2n (decide (e' < wanted * 8)))) ∧
  (∀ (s : State) (t : Nat) (a b c d : Int), t < s.part.tiles →
    (mode s t = 0 → exec (.tempSample t a b c d) s = .next s) ∧
    (1 ≤ mode s t →
      let h := max (max a b) (max c d)
      let k := if a = h then 0 else if b = h then 1 else if c = h then 2 else 3;
      (-128 ≤ h → h ≤ 127 → Completes (.tempSample t a b c d) s fun s' =>
        signed 8 (gf s' t 0xC000010 0 8) = h ∧ gf s' t 0xC000010 8 2 = k ∧ gf s' t 0xC000010 31 1 = 1 ∧
        (110 < h → gf s' t 0xC000028 2 1 = 1)) ∧
      (h ≤ 125 → Completes (.tempSample t a b c d) s fun s' => s'.outbox = s.outbox ∧ s'.core = s.core ∧ Same [.regs, .trc] s s') ∧
      (125 < h → Completes (.tempSample t a b c d) s fun s' => s'.core.thermtrip = true ∧
        (s.core.thermtrip = false → ∃ l, s'.outbox = s.outbox ++ l ++ [.thermtrip])))) ∧
  ∀ s : State,
    (∀ mv, (s.core.pwrgood = false ∨ s.core.resetN = false → exec (.vbatSample mv) s = .next s) ∧
      (s.core.pwrgood = true → s.core.resetN = true → Completes (.vbatSample mv) s fun s' =>
        gf s' 0 0xC000024 0 12 = Nat.min 4095 mv ∧ gf s' 0 0xC000024 31 1 = b2n (decide (mv < 2200)) ∧
        gf s' 0 0xC000024 30 1 = b2n (gf s 0 0xC000020 0 1 == 1 && decide (1800 ≤ mv)) ∧
        (mv < 2200 → gf s' 0 0xC000028 4 1 = 1) ∧ Same [.regs, .trc] s s')) ∧
    (∀ (be : BitVec 4) (v : Word), Reaches s 0 0xC000020 →
      (be.getLsbD 3 = false ∨ be.getLsbD 0 = false ∨ fld v 24 8 ≠ 0x43 → exec (.chargeControlWrite be v) s = .next s) ∧
      (be.getLsbD 3 = true → be.getLsbD 0 = true → fld v 24 8 = 0x43 → Completes (.chargeControlWrite be v) s fun s' =>
        gf s' 0 0xC000020 0 1 = fld v 0 1 ∧
        gf s' 0 0xC000024 30 1 = b2n (fld v 0 1 == 1 && s.core.pwrgood && decide (1800 ≤ gf s 0 0xC000024 0 12)) ∧
        RegsBut (ats 0 [0xC000020, 0xC000024]) s s' ∧ Same [.regs] s s')) ∧
    (s.pwr.retry = none → ∀ a, exec (.pmbusRetry a) s = .next s) ∧
    (∀ k, s.pwr.retry = some k →
      (∃ data, Completes (.pmbusRetry true) s fun s' => s'.pwr.retry = none ∧
        s'.outbox = s.outbox ++ [.pmbus (gf s 0 0xC000018 0 7) k data] ∧ gf s' 0 0xC00001C 30 2 = 0 ∧ Same [.regs, .pwr, .outbox] s s') ∧
      Completes (.pmbusRetry false) s fun s' => s'.pwr.retry = some k ∧ gf s' 0 0xC00001C 31 1 = 1 ∧ gf s' 0 0xC000028 3 1 = 1 ∧
        Same [.regs, .trc, .pwr, .outbox] s s') ∧
    (s.core.pwrgood = false ∨ s.core.resetN = false → exec .vrmAlert s = .next s ∧ (∀ a v, exec (.readVoutSample a v) s = .next s) ∧
      ∀ k, exec (.smbusBlockRead k) s = .next s) ∧
    (s.core.pwrgood = true → s.core.resetN = true →
      (Completes .vrmAlert s fun s' => gf s' 0 0xC000028 5 1 = 1 ∧ Same [.regs, .trc] s s') ∧
      (∀ v : BitVec 16, Completes (.readVoutSample true v) s fun s' => gf s' 0 0xC00001C 0 16 = v.toNat ∧ s'.pwr.retry = none ∧
        s'.outbox = s.outbox ++ [.pmbus (gf s 0 0xC000018 0 7) 0x8B 0] ∧ Same [.regs, .pwr, .outbox] s s') ∧
      (∀ v : BitVec 16, Completes (.readVoutSample false v) s fun s' => gf s' 0 0xC00001C 0 16 = gf s 0 0xC00001C 0 16 ∧
        s'.pwr.retry = some 0x8B ∧ Same [.regs, .trc, .pwr, .outbox] s s') ∧
      (∀ k : BitVec 8, 8 ≤ k.toNat → exec (.smbusBlockRead k) s = .next s) ∧
      exec (.smbusBlockRead 1) s = .next (emit s (.smbus 1 (wordBytes (rreg s 0 0x11C)))) ∧
      exec (.smbusBlockRead 2) s = .next (emit s (.smbus 2 (wordBytes (rreg s 0 0x118)))) ∧
      exec (.smbusBlockRead 5) s = .next (emit s (.smbus 5 (wordBytes (alarmSummary s)))))
end

