-- ==== Sys2Proof/Laws/Flits.lean ====
section
/-! SUPPORT. Laws of bytes and of flits (R141, R142): what is written little-endian reads back, and a flit that the sender forms passes
the receiver's check. -/

namespace Sys2Proof.Machine

open Sys2Proof

@[simp] theorem leBytes_length (n v : Nat) : (leBytes n v).length = n := by
  induction n generalizing v with
  | zero => rfl
  | succ n ih => simp [leBytes, ih]

theorem leNat_leBytes (n v : Nat) : leNat (leBytes n v) = v % 256 ^ n := by
  induction n generalizing v with
  | zero => simp [leBytes, leNat, Nat.mod_one]
  | succ n ih =>
    simp only [leBytes, leNat, ih, BitVec.toNat_ofNat]
    rw [show 256 ^ (n + 1) = 256 * 256 ^ n from Nat.pow_succ', Nat.mod_mul]

@[simp] theorem bytesAt_length (l : List Byte) (off n : Nat) : (bytesAt l off n).length = n := by
  simp only [bytesAt, List.length_append, List.length_replicate, List.length_take, List.length_drop]
  omega

theorem bytesAt_append (l r : List Byte) : bytesAt (l ++ r) l.length r.length = r := by
  simp [bytesAt]

@[simp] theorem flitBytes_body_length (h : FlitHdr) (p : List Byte) : (h.bytes ++ bytesAt p 0 240).length = 248 := by
  simp [FlitHdr.bytes]

/-- A flit as it is sent passes the check of its receiver, whatever its header and payload (R141). -/
theorem flitOk_flitBytes (h : FlitHdr) (p : List Byte) : flitOk (flitBytes h p) = true := by
  have hb := flitBytes_body_length h p
  have hl : leAt (flitBytes h p) 248 8 = (crc64 (h.bytes ++ bytesAt p 0 240)).toNat := by
    rw [leAt, flitBytes, ← hb]
    have := bytesAt_append (h.bytes ++ bytesAt p 0 240) (leBytes 8 (crc64 (h.bytes ++ bytesAt p 0 240)).toNat)
    rw [leBytes_length] at this
    rw [this, leNat_leBytes]
    exact Nat.mod_eq_of_lt (BitVec.isLt _)
  have ht : (flitBytes h p).take 248 = h.bytes ++ bytesAt p 0 240 := by
    rw [flitBytes, ← hb, List.take_left]
  have hn : (flitBytes h p).length = 256 := by
    rw [flitBytes, List.length_append, hb, leBytes_length]
  simp [flitOk, hl, ht, hn]

end Sys2Proof.Machine
end

