-- ==== Sys2Proof/Laws/Table.lean ====
section
/-! SUPPORT. Sparse tables and memories: a read after a write, and that every operation keeps the canonical form. -/

namespace Sys2Proof.Laws

open Sys2Proof Sys2Proof.Machine

variable {α : Type}

/-! ## Reads after writes -/

theorem find_ins_same (t : Tbl α) (k : Nat) (x : α) : Tbl.find? (Tbl.ins t k x) k = some x := by
  induction t with
  | nil => simp [Tbl.ins, Tbl.find?]
  | cons e r ih =>
    obtain ⟨a, v⟩ := e
    simp only [Tbl.ins]
    split
    · simp [Tbl.find?]
    · split
      · simp [Tbl.find?]
      · rename_i h
        simp [Tbl.find?, ih, Ne.symm h]

theorem find_ins_other (t : Tbl α) {k j : Nat} (x : α) (h : j ≠ k) :
    Tbl.find? (Tbl.ins t k x) j = Tbl.find? t j := by
  induction t with
  | nil => simp [Tbl.ins, Tbl.find?, Ne.symm h]
  | cons e r ih =>
    obtain ⟨a, v⟩ := e
    simp only [Tbl.ins]
    split
    · simp [Tbl.find?, Ne.symm h]
    · split
      · subst_vars; simp [Tbl.find?, Ne.symm h]
      · simp [Tbl.find?, ih]

theorem get_ins_same (t : Tbl α) (d : α) (k : Nat) (x : α) : Tbl.get d (Tbl.ins t k x) k = x := by
  rw [Tbl.get, find_ins_same]
  rfl

theorem get_ins_other (t : Tbl α) (d : α) {k j : Nat} (x : α) (h : j ≠ k) :
    Tbl.get d (Tbl.ins t k x) j = Tbl.get d t j := by
  rw [Tbl.get, find_ins_other _ _ h, Tbl.get]

theorem find_del_same (t : Tbl α) (k : Nat) : Tbl.find? (Tbl.del t k) k = none := by
  induction t with
  | nil => rfl
  | cons e r ih =>
    obtain ⟨a, v⟩ := e
    simp only [Tbl.del]
    split
    · exact ih
    · simp [Tbl.find?, *]

theorem find_del_other (t : Tbl α) {k j : Nat} (h : j ≠ k) : Tbl.find? (Tbl.del t k) j = Tbl.find? t j := by
  induction t with
  | nil => rfl
  | cons e r ih =>
    obtain ⟨a, v⟩ := e
    simp only [Tbl.del]
    split
    · subst_vars; simp [Tbl.find?, ih, Ne.symm h]
    · simp [Tbl.find?, ih]

/-- A key reads back what was written to it. -/
@[simp] theorem get_set_same [DecidableEq α] (d : α) (t : Tbl α) (k : Nat) (v : α) : Tbl.get d (Tbl.set d t k v) k = v := by
  unfold Tbl.get Tbl.set
  split
  · simp [find_del_same, *]
  · simp [find_ins_same]

/-- A write leaves every other key alone. -/
theorem get_set_other [DecidableEq α] (d d' : α) (t : Tbl α) {k j : Nat} (v : α) (h : j ≠ k) :
    Tbl.get d (Tbl.set d' t k v) j = Tbl.get d t j := by
  unfold Tbl.get Tbl.set
  split
  · rw [find_del_other t h]
  · rw [find_ins_other t v h]

/-! ## The canonical form -/

/-- The canonical form as a proposition: keys rising, no entry equal to its default. -/
def Canon (d : Nat → α) (t : Tbl α) : Prop := t.Pairwise (fun a b => a.1 < b.1) ∧ ∀ e ∈ t, e.2 ≠ d e.1

theorem wf_iff [DecidableEq α] (d : Nat → α) (t : Tbl α) : Tbl.wf d t = true ↔ Canon d t := by
  induction t with
  | nil => simp [Tbl.wf, Canon]
  | cons e r ih =>
    obtain ⟨a, v⟩ := e
    simp only [Tbl.wf, Bool.and_eq_true, ih, Canon, bne_iff_ne, ne_eq, List.all_eq_true, decide_eq_true_eq,
      List.pairwise_cons, List.mem_cons, forall_eq_or_imp]
    constructor
    · rintro ⟨⟨h1, h2⟩, h3, h4⟩
      exact ⟨⟨h2, h3⟩, h1, h4⟩
    · rintro ⟨⟨h2, h3⟩, h1, h4⟩
      exact ⟨⟨h1, h2⟩, h3, h4⟩

theorem rising_iff (t : Tbl α) : Tbl.rising t = true ↔ t.Pairwise (fun a b => a.1 < b.1) := by
  induction t with
  | nil => simp [Tbl.rising]
  | cons e r ih =>
    obtain ⟨a, v⟩ := e
    simp only [Tbl.rising, Bool.and_eq_true, ih, List.all_eq_true, decide_eq_true_eq, List.pairwise_cons]

theorem mem_ins {t : Tbl α} {k : Nat} {x : α} {e : Nat × α} (h : e ∈ Tbl.ins t k x) : e = (k, x) ∨ e ∈ t := by
  induction t with
  | nil => simpa [Tbl.ins] using h
  | cons f r ih =>
    obtain ⟨a, v⟩ := f
    simp only [Tbl.ins] at h
    split at h
    · simpa using h
    · split at h
      · rcases List.mem_cons.1 h with h | h
        · exact .inl h
        · exact .inr (List.mem_cons_of_mem _ h)
      · rcases List.mem_cons.1 h with h | h
        · exact .inr (h ▸ List.mem_cons_self)
        · exact (ih h).imp id (List.mem_cons_of_mem _)

theorem del_sublist (t : Tbl α) (k : Nat) : (Tbl.del t k).Sublist t := by
  induction t with
  | nil => exact List.Sublist.slnil
  | cons e r ih =>
    obtain ⟨a, v⟩ := e
    simp only [Tbl.del]
    split
    · exact ih.cons _
    · exact ih.cons_cons _

theorem Canon.sublist {d : Nat → α} {t u : Tbl α} (h : Canon d t) (s : u.Sublist t) : Canon d u :=
  ⟨h.1.sublist s, fun e he => h.2 e (s.subset he)⟩

theorem Canon.filter {d : Nat → α} {t : Tbl α} (h : Canon d t) (p : Nat × α → Bool) : Canon d (t.filter p) :=
  h.sublist List.filter_sublist

theorem Canon.del {d : Nat → α} {t : Tbl α} (h : Canon d t) (k : Nat) : Canon d (Tbl.del t k) :=
  h.sublist (del_sublist t k)

/-- Putting a value at a key keeps the keys rising. -/
theorem pairwise_ins {t : Tbl α} (hp : t.Pairwise (fun a b => a.1 < b.1)) (k : Nat) (x : α) :
    (Tbl.ins t k x).Pairwise (fun a b => a.1 < b.1) := by
  induction t with
  | nil => simp [Tbl.ins]
  | cons e r ih =>
    obtain ⟨a, v⟩ := e
    obtain ⟨h1, h2⟩ := List.pairwise_cons.1 hp
    simp only [Tbl.ins]
    split
    · rename_i hk
      refine List.pairwise_cons.2 ⟨fun b hb => ?_, hp⟩
      rcases List.mem_cons.1 hb with rfl | hb
      · exact hk
      · exact Nat.lt_trans hk (h1 b hb)
    · split
      · subst_vars
        exact List.pairwise_cons.2 ⟨h1, h2⟩
      · refine List.pairwise_cons.2 ⟨fun b hb => ?_, ih h2⟩
        rcases mem_ins hb with rfl | hb
        · simp only; omega
        · exact h1 b hb

theorem Canon.ins {d : Nat → α} {t : Tbl α} (h : Canon d t) {k : Nat} {x : α} (hx : x ≠ d k) :
    Canon d (Tbl.ins t k x) := by
  refine ⟨pairwise_ins h.1 k x, fun e he => ?_⟩
  · rcases mem_ins he with rfl | he
    · exact hx
    · exact h.2 e he

/-- A write keeps the canonical form. -/
theorem Canon.set [DecidableEq α] {d : Nat → α} {t : Tbl α} (h : Canon d t) (k : Nat) (v : α) :
    Canon d (Tbl.set (d k) t k v) := by
  unfold Tbl.set
  split
  · exact h.del k
  · exact h.ins ‹_›

/-- Two runs one above the other. -/
theorem Canon.append {d : Nat → α} {t u : Tbl α} (h : Canon d t) (h' : Canon d u)
    (lt : ∀ a ∈ t, ∀ b ∈ u, a.1 < b.1) : Canon d (t ++ u) :=
  ⟨List.pairwise_append.2 ⟨h.1, h'.1, lt⟩, fun e he => (List.mem_append.1 he).elim (h.2 e) (h'.2 e)⟩

/-! ## Runs of bytes -/

theorem cells_ge {d : Byte} {l : List Byte} {a : Nat} {e : Host.Cell} (h : e ∈ Mem.cells d a l) :
    a ≤ e.1 ∧ e.1 < a + l.length ∧ e.2 ≠ d := by
  induction l generalizing a with
  | nil => simp [Mem.cells] at h
  | cons b r ih =>
    simp only [Mem.cells] at h
    split at h
    · have := ih h; simp only [List.length_cons]; exact ⟨by omega, by omega, this.2.2⟩
    · rcases List.mem_cons.1 h with rfl | h
      · simp only [List.length_cons]; exact ⟨Nat.le_refl _, by omega, ‹_›⟩
      · have := ih h; simp only [List.length_cons]; exact ⟨by omega, by omega, this.2.2⟩

theorem cells_canon (d : Byte) (a : Nat) (l : List Byte) : Canon (fun _ => d) (Mem.cells d a l) := by
  refine ⟨?_, fun e he => (cells_ge he).2.2⟩
  induction l generalizing a with
  | nil => simp [Mem.cells]
  | cons b r ih =>
    simp only [Mem.cells]
    split
    · exact ih _
    · exact List.pairwise_cons.2 ⟨fun e he => (cells_ge he).1, ih _⟩

/-- A run of bytes written keeps a memory's canonical form. -/
theorem Canon.writeN {d : Byte} {m : List Host.Cell} (h : Canon (fun _ => d) m) (a : Nat) (l : List Byte) :
    Canon (fun _ => d) (Mem.writeN d m a l) := by
  unfold Mem.writeN
  refine Canon.append (Canon.append (h.filter _) (cells_canon d a l) ?_) (h.filter _) ?_
  · intro x hx y hy
    have := (cells_ge hy).1
    simp only [List.mem_filter, decide_eq_true_eq] at hx
    omega
  · intro x hx y hy
    simp only [List.mem_filter, decide_eq_true_eq] at hy
    rcases List.mem_append.1 hx with hx | hx
    · simp only [List.mem_filter, decide_eq_true_eq] at hx; omega
    · have := (cells_ge hx).2.1; omega

theorem find_append (t u : Tbl α) (k : Nat) : Tbl.find? (t ++ u) k = (Tbl.find? t k).or (Tbl.find? u k) := by
  induction t with
  | nil => rfl
  | cons e r ih =>
    obtain ⟨a, v⟩ := e
    simp only [List.cons_append, Tbl.find?]
    split
    · rfl
    · exact ih

theorem find_filter (p : Nat → Bool) (t : Tbl α) (k : Nat) :
    Tbl.find? (t.filter (fun e => p e.1)) k = if p k then Tbl.find? t k else none := by
  induction t with
  | nil => simp [Tbl.find?]
  | cons e r ih =>
    obtain ⟨a, v⟩ := e
    simp only [List.filter_cons, Tbl.find?]
    by_cases hk : a = k
    · subst hk
      by_cases hp : p a <;> simp [hp, Tbl.find?, ih]
    · by_cases hp : p a <;> simp [hp, hk, Tbl.find?, ih]

theorem find_cells (d : Byte) (a : Nat) (l : List Byte) (k : Nat) :
    (Tbl.find? (Mem.cells d a l) k).getD d = if a ≤ k then l.getD (k - a) d else d := by
  induction l generalizing a with
  | nil => simp [Mem.cells, Tbl.find?]
  | cons b r ih =>
    simp only [Mem.cells]
    by_cases hk : a = k
    · subst hk
      split
      · rw [ih]; simp [show ¬ a + 1 ≤ a by omega, *]
      · simp [Tbl.find?]
    · have e : (if a + 1 ≤ k then r.getD (k - (a + 1)) d else d) = if a ≤ k then (b :: r).getD (k - a) d else d := by
        by_cases h1 : a + 1 ≤ k
        · have : k - a = (k - (a + 1)) + 1 := by omega
          simp [h1, this, show a ≤ k by omega]
        · simp [h1, show ¬ a ≤ k by omega]
      split
      · rw [ih, e]
      · simp only [Tbl.find?, hk, if_false]; rw [ih, e]

/-- A byte inside a written run reads as written. -/
theorem read_writeN_in (d : Byte) (m : List Host.Cell) (a : Nat) (l : List Byte) {k : Nat} (h : a ≤ k)
    (h' : k < a + l.length) : Mem.read d (Mem.writeN d m a l) k = l.getD (k - a) d := by
  have e := find_cells d a l k
  unfold Mem.read Tbl.get Mem.writeN
  rw [find_append, find_append, find_filter (fun j => decide (j < a)), find_filter (fun j => decide (a + l.length ≤ j))]
  simp [show ¬ k < a by omega, show ¬ a + l.length ≤ k by omega]
  simpa [h] using e

/-- A byte outside a written run reads as before. -/
theorem read_writeN_out (d : Byte) (m : List Host.Cell) (a : Nat) (l : List Byte) {k : Nat}
    (h : k < a ∨ a + l.length ≤ k) : Mem.read d (Mem.writeN d m a l) k = Mem.read d m k := by
  have hn : Tbl.find? (Mem.cells d a l) k = none := by
    have key : ∀ t : Tbl Byte, (∀ e ∈ t, e.1 ≠ k) → Tbl.find? t k = none := by
      intro t
      induction t with
      | nil => intro _; rfl
      | cons e r ih =>
        intro he
        obtain ⟨b, v⟩ := e
        have := he _ List.mem_cons_self
        simp only [Tbl.find?]
        rw [if_neg this]
        exact ih (fun x hx => he x (List.mem_cons_of_mem _ hx))
    exact key _ (fun e he => by have := cells_ge he; omega)
  unfold Mem.read Tbl.get Mem.writeN
  rw [find_append, find_append, find_filter (fun j => decide (j < a)), find_filter (fun j => decide (a + l.length ≤ j)), hn]
  rcases h with h | h
  · simp [h, show ¬ a + l.length ≤ k by omega]
  · simp [h, show ¬ k < a by omega]

end Sys2Proof.Laws
end

