-- ==== Sys2Proof/Laws/Within.lean ====
section
/-! SUPPORT. How changes within groups compose, and one lemma per group for the update of that group. -/

namespace Sys2Proof.Machine

open Sys2Proof Sys2Proof.Laws

/-- The first list's groups all stand in the second. -/
def Grp.sub (a b : List Grp) : Bool := a.all (fun g => b.contains g)

theorem ModeMoves.trans {a b c : Word} (h : ModeMoves a b) (h' : ModeMoves b c) : ModeMoves a c := by
  induction h' with
  | refl => exact h
  | off => exact .off _
  | held _ ih => exact .held ih
  | row m c _ r ih => exact .row m c ih r

theorem Keeps.refl (s : State) : Keeps s s :=
  ⟨rfl, fun _ => .refl _, rfl, rfl, List.prefix_rfl, Nat.le_refl _, Nat.le_refl _, Nat.le_refl _, fun _ h => h, id, id⟩

theorem Keeps.trans {a b c : State} (h : Keeps a b) (h' : Keeps b c) : Keeps a c :=
  ⟨h'.part.trans h.part, fun t => (h.modes t).trans (h'.modes t), h'.fuses.trans h.fuses, h'.pending.trans h.pending, h.outbox.trans h'.outbox,
    Nat.le_trans h.fresh h'.fresh, Nat.le_trans h.ticks h'.ticks, Nat.le_trans h.floor h'.floor,
    fun k hk => h'.keyHash k (h.keyHash k hk), fun x => h'.regs (h.regs x), fun x => h'.mem (h.mem x)⟩

theorem Same.refl (l : List Grp) (s : State) : Same l s s := by
  intro g _; cases g <;> rfl

theorem Same.trans {l : List Grp} {a b c : State} (h : Same l a b) (h' : Same l b c) : Same l a c := by
  intro g hg
  have x := h g hg
  have y := h' g hg
  cases g <;> exact Eq.trans y x

theorem Same.mono {l m : List Grp} {a b : State} (h : Same l a b) (hs : Grp.sub l m = true) : Same m a b := by
  intro g hg
  refine h g ?_
  cases hl : l.contains g
  · rfl
  · rw [Grp.sub, List.all_eq_true] at hs
    have := hs g (by simpa using hl)
    simp_all

theorem Within.refl (l : List Grp) (s : State) : Within l s s := ⟨Same.refl l s, Keeps.refl s⟩

theorem Within.trans {l : List Grp} {a b c : State} (h : Within l a b) (h' : Within l b c) : Within l a c :=
  ⟨h.same.trans h'.same, h.keeps.trans h'.keeps⟩

theorem Within.mono {l m : List Grp} {a b : State} (h : Within l a b) (hs : Grp.sub l m = true) : Within m a b :=
  ⟨h.same.mono hs, h.keeps⟩

/-- One more change after those so far. -/
theorem Within.step {l m : List Grp} {a b c : State} (h : Within m b c) (hs : Grp.sub m l = true) (h' : Within l a b) :
    Within l a c := h'.trans (h.mono hs)

/-- Changes folded over a list. -/
theorem Within.foldl {α : Type} {l : List Grp} {a : State} {f : State → α → State} (xs : List α) {b : State}
    (h : ∀ s x, Within l a s → Within l a (f s x)) (hb : Within l a b) : Within l a (xs.foldl f b) := by
  induction xs generalizing b with
  | nil => exact hb
  | cons x r ih => exact ih (h b x hb)

/-- Changes folded over a list, with a second value beside the state. -/
theorem Within.foldlFst {α β : Type} {l : List Grp} {a : State} {f : State × β → α → State × β} (xs : List α)
    {b : State × β} (h : ∀ s x, Within l a s.1 → Within l a (f s x).1) (hb : Within l a b.1) :
    Within l a (xs.foldl f b).1 := by
  induction xs generalizing b with
  | nil => exact hb
  | cons x r ih => exact ih (h b x hb)

/-- The same with the state as the second value. -/
theorem Within.foldlSnd {α β : Type} {l : List Grp} {a : State} {f : β × State → α → β × State} (xs : List α)
    {b : β × State} (h : ∀ s x, Within l a s.2 → Within l a (f s x).2) (hb : Within l a b.2) :
    Within l a (xs.foldl f b).2 := by
  induction xs generalizing b with
  | nil => exact hb
  | cons x r ih => exact ih (h b x hb)

/-- What a state may become through an operation that may answer none. -/
theorem optGetD {l : List Grp} {a d : State} {o : Option State} (h : ∀ s', o = some s' → Within l a s') (hd : Within l a d) :
    Within l a (o.getD d) := by
  cases o with
  | none => exact hd
  | some s' => exact h s' rfl

theorem Grp.sub_trans {k m l : List Grp} (h : Grp.sub k m = true) (h' : Grp.sub m l = true) : Grp.sub k l = true := by
  simp only [Grp.sub, List.all_eq_true, List.contains_iff_mem] at *
  exact fun g hg => h' g (h g hg)

theorem Within.ite {l : List Grp} {a b c : State} {p : Prop} [Decidable p] (h : Within l a b) (h' : Within l a c) :
    Within l a (if p then b else c) := by split <;> assumption

end Sys2Proof.Machine

namespace Sys2Proof.Laws

open Sys2Proof Sys2Proof.Machine

theorem upd_modes (s : State) (x : Tbl Word) (h : ∀ t, ModeMoves (Tbl.get 0 s.modes t) (Tbl.get 0 x t)) :
    Within [.modes] s { s with modes := x } :=
  ⟨fun g hg => by cases g <;> first | rfl | exact absurd hg (by decide), ⟨rfl, h, rfl, rfl, List.prefix_rfl, Nat.le_refl _, Nat.le_refl _, Nat.le_refl _, fun _ h => h, id, id⟩⟩

theorem upd_bus (s : State) (x : BusSt) : Within [.bus] s { s with bus := x } :=
  ⟨fun g hg => by cases g <;> first | rfl | exact absurd hg (by decide), ⟨rfl, fun _ => .refl _, rfl, rfl, List.prefix_rfl, Nat.le_refl _, Nat.le_refl _, Nat.le_refl _, fun _ h => h, id, id⟩⟩

theorem upd_evc (s : State) (x : EvcSt) : Within [.evc] s { s with evc := x } :=
  ⟨fun g hg => by cases g <;> first | rfl | exact absurd hg (by decide), ⟨rfl, fun _ => .refl _, rfl, rfl, List.prefix_rfl, Nat.le_refl _, Nat.le_refl _, Nat.le_refl _, fun _ h => h, id, id⟩⟩

theorem upd_flt (s : State) (x : FltSt) : Within [.flt] s { s with flt := x } :=
  ⟨fun g hg => by cases g <;> first | rfl | exact absurd hg (by decide), ⟨rfl, fun _ => .refl _, rfl, rfl, List.prefix_rfl, Nat.le_refl _, Nat.le_refl _, Nat.le_refl _, fun _ h => h, id, id⟩⟩

theorem upd_trc (s : State) (x : TrcSt) : Within [.trc] s { s with trc := x } :=
  ⟨fun g hg => by cases g <;> first | rfl | exact absurd hg (by decide), ⟨rfl, fun _ => .refl _, rfl, rfl, List.prefix_rfl, Nat.le_refl _, Nat.le_refl _, Nat.le_refl _, fun _ h => h, id, id⟩⟩

theorem upd_swc (s : State) (x : SwcSt) : Within [.swc] s { s with swc := x } :=
  ⟨fun g hg => by cases g <;> first | rfl | exact absurd hg (by decide), ⟨rfl, fun _ => .refl _, rfl, rfl, List.prefix_rfl, Nat.le_refl _, Nat.le_refl _, Nat.le_refl _, fun _ h => h, id, id⟩⟩

theorem upd_brg (s : State) (x : BrgSt) : Within [.brg] s { s with brg := x } :=
  ⟨fun g hg => by cases g <;> first | rfl | exact absurd hg (by decide), ⟨rfl, fun _ => .refl _, rfl, rfl, List.prefix_rfl, Nat.le_refl _, Nat.le_refl _, Nat.le_refl _, fun _ h => h, id, id⟩⟩

theorem upd_lode (s : State) (x : LodeSt) : Within [.lode] s { s with lode := x } :=
  ⟨fun g hg => by cases g <;> first | rfl | exact absurd hg (by decide), ⟨rfl, fun _ => .refl _, rfl, rfl, List.prefix_rfl, Nat.le_refl _, Nat.le_refl _, Nat.le_refl _, fun _ h => h, id, id⟩⟩

theorem upd_host (s : State) (x : HostSt) : Within [.host] s { s with host := x } :=
  ⟨fun g hg => by cases g <;> first | rfl | exact absurd hg (by decide), ⟨rfl, fun _ => .refl _, rfl, rfl, List.prefix_rfl, Nat.le_refl _, Nat.le_refl _, Nat.le_refl _, fun _ h => h, id, id⟩⟩

theorem upd_wtt (s : State) (x : WttSt) : Within [.wtt] s { s with wtt := x } :=
  ⟨fun g hg => by cases g <;> first | rfl | exact absurd hg (by decide), ⟨rfl, fun _ => .refl _, rfl, rfl, List.prefix_rfl, Nat.le_refl _, Nat.le_refl _, Nat.le_refl _, fun _ h => h, id, id⟩⟩

theorem upd_ins (s : State) (x : InsSt) : Within [.ins] s { s with ins := x } :=
  ⟨fun g hg => by cases g <;> first | rfl | exact absurd hg (by decide), ⟨rfl, fun _ => .refl _, rfl, rfl, List.prefix_rfl, Nat.le_refl _, Nat.le_refl _, Nat.le_refl _, fun _ h => h, id, id⟩⟩

theorem upd_dma (s : State) (x : DmaSt) : Within [.dma] s { s with dma := x } :=
  ⟨fun g hg => by cases g <;> first | rfl | exact absurd hg (by decide), ⟨rfl, fun _ => .refl _, rfl, rfl, List.prefix_rfl, Nat.le_refl _, Nat.le_refl _, Nat.le_refl _, fun _ h => h, id, id⟩⟩

theorem upd_cal (s : State) (x : CalSt) : Within [.cal] s { s with cal := x } :=
  ⟨fun g hg => by cases g <;> first | rfl | exact absurd hg (by decide), ⟨rfl, fun _ => .refl _, rfl, rfl, List.prefix_rfl, Nat.le_refl _, Nat.le_refl _, Nat.le_refl _, fun _ h => h, id, id⟩⟩

theorem upd_age (s : State) (x : AgeSt) : Within [.age] s { s with age := x } :=
  ⟨fun g hg => by cases g <;> first | rfl | exact absurd hg (by decide), ⟨rfl, fun _ => .refl _, rfl, rfl, List.prefix_rfl, Nat.le_refl _, Nat.le_refl _, Nat.le_refl _, fun _ h => h, id, id⟩⟩

theorem upd_gal (s : State) (x : GalSt) : Within [.gal] s { s with gal := x } :=
  ⟨fun g hg => by cases g <;> first | rfl | exact absurd hg (by decide), ⟨rfl, fun _ => .refl _, rfl, rfl, List.prefix_rfl, Nat.le_refl _, Nat.le_refl _, Nat.le_refl _, fun _ h => h, id, id⟩⟩

theorem upd_pwr (s : State) (x : PwrSt) : Within [.pwr] s { s with pwr := x } :=
  ⟨fun g hg => by cases g <;> first | rfl | exact absurd hg (by decide), ⟨rfl, fun _ => .refl _, rfl, rfl, List.prefix_rfl, Nat.le_refl _, Nat.le_refl _, Nat.le_refl _, fun _ h => h, id, id⟩⟩

theorem upd_core (s : State) (x : CoreSt) (h : x.fuses = s.core.fuses) : Within [.core] s { s with core := x } :=
  ⟨fun g hg => by cases g <;> first | rfl | exact absurd hg (by decide),
    ⟨rfl, fun _ => .refl _, h, rfl, List.prefix_rfl, Nat.le_refl _, Nat.le_refl _, Nat.le_refl _, fun _ h => h, id, id⟩⟩

theorem upd_otp (s : State) (x : OtpSt) (h : s.otp.floor ≤ x.floor) (h' : ∀ k, s.otp.keyHash = some k → x.keyHash = some k) :
    Within [.otp] s { s with otp := x } :=
  ⟨fun g hg => by cases g <;> first | rfl | exact absurd hg (by decide),
    ⟨rfl, fun _ => .refl _, rfl, rfl, List.prefix_rfl, Nat.le_refl _, Nat.le_refl _, h, h', id, id⟩⟩

theorem upd_str (s : State) (x : StrSt) : Within [.str] s { s with str := x } :=
  ⟨fun g hg => by cases g <;> first | rfl | exact absurd hg (by decide), ⟨rfl, fun _ => .refl _, rfl, rfl, List.prefix_rfl, Nat.le_refl _, Nat.le_refl _, Nat.le_refl _, fun _ h => h, id, id⟩⟩

theorem upd_fresh (s : State) (n : Nat) (h : s.fresh ≤ n) : Within [.fresh] s { s with fresh := n } :=
  ⟨fun g hg => by cases g <;> first | rfl | exact absurd hg (by decide),
    ⟨rfl, fun _ => .refl _, rfl, rfl, List.prefix_rfl, h, Nat.le_refl _, Nat.le_refl _, fun _ h => h, id, id⟩⟩

theorem upd_ticks (s : State) (n : Nat) (h : s.ticks ≤ n) : Within [.ticks] s { s with ticks := n } :=
  ⟨fun g hg => by cases g <;> first | rfl | exact absurd hg (by decide),
    ⟨rfl, fun _ => .refl _, rfl, rfl, List.prefix_rfl, Nat.le_refl _, h, Nat.le_refl _, fun _ h => h, id, id⟩⟩

theorem upd_outbox (s : State) (l : List Out) (h : s.outbox <+: l) : Within [.outbox] s { s with outbox := l } :=
  ⟨fun g hg => by cases g <;> first | rfl | exact absurd hg (by decide),
    ⟨rfl, fun _ => .refl _, rfl, rfl, h, Nat.le_refl _, Nat.le_refl _, Nat.le_refl _, fun _ h => h, id, id⟩⟩

theorem upd_regs (s : State) (r : Tbl Word) (h : Registers.wf s.regs = true → Registers.wf r = true) :
    Within [.regs] s { s with regs := r } :=
  ⟨fun g hg => by cases g <;> first | rfl | exact absurd hg (by decide),
    ⟨rfl, fun _ => .refl _, rfl, rfl, List.prefix_rfl, Nat.le_refl _, Nat.le_refl _, Nat.le_refl _, fun _ h => h, h, id⟩⟩

theorem upd_mem (s : State) (m : MemSt) (h : Memory.wf s.mem = true → Memory.wf m = true) :
    Within [.mem] s { s with mem := m } :=
  ⟨fun g hg => by cases g <;> first | rfl | exact absurd hg (by decide),
    ⟨rfl, fun _ => .refl _, rfl, rfl, List.prefix_rfl, Nat.le_refl _, Nat.le_refl _, Nat.le_refl _, fun _ h => h, id, h⟩⟩

/-! ## Registers and memories -/

theorem wreg_within (s : State) (t off : Nat) (v : Word) : Within [.regs] s (wreg s t off v) :=
  upd_regs s _ (fun h => (rising_iff _).2 (pairwise_ins ((rising_iff _).1 h) _ v))

theorem mramWrite_within (s : State) (t a : Nat) (l : List Byte) : Within [.mem] s (mramWrite s t a l) :=
  upd_mem s _ (fun h => by
    simp only [Memory.wf, Mem.wf, Bool.and_eq_true, wf_iff] at h ⊢
    exact ⟨h.1.writeN _ l, h.2⟩)

theorem flashWrite_within (s : State) (a : Nat) (l : List Byte) : Within [.mem] s (flashWrite s a l) :=
  upd_mem s _ (fun h => by
    simp only [Memory.wf, Mem.wf, Bool.and_eq_true, wf_iff] at h ⊢
    exact ⟨h.1, h.2.writeN _ l⟩)

theorem flashErase_within (s : State) (a n : Nat) : Within [.mem] s (flashErase s a n) :=
  upd_mem s _ (fun h => by
    simp only [Memory.wf, Mem.wf, Bool.and_eq_true, wf_iff] at h ⊢
    exact ⟨h.1, h.2.filter _⟩)

theorem tickFresh_within (s : State) (k : Nat) : Within [.fresh] s (tickFresh s k) := upd_fresh s _ (Nat.le_add_right _ _)

theorem emit_within (s : State) (o : Out) : Within [.outbox] s (emit s o) := upd_outbox s _ (List.prefix_append _ _)

theorem setTile_within (s : State) (t : Nat) (x : TileSt) : Within [.core] s (setTile s t x) := upd_core s _ rfl

end Sys2Proof.Laws
end

