-- ==== Sys2Proof/Laws/FrameOps.lean ====
section
/-! SUPPORT. What the operations of Machine/Ops.lean may change: one lemma for each. -/

namespace Sys2Proof.Laws

open Sys2Proof Sys2Proof.Machine

theorem sf_within {s t off lo n v} : Within [.regs] s (sf s t off lo n v) := by
  unfold sf
  exact (.step (wreg_within ..) rfl (.refl _ _))

theorem cf_within {s t off lo n k} : Within [.regs] s (cf s t off lo n k) := by
  unfold cf
  exact (.step (wreg_within ..) rfl (.refl _ _))

theorem stf_within {s t off lo n k} : Within [.regs] s (stf s t off lo n k) := by
  unfold stf
  exact (.step (wreg_within ..) rfl (.refl _ _))

theorem trcEvent_within {s t b} : Within [.regs] s (trcEvent s t b) := by
  unfold trcEvent
  exact (.step (sf_within ..) rfl (.refl _ _))

theorem setAlarm_within {s t ty a} : Within [.trc] s (setAlarm s t ty a) := by
  unfold setAlarm
  exact (.step (upd_trc ..) rfl (.refl _ _))

theorem alarm_within {s t ty inst} : Within [.regs, .trc] s (alarm s t ty inst) := by
  unfold alarm
  exact (.ite (.step (setAlarm_within ..) rfl (.refl _ _)) (.step (trcEvent_within ..) rfl (.step (setAlarm_within ..) rfl (.refl _ _))))

theorem takeToken_within {s t b} : Within [.trc] s (takeToken s t b) := by
  unfold takeToken
  exact (.step (upd_trc ..) rfl (.refl _ _))

theorem ringPut_within {s t b bytes} : Within [.regs, .trc] s (ringPut s t b bytes) := by
  unfold ringPut
  exact (.step (sf_within ..) rfl (.step (upd_trc ..) rfl (.refl _ _)))

theorem traceSummary_within {s t b} : Within [.regs, .trc] s (traceSummary s t b) := by
  unfold traceSummary
  exact (.ite (.refl _ _) (.step (alarm_within ..) rfl (.step (trcEvent_within ..) rfl (.step (upd_trc ..) rfl (.step (ringPut_within ..) rfl (.step (takeToken_within ..) rfl (.refl _ _)))))))

theorem traceLose_within {s t b} : Within [.regs, .trc] s (traceLose s t b) := by
  unfold traceLose
  exact (.step (cf_within ..) rfl (.step (upd_trc ..) rfl (.refl _ _)))

theorem traceGen_within {s t b bytes} : Within [.regs, .trc] s (traceGen s t b bytes) := by
  unfold traceGen
  exact .ite (.step traceLose_within rfl (.step traceSummary_within rfl (.refl _ _)))
    (.step ringPut_within rfl (.step takeToken_within rfl (.step traceSummary_within rfl (.refl _ _))))

theorem trace_within {s t b kind inst data} : Within [.regs, .trc] s (trace s t b kind inst data) := by
  unfold trace
  exact (.ite (.refl _ _) (.step (traceGen_within ..) rfl (.refl _ _)))

theorem evt_within {s t r b inst} : Within [.regs, .trc] s (evt s t r b inst) := by
  unfold evt
  try dsimp only
  split
  · exact (.step (trace_within ..) rfl (.step (sf_within ..) rfl (.refl _ _)))
  · exact (.refl _ _)

theorem notePend_within {s t src anew} : Within [.evc] s (notePend s t src anew) := by
  unfold notePend
  exact (.ite (.refl _ _) (.step (upd_evc ..) rfl (.refl _ _)))

theorem edge_within {s t src} : Within [.regs, .evc] s (edge s t src) := by
  unfold edge
  exact (.ite (.refl _ _) (.step (upd_evc ..) rfl (.step (sf_within ..) rfl (.step (notePend_within ..) rfl (.refl _ _)))))

theorem recordPut_within {s t bytes} : Within [.regs, .mem, .flt] s (recordPut s t bytes) := by
  unfold recordPut
  exact (.step (cf_within ..) rfl (.step (sf_within ..) rfl (.step (upd_flt ..) rfl (.step (mramWrite_within ..) rfl (.refl _ _)))))

theorem recordFaultRec_within {s t b c cls inst gen action detail bypass} : Within [.regs, .mem, .flt] s (recordFaultRec s t b c cls inst gen action detail bypass) := by
  unfold recordFaultRec
  exact (.ite (.step (recordPut_within ..) rfl (.refl _ _)) (.ite (.step (upd_flt ..) rfl (.step (recordPut_within ..) rfl (.refl _ _))) (.step (upd_flt ..) rfl (.refl _ _))))

theorem recordBase_within {s t b c cls inst action detail} : Within [.regs, .mem, .flt, .trc] s (recordBase s t b c cls inst action detail) := by
  unfold recordBase
  exact (.step (trace_within ..) rfl (.step (recordFaultRec_within ..) rfl (.step (cf_within ..) rfl (.ite (.step (wreg_within ..) rfl (.step (wreg_within ..) rfl (.step (sf_within ..) rfl (.step (sf_within ..) rfl (.refl _ _))))) (.step (wreg_within ..) rfl (.step (sf_within ..) rfl (.step (sf_within ..) rfl (.refl _ _))))))))

theorem newSerial_within {s} : Within [.brg] s (newSerial s).2 := by
  unfold newSerial
  exact (.step (upd_brg ..) rfl (.refl _ _))

theorem newSerial_eq {s v₁ s'} (he : newSerial s = (v₁, s')) : Within [.brg] s s' := by
  have e := newSerial_within (s := s)
  rw [he] at e
  exact e

theorem settle_within {s serial} : Within [.brg] s (settle s serial) := by
  unfold settle
  exact (.step (upd_brg ..) rfl (.refl _ _))

end Sys2Proof.Laws
end

