-- ==== Sys2Proof/Laws/FrameHostCfg.lean ====
section
/-! SUPPORT. What the operations of Machine/HostCfg.lean may change: one lemma for each. -/

namespace Sys2Proof.Laws

open Sys2Proof Sys2Proof.Machine

theorem setHls_within {s h lo n v} : Within [.regs] s (setHls s h lo n v) := by
  unfold setHls
  exact (.step (sf_within ..) rfl (.refl _ _))

theorem leaveL1_within {s h} : Within [.regs] s (leaveL1 s h) := by
  unfold leaveL1
  exact (.ite (.step (setHls_within ..) rfl (.refl _ _)) (.refl _ _))

theorem setCfg_within {s h f dw v} : Within [.host] s (setCfg s h f dw v) := by
  unfold setCfg
  try dsimp only
  split
  · exact (.step (upd_host ..) rfl (.refl _ _))
  · exact (.refl _ _)

theorem cfgClear_within {s h f} : Within [.host] s (cfgClear s h f) := by
  unfold cfgClear
  exact (.step (upd_host ..) rfl (.refl _ _))

theorem orCfg_within {s h f off m} : Within [.host] s (orCfg s h f off m) := by
  unfold orCfg
  exact (.step (setCfg_within ..) rfl (.refl _ _))

theorem headerLog_within {s h f b} : Within [.host, .fresh] s (headerLog s h f b) := by
  unfold headerLog
  exact (.ite (.foldl _ (fun s1 _ h1 => (.step (setCfg_within ..) rfl h1)) (.step (setCfg_within ..) rfl (.step (tickFresh_within ..) rfl (.refl _ _)))) (.refl _ _))

theorem errorMsg_within {s h f kind} : Within [.regs, .outbox] s (errorMsg s h f kind) := by
  unfold errorMsg
  exact (.step (emit_within ..) rfl (.step (leaveL1_within ..) rfl (.refl _ _)))

theorem aerLog_within {s h f b advisory} : Within [.regs, .host, .outbox, .fresh] s (aerLog s h f b advisory) := by
  unfold aerLog
  exact (.ite (.refl _ _) (.ite (.ite (.step (errorMsg_within ..) rfl (.step (orCfg_within ..) rfl (.step (orCfg_within ..) rfl (.ite (.step (orCfg_within ..) rfl (.step (orCfg_within ..) rfl (.ite (.refl _ _) (.step (headerLog_within ..) rfl (.refl _ _))))) (.step (orCfg_within ..) rfl (.ite (.refl _ _) (.step (headerLog_within ..) rfl (.refl _ _)))))))) (.step (orCfg_within ..) rfl (.step (orCfg_within ..) rfl (.ite (.step (orCfg_within ..) rfl (.step (orCfg_within ..) rfl (.ite (.refl _ _) (.step (headerLog_within ..) rfl (.refl _ _))))) (.step (orCfg_within ..) rfl (.ite (.refl _ _) (.step (headerLog_within ..) rfl (.refl _ _)))))))) (.ite (.ite (.step (errorMsg_within ..) rfl (.step (orCfg_within ..) rfl (.ite (.step (orCfg_within ..) rfl (.step (orCfg_within ..) rfl (.ite (.refl _ _) (.step (headerLog_within ..) rfl (.refl _ _))))) (.step (orCfg_within ..) rfl (.ite (.refl _ _) (.step (headerLog_within ..) rfl (.refl _ _))))))) (.step (orCfg_within ..) rfl (.ite (.step (orCfg_within ..) rfl (.step (orCfg_within ..) rfl (.ite (.refl _ _) (.step (headerLog_within ..) rfl (.refl _ _))))) (.step (orCfg_within ..) rfl (.ite (.refl _ _) (.step (headerLog_within ..) rfl (.refl _ _))))))) (.ite (.step (errorMsg_within ..) rfl (.step (orCfg_within ..) rfl (.ite (.step (orCfg_within ..) rfl (.step (orCfg_within ..) rfl (.ite (.refl _ _) (.step (headerLog_within ..) rfl (.refl _ _))))) (.step (orCfg_within ..) rfl (.ite (.refl _ _) (.step (headerLog_within ..) rfl (.refl _ _))))))) (.step (orCfg_within ..) rfl (.ite (.step (orCfg_within ..) rfl (.step (orCfg_within ..) rfl (.ite (.refl _ _) (.step (headerLog_within ..) rfl (.refl _ _))))) (.step (orCfg_within ..) rfl (.ite (.refl _ _) (.step (headerLog_within ..) rfl (.refl _ _))))))))))

end Sys2Proof.Laws
end

