-- ==== Sys2Proof/Laws/FramePath.lean ====
section
/-! SUPPORT. What the operations of Machine/Path.lean may change: one lemma for each. -/

namespace Sys2Proof.Laws

open Sys2Proof Sys2Proof.Machine

theorem setLink_within {s t n x} : Within [.lode] s (setLink s t n x) := by
  unfold setLink
  exact (.step (upd_lode ..) rfl (.refl _ _))

theorem sendIn_within {s t p sub f} : Within [.swc] s (sendIn s t p sub f) := by
  unfold sendIn
  exact (.step (upd_swc ..) rfl (.refl _ _))

theorem enter_within {s f} : Within [.swc] s (enter s f) := by
  unfold enter
  exact (.step (sendIn_within ..) rfl (.refl _ _))

theorem notePosted_within {s r} : Within [.brg] s (notePosted s r) := by
  unfold notePosted
  exact (.step (upd_brg ..) rfl (.refl _ _))

theorem setShared_within {s t n} : Within [.regs, .trc] s (setShared s t n) := by
  unfold setShared
  exact (.ite (.step (evt_within ..) rfl (.ite (.refl _ _) (.step (sf_within ..) rfl (.refl _ _)))) (.ite (.refl _ _) (.step (sf_within ..) rfl (.refl _ _))))

theorem creditReturn_within {s t n c u} : Within [.lode] s (creditReturn s t n c u) := by
  unfold creditReturn
  exact (.step (setLink_within ..) rfl (.refl _ _))

end Sys2Proof.Laws
end

