-- ==== Sys2Proof/Laws/FrameStore.lean ====
section
/-! SUPPORT. What the operations of Machine/Store.lean may change: one lemma for each. -/

namespace Sys2Proof.Laws

open Sys2Proof Sys2Proof.Machine

theorem setQueue_within {s k l} : Within [.swc] s (setQueue s k l) := by
  unfold setQueue
  exact (.step (upd_swc ..) rfl (.refl _ _))

theorem putStored_within {s t id x} : Within [.swc] s (putStored s t id x) := by
  unfold putStored
  exact (.step (upd_swc ..) rfl (.refl _ _))

theorem delStored_within {s t id} : Within [.swc] s (delStored s t id) := by
  unfold delStored
  exact (.step (upd_swc ..) rfl (.refl _ _))

theorem charge_within {s t a n} : Within [.regs, .trc] s (charge s t a n) := by
  unfold charge
  try dsimp only
  split
  · exact (.refl _ _)
  · exact (.step (setShared_within ..) rfl (.refl _ _))
  · try dsimp only
    split
    · exact (.step (sf_within ..) rfl (.refl _ _))
    · exact (.refl _ _)

theorem uncharge_within {s t x} : Within [.regs, .lode] s (uncharge s t x) := by
  unfold uncharge
  try dsimp only
  split
  · try dsimp only
    split
    · exact (.step (creditReturn_within ..) rfl (.refl _ _))
    · exact (.refl _ _)
  · exact (.step (sf_within ..) rfl (.refl _ _))
  · try dsimp only
    split
    · exact (.step (sf_within ..) rfl (.refl _ _))
    · exact (.refl _ _)

theorem dropRef_within {s t id} : Within [.regs, .swc, .lode] s (dropRef s t id) := by
  unfold dropRef
  try dsimp only
  split
  · exact (.refl _ _)
  · exact (.ite (.ite (.step (sf_within ..) rfl (.step (uncharge_within ..) rfl (.step (delStored_within ..) rfl (.refl _ _)))) (.step (uncharge_within ..) rfl (.step (delStored_within ..) rfl (.refl _ _)))) (.step (putStored_within ..) rfl (.refl _ _)))

theorem queued_within {s t o up cells} : Within [.regs] s (queued s t o up cells) := by
  unfold queued
  exact (.step (sf_within ..) rfl (.refl _ _))

theorem enqueue_within {s t o inp c ptr cells} : Within [.regs, .swc] s (enqueue s t o inp c ptr cells) := by
  unfold enqueue
  exact (.step (queued_within ..) rfl (.step (setQueue_within ..) rfl (.refl _ _)))

theorem popHead_within {s t o inp c} : Within [.regs, .swc] s (popHead s t o inp c) := by
  unfold popHead
  try dsimp only
  split
  · exact (.refl _ _)
  · exact (.step (upd_swc ..) rfl (.step (queued_within ..) rfl (.step (setQueue_within ..) rfl (.refl _ _))))

theorem purge_within {s t p} : Within [.regs, .swc, .lode] s (purge s t p) := by
  unfold purge
  exact (.foldl _ (fun s1 _ h1 => (.ite (.step (sf_within ..) rfl (.step (uncharge_within ..) rfl (.step (delStored_within ..) rfl (.foldl _ (fun s2 _ h2 => (.step (queued_within ..) rfl (.step (setQueue_within ..) rfl h2))) h1)))) (.step (uncharge_within ..) rfl (.step (delStored_within ..) rfl (.foldl _ (fun s3 _ h3 => (.step (queued_within ..) rfl (.step (setQueue_within ..) rfl h3))) h1))))) (.refl _ _))

end Sys2Proof.Laws
end

