-- ==== Sys2Proof/Laws/FrameAnswer.lean ====
section
/-! SUPPORT. What the operations of Machine/Answer.lean may change: one lemma for each. -/

namespace Sys2Proof.Laws

open Sys2Proof Sys2Proof.Machine

theorem startHold_within {s waits item sentOk} : Within [.brg] s (startHold s waits item sentOk) := by
  unfold startHold
  exact (.step (upd_brg ..) rfl (.refl _ _))

theorem enterAfter_within {s waits sentOk f} : Within [.swc, .brg] s (enterAfter s waits sentOk f) := by
  unfold enterAfter
  exact (.ite (.step (enter_within ..) rfl (.refl _ _)) (.step (startHold_within ..) rfl (.refl _ _)))

theorem markSent_within {s serial} : Within [.brg] s (markSent s serial) := by
  unfold markSent
  exact (.step (upd_brg ..) rfl (.refl _ _))

theorem noteCross_within {s iss l} : Within [.brg] s (noteCross s iss l) := by
  unfold noteCross
  try dsimp only
  split
  · exact (.refl _ _)
  · exact (.refl _ _)
  · exact (.step (upd_brg ..) rfl (.refl _ _))
  · exact (.step (upd_brg ..) rfl (.refl _ _))
  · exact (.step (upd_brg ..) rfl (.refl _ _))
  · exact (.step (upd_brg ..) rfl (.refl _ _))
  · exact (.step (upd_brg ..) rfl (.refl _ _))

theorem unfence_within {s iss} : Within [.wtt] s (unfence s iss) := by
  unfold unfence
  exact (.step (upd_wtt ..) rfl (.refl _ _))

theorem uncross_within {s iss} : Within [.brg, .wtt] s (uncross s iss) := by
  unfold uncross
  exact (.step (upd_brg ..) rfl (.step (unfence_within ..) rfl (.refl _ _)))

theorem completeInb_within {s t e status data ep rlx ns} : Within [.regs, .brg, .host, .wtt, .outbox, .fresh] s (completeInb s t e status data ep rlx ns) := by
  unfold completeInb
  try dsimp only
  split
  · exact (.refl _ _)
  · exact (.ite (.foldl _ (fun s1 _ h1 => (.step (emit_within ..) rfl h1)) (.step (upd_host ..) rfl (.step (uncross_within ..) rfl (.refl _ _)))) (.step (aerLog_within ..) rfl (.step (emit_within ..) rfl (.step (upd_host ..) rfl (.step (uncross_within ..) rfl (.refl _ _))))))

theorem setHeld_within {s t n k x} : Within [.lode, .wtt] s (setHeld s t n k x) := by
  unfold setHeld
  exact (.step (upd_lode ..) rfl (.ite (.step (unfence_within ..) rfl (.refl _ _)) (.refl _ _)))

theorem heldCount_within {s t n} : Within [.regs] s (heldCount s t n) := by
  unfold heldCount
  exact (.step (sf_within ..) rfl (.step (sf_within ..) rfl (.refl _ _)))

theorem heldSent_within {s t n k serial} : Within [.lode, .wtt] s (heldSent s t n k serial) := by
  unfold heldSent
  try dsimp only
  split
  · exact (.refl _ _)
  · try dsimp only
    split
    · exact (.step (setHeld_within ..) rfl (.refl _ _))
    · exact (.refl _ _)

theorem rspOwn_within {s t n p epoch status data k} : Within [.swc, .brg, .lode, .wtt] s (rspOwn s t n p epoch status data k) := by
  unfold rspOwn
  try dsimp only
  exact (.step (enter_within ..) rfl (.step (heldSent_within ..) rfl (.step (newSerial_within ..) rfl (.refl _ _))))

theorem heldFree_within {s t n k} : Within [.regs, .lode, .wtt] s (heldFree s t n k) := by
  unfold heldFree
  exact (.step (heldCount_within ..) rfl (.step (setHeld_within ..) rfl (.refl _ _)))

theorem heldFinish_within {s t n k} : Within [.swc, .brg, .lode, .wtt] s (heldFinish s t n k) := by
  unfold heldFinish
  try dsimp only
  split
  · exact (.refl _ _)
  · refine .ite ?_ ?_
    · refine .ite ?_ ?_
      · exact (.step (rspOwn_within ..) rfl (.refl _ _))
      · try dsimp only
        exact (.step (enterAfter_within ..) rfl (.step (heldSent_within ..) rfl (.step (newSerial_within ..) rfl (.refl _ _))))
    · exact (.refl _ _)

theorem heldAgain_within {s t n k status} : Within [.swc, .brg, .lode, .wtt] s (heldAgain s t n k status) := by
  unfold heldAgain
  try dsimp only
  split
  · exact (.ite (.step (rspOwn_within ..) rfl (.refl _ _)) (.refl _ _))
  · exact (.refl _ _)

theorem heldPartEnd_within {s t n k part status data ep} : Within [.swc, .brg, .lode, .wtt] s (heldPartEnd s t n k part status data ep) := by
  unfold heldPartEnd
  try dsimp only
  split
  · exact (.refl _ _)
  · exact (.ite (.step (heldAgain_within ..) rfl (.refl _ _)) (.step (heldFinish_within ..) rfl (.step (setHeld_within ..) rfl (.refl _ _))))

theorem requeue_within {s t l} : Within [.host] s (requeue s t l) := by
  unfold requeue
  exact (.step (upd_host ..) rfl (.refl _ _))

theorem setStream_within {s t k x} : Within [.regs, .trc, .wtt] s (setStream s t k x) := by
  unfold setStream
  exact (.step (upd_wtt ..) rfl (.step (setShared_within ..) rfl (.refl _ _)))

theorem dropStream_within {s t k} : Within [.regs, .trc, .host, .wtt] s (dropStream s t k) := by
  unfold dropStream
  try dsimp only
  split
  · exact (.refl _ _)
  · exact (.step (requeue_within ..) rfl (.ite (.step (cf_within ..) rfl (.step (setStream_within ..) rfl (.refl _ _))) (.step (setStream_within ..) rfl (.refl _ _))))

theorem streamEnd_within {s t name status data ep} : Within [.regs, .trc, .host, .wtt] s (streamEnd s t name status data ep) := by
  unfold streamEnd
  try dsimp only
  split
  · exact (.step (upd_wtt ..) rfl (.refl _ _))
  · exact (.ite (.ite (.step (dropStream_within ..) rfl (.step (upd_wtt ..) rfl (.refl _ _))) (.step (requeue_within ..) rfl (.step (setStream_within ..) rfl (.step (upd_wtt ..) rfl (.refl _ _))))) (.step (upd_wtt ..) rfl (.refl _ _)))

theorem setLock_within {s t n x} : Within [.lode] s (setLock s t n x) := by
  unfold setLock
  exact (.step (upd_lode ..) rfl (.refl _ _))

theorem lockRefused_within {s t n} : Within [.regs, .swc, .brg, .lode, .host, .wtt, .outbox, .fresh] s (lockRefused s t n) := by
  unfold lockRefused
  try dsimp only
  split
  · exact (.refl _ _)
  · try dsimp only
    split
    · exact (.step (completeInb_within ..) rfl (.step (purge_within ..) rfl (.step (wreg_within ..) rfl (.step (cf_within ..) rfl (.step (setLock_within ..) rfl (.refl _ _))))))
    · exact (.step (purge_within ..) rfl (.step (wreg_within ..) rfl (.step (cf_within ..) rfl (.step (setLock_within ..) rfl (.refl _ _)))))

theorem cancelLocked_within {s t n gone} : Within [.regs, .swc, .lode] s (cancelLocked s t n gone) := by
  unfold cancelLocked
  exact (.step (setLock_within ..) rfl (.ite (.step (purge_within ..) rfl (.foldl _ (fun s1 _ h1 => (.step (purge_within ..) rfl h1)) (.refl _ _))) (.foldl _ (fun s2 _ h2 => (.step (purge_within ..) rfl h2)) (.refl _ _))))

theorem sendLockEnd_within {s t n} : Within [.swc, .brg] s (sendLockEnd s t n) := by
  unfold sendLockEnd
  try dsimp only
  split
  · exact (.refl _ _)
  · try dsimp only
    exact (.step (sendIn_within ..) rfl (.step (newSerial_within ..) rfl (.refl _ _)))

theorem endLocks_within {s h f} : Within [.swc, .brg, .lode] s (endLocks s h f) := by
  unfold endLocks
  refine .foldl _ (fun s1 _ h1 => ?_) ?_
  · try dsimp only
    split
    · exact (.ite (.step (sendLockEnd_within ..) rfl (.step (setLock_within ..) rfl h1)) (.step (setLock_within ..) rfl h1))
    · exact (.step (setLock_within ..) rfl h1)
  · exact (.refl _ _)

theorem endMarker_within {s f} : Within [.swc, .brg, .lode] s (endMarker s f) := by
  unfold endMarker
  try dsimp only
  split
  · exact (.step (endLocks_within ..) rfl (.refl _ _))
  · exact (.ite (.step (sendLockEnd_within ..) rfl (.refl _ _)) (.refl _ _))

theorem answer_within {s iss status data ep} : Within [.regs, .trc, .swc, .brg, .lode, .host, .wtt, .dma, .outbox, .fresh] s (answer s iss status data ep) := by
  unfold answer
  try dsimp only
  split
  · exact (.step (uncross_within ..) rfl (.refl _ _))
  · exact (.step (completeInb_within ..) rfl (.step (uncross_within ..) rfl (.refl _ _)))
  · exact (.step (upd_dma ..) rfl (.step (uncross_within ..) rfl (.refl _ _)))
  · exact (.step (upd_dma ..) rfl (.step (uncross_within ..) rfl (.refl _ _)))
  · exact (.step (heldPartEnd_within ..) rfl (.step (uncross_within ..) rfl (.refl _ _)))
  · exact (.step (streamEnd_within ..) rfl (.step (uncross_within ..) rfl (.refl _ _)))
  · exact (.step (lockRefused_within ..) rfl (.step (uncross_within ..) rfl (.refl _ _)))

theorem endRsp_within {s f status} : Within [.regs, .trc, .swc, .brg, .lode, .host, .wtt, .dma, .outbox, .fresh] s (endRsp s f status) := by
  unfold endRsp
  try dsimp only
  split
  · exact (.ite (.ite (.step (heldAgain_within ..) rfl (.refl _ _)) (.step (heldFree_within ..) rfl (.refl _ _))) (.refl _ _))
  · exact (.ite (.step (completeInb_within ..) rfl (.refl _ _)) (.refl _ _))
  · exact (.ite (.step (answer_within ..) rfl (.refl _ _)) (.refl _ _))
  · exact (.refl _ _)

theorem endFrame_within {s f status} : Within [.regs, .trc, .swc, .brg, .lode, .host, .wtt, .dma, .outbox, .fresh] s (endFrame s f status) := by
  unfold endFrame
  refine .ite ?_ ?_
  · exact (.step (answer_within ..) rfl (.ite (.step (setLock_within ..) rfl (.step (settle_within ..) rfl (.refl _ _))) (.step (settle_within ..) rfl (.refl _ _))))
  · refine .ite ?_ ?_
    · exact (.step (endRsp_within ..) rfl (.step (settle_within ..) rfl (.refl _ _)))
    · try dsimp only
      split
      · exact (.step (answer_within ..) rfl (.step (settle_within ..) rfl (.refl _ _)))
      · exact (.step (endMarker_within ..) rfl (.step (settle_within ..) rfl (.refl _ _)))

end Sys2Proof.Laws
end

