-- ==== Sys2Proof/Laws/FrameEvc.lean ====
section
/-! SUPPORT. What the operations of Machine/Evc.lean may change: one lemma for each. -/

namespace Sys2Proof.Laws

open Sys2Proof Sys2Proof.Machine

theorem setSvc_within {s t x prio l} : Within [.regs, .evc] s (setSvc s t x prio l) := by
  unfold setSvc
  exact (.step (sf_within ..) rfl (.step (sf_within ..) rfl (.step (sf_within ..) rfl (.step (upd_evc ..) rfl (.refl _ _)))))

theorem vanishTarget_within {s k} : Within [.regs, .evc] s (vanishTarget s k) := by
  unfold vanishTarget
  exact (.ite (.ite (.step (sf_within ..) rfl (.step (cf_within ..) rfl (.step (upd_evc ..) rfl (.refl _ _)))) (.step (cf_within ..) rfl (.step (upd_evc ..) rfl (.refl _ _)))) (.refl _ _))

theorem evcRefresh_within {s t} : Within [.regs, .evc] s (evcRefresh s t) := by
  unfold evcRefresh
  exact (.step (upd_evc ..) rfl (.foldl _ (fun s1 _ h1 => (.step (vanishTarget_within ..) rfl h1)) (.refl _ _)))

theorem sendVector_within {s i v t src} : Within [.evc, .brg] s (sendVector s i v t src) := by
  unfold sendVector
  exact (.ite (.step (upd_evc ..) rfl (.step (upd_evc ..) rfl (.refl _ _))) (.step (startHold_within ..) rfl (.step (upd_evc ..) rfl (.refl _ _))))

theorem retryVec_within {s i v} : Within [.evc] s (retryVec s i v) := by
  unfold retryVec
  exact (.ite (.refl _ _) (.step (upd_evc ..) rfl (.refl _ _)))

theorem carry_within {s t x src} : Within [.regs, .evc, .swc, .brg] s (carry s t x src) := by
  unfold carry
  try dsimp only
  split
  · try dsimp only
    split
    · exact (.ite (.step (cf_within ..) rfl (.refl _ _)) (.step (sendVector_within ..) rfl (.refl _ _)))
    · exact (.refl _ _)
  · try dsimp only
    exact (.step (sendIn_within ..) rfl (.step (newSerial_within ..) rfl (.refl _ _)))
  · exact (.step (upd_evc ..) rfl (.refl _ _))
  · exact (.step (upd_evc ..) rfl (.refl _ _))
  · exact (.refl _ _)

theorem commit_within {s t src x urgent} : Within [.regs, .evc, .swc, .brg] s (commit s t src x urgent) := by
  unfold commit
  exact (.step (carry_within ..) rfl (.ite (.step (cf_within ..) rfl (.step (upd_evc ..) rfl (.ite (.step (setSvc_within ..) rfl (.step (wreg_within ..) rfl (.step (sf_within ..) rfl (.step (sf_within ..) rfl (.refl _ _))))) (.step (sf_within ..) rfl (.step (setSvc_within ..) rfl (.step (wreg_within ..) rfl (.step (sf_within ..) rfl (.step (sf_within ..) rfl (.refl _ _))))))))) (.step (upd_evc ..) rfl (.ite (.step (setSvc_within ..) rfl (.step (wreg_within ..) rfl (.step (sf_within ..) rfl (.step (sf_within ..) rfl (.refl _ _))))) (.step (sf_within ..) rfl (.step (setSvc_within ..) rfl (.step (wreg_within ..) rfl (.step (sf_within ..) rfl (.step (sf_within ..) rfl (.refl _ _))))))))))

theorem evcDeliver_within {s t} : Within [.regs, .evc, .swc, .brg] s (evcDeliver s t) := by
  unfold evcDeliver
  refine .ite ?_ ?_
  · exact (.refl _ _)
  · try dsimp only
    split
    · exact (.step (commit_within ..) rfl (.step (evcRefresh_within ..) rfl (.refl _ _)))
    · exact (.step (upd_evc ..) rfl (.step (evcRefresh_within ..) rfl (.refl _ _)))

theorem targetDone_within {s t x check seq} : Within [.regs, .evc] s (targetDone s t x check seq) := by
  unfold targetDone
  exact (.ite (.step (cf_within ..) rfl (.refl _ _)) (.ite (.ite (.step (setSvc_within ..) rfl (.refl _ _)) (.step (cf_within ..) rfl (.refl _ _))) (.ite (.step (setSvc_within ..) rfl (.refl _ _)) (.step (setSvc_within ..) rfl (.refl _ _)))))

theorem idleTargets_within {s t p} : Within [.regs, .evc] s (idleTargets s t p) := by
  unfold idleTargets
  exact (.foldl _ (fun s1 _ h1 => (.step (setSvc_within ..) rfl h1)) (.refl _ _))

theorem evcModeChange_within {s t} : Within [.regs, .evc] s (evcModeChange s t) := by
  unfold evcModeChange
  exact (.step (upd_evc ..) rfl (.step (sf_within ..) rfl (.foldl _ (fun s1 _ h1 => (.ite (.step (sf_within ..) rfl h1) h1)) (.step (idleTargets_within ..) rfl (.refl _ _)))))

theorem evcClear_within {s t} : Within [.regs, .evc] s (evcClear s t) := by
  have h1 : Within [.regs] s { s with regs := Tbl.keep (fun k => !(key t 0x7000000 ≤ k && k < key t 0x8000000)) s.regs } :=
    upd_regs s _ (fun h => (rising_iff _).2 (((rising_iff _).1 h).filter _))
  exact .step (upd_evc ..) rfl (.step h1 rfl (.refl _ _))

theorem pendWriteBit_within {s t src v} : Within [.regs, .evc] s (pendWriteBit s t src v) := by
  unfold pendWriteBit
  exact (.ite (.refl _ _) (.ite (.step (sf_within ..) rfl (.step (notePend_within ..) rfl (.refl _ _))) (.ite (.step (cf_within ..) rfl (.step (sf_within ..) rfl (.step (upd_evc ..) rfl (.step (sf_within ..) rfl (.refl _ _))))) (.step (sf_within ..) rfl (.refl _ _)))))

theorem pendWrite_within {s t w be v} : Within [.regs, .evc] s (pendWrite s t w be v) := by
  unfold pendWrite
  exact (.step (evcRefresh_within ..) rfl (.foldl _ (fun s1 _ h1 => (.ite (.step (pendWriteBit_within ..) rfl h1) h1)) (.refl _ _)))

theorem pendRead_within {s t w} : Within [.evc] s (pendRead s t w) := by
  unfold pendRead
  exact (.step (upd_evc ..) rfl (.refl _ _))

theorem maskWrite_within {s t w be v} : Within [.regs, .evc] s (maskWrite s t w be v) := by
  unfold maskWrite
  exact (.step (evcRefresh_within ..) rfl (.step (wreg_within ..) rfl (.refl _ _)))

theorem lostWrite_within {s t w be v} : Within [.regs, .evc] s (lostWrite s t w be v) := by
  unfold lostWrite
  exact (.step (evcRefresh_within ..) rfl (.step (wreg_within ..) rfl (.refl _ _)))

theorem routeWrite_within {s t src route} : Within [.regs, .evc] s (routeWrite s t src route) := by
  unfold routeWrite
  exact (.ite (.refl _ _) (.ite (.refl _ _) (.step (evcRefresh_within ..) rfl (.step (sf_within ..) rfl (.refl _ _)))))

theorem tgtCfgWrite_within {s t x be v} : Within [.regs, .evc] s (tgtCfgWrite s t x be v) := by
  unfold tgtCfgWrite
  try dsimp only
  split
  · exact (.ite (.refl _ _) (.step (evcRefresh_within ..) rfl (.step (wreg_within ..) rfl (.refl _ _))))
  · exact (.step (evcRefresh_within ..) rfl (.step (wreg_within ..) rfl (.refl _ _)))

theorem evcInstInit_within {s i} : Within [.regs, .evc] s (evcInstInit s i) := by
  unfold evcInstInit
  exact (.step (evcRefresh_within ..) rfl (.foldl _ (fun s1 _ h1 => (.step (setSvc_within ..) rfl (.step (sf_within ..) rfl (.step (sf_within ..) rfl h1)))) (.foldl _ (fun s2 _ h2 => (.step (upd_evc ..) rfl (.step (sf_within ..) rfl (.step (sf_within ..) rfl (.step (sf_within ..) rfl (.step (sf_within ..) rfl h2)))))) (.refl _ _))))

theorem unfenced_within {l a s t k} (h : Within l a s) (hk : Within l a k) : Within l a (unfenced s t k) := by
  unfold unfenced
  exact .ite h hk

end Sys2Proof.Laws
end

