-- ==== Sys2Proof/Laws/FrameLode.lean ====
section
/-! SUPPORT. What the operations of Machine/Lode.lean may change: one lemma for each. -/

namespace Sys2Proof.Laws

open Sys2Proof Sys2Proof.Machine

theorem takeCredit_within {s t n c u} : Within [.regs] s (takeCredit s t n c u) := by
  unfold takeCredit
  exact (.ite (.step (sf_within ..) rfl (.refl _ _)) (.step (sf_within ..) rfl (.refl _ _)))

theorem startEpoch_within {s t n} : Within [.regs, .lode] s (startEpoch s t n) := by
  unfold startEpoch
  exact (.step (setLink_within ..) rfl (.step (wreg_within ..) rfl (.step (wreg_within ..) rfl (.step (wreg_within ..) rfl (.step (wreg_within ..) rfl (.step (wreg_within ..) rfl (.step (sf_within ..) rfl (.refl _ _))))))))

theorem markSeen_within {s t n q} : Within [.lode] s (markSeen s t n q) := by
  unfold markSeen
  exact (.ite (.step (setLink_within ..) rfl (.refl _ _)) (.refl _ _))

end Sys2Proof.Laws
end

