-- ==== Sys2Proof/Laws/FrameSwcBase.lean ====
section
/-! SUPPORT. What the operations of Machine/SwcBase.lean may change: one lemma for each. -/

namespace Sys2Proof.Laws

open Sys2Proof Sys2Proof.Machine

theorem endPointer_within {s f status} : Within [.regs, .trc, .swc, .brg, .lode, .host, .wtt, .dma, .outbox, .fresh] s (endPointer s f status) := by
  unfold endPointer
  exact (.ite (.step (settle_within ..) rfl (.refl _ _)) (.step (endFrame_within ..) rfl (.refl _ _)))

theorem discardHead_within {s t o inp c status} : Within [.regs, .trc, .swc, .brg, .lode, .host, .wtt, .dma, .outbox, .fresh] s (discardHead s t o inp c status) := by
  unfold discardHead
  try dsimp only
  split
  · exact (.refl _ _)
  · try dsimp only
    split
    · exact (.step (popHead_within ..) rfl (.refl _ _))
    · exact (.step (endPointer_within ..) rfl (.step (dropRef_within ..) rfl (.step (popHead_within ..) rfl (.refl _ _))))

theorem offer_within {s t reason port f first} : Within [.regs, .trc, .fresh] s (offer s t reason port f first) := by
  unfold offer
  exact (.ite (.step (traceGen_within ..) rfl (.step (tickFresh_within ..) rfl (.step (upd_trc ..) rfl (.step (alarm_within ..) rfl (.step (cf_within ..) rfl (.refl _ _)))))) (.step (upd_trc ..) rfl (.step (alarm_within ..) rfl (.step (cf_within ..) rfl (.refl _ _)))))

theorem discardPtr_within {s t o inp c p status} : Within [.regs, .trc, .swc, .brg, .lode, .host, .wtt, .dma, .outbox, .fresh] s (discardPtr s t o inp c p status) := by
  unfold discardPtr
  try dsimp only
  split
  · exact (.step (setQueue_within ..) rfl (.refl _ _))
  · exact (.step (endPointer_within ..) rfl (.step (dropRef_within ..) rfl (.step (upd_swc ..) rfl (.step (queued_within ..) rfl (.step (setQueue_within ..) rfl (.refl _ _))))))

theorem flushOutput_within {l a s t o status count} (h : Within l a s)
    (hs : Grp.sub [.regs, .trc, .swc, .brg, .lode, .host, .wtt, .dma, .outbox, .fresh] l = true)
    (hk : ∀ x, Within l a x → Within l a (count x)) : Within l a (flushOutput s t o status count) := by
  have e1 : ∀ x u b p f, Within l a x → Within l a (offer x u b p f) := fun x u b p f hx =>
    (Within.step offer_within rfl (.refl [.regs, .trc, .swc, .brg, .lode, .host, .wtt, .dma, .outbox, .fresh] x)).step hs hx
  have e2 : ∀ x i c p, Within l a x → Within l a (discardPtr x t o i c p status) := fun x i c p hx =>
    (Within.step discardPtr_within rfl (.refl [.regs, .trc, .swc, .brg, .lode, .host, .wtt, .dma, .outbox, .fresh] x)).step hs hx
  have e3 : ∀ x b y lo n, Within l a x → Within l a (cf x b y lo n) := fun x b y lo n hx =>
    (Within.step cf_within rfl (.refl [.regs, .trc, .swc, .brg, .lode, .host, .wtt, .dma, .outbox, .fresh] x)).step hs hx
  unfold flushOutput
  refine .foldl _ (fun s _ h => .foldl _ (fun s _ h => ?_) h) h
  try dsimp only
  split
  · exact .ite h (e2 _ _ _ _ (e1 _ _ _ _ _ (hk _ (.ite (e3 _ _ _ _ _ h) h))))
  · exact e2 _ _ _ _ h

theorem mapFrame_within {s t serial g} : Within [.swc, .lode] s (mapFrame s t serial g) :=
  ⟨fun g hg => by cases g <;> first | rfl | exact absurd hg (by decide),
    ⟨rfl, fun _ => .refl _, rfl, rfl, List.prefix_rfl, Nat.le_refl _, Nat.le_refl _, Nat.le_refl _, fun _ h => h, id, id⟩⟩

theorem lostFrame_within {s serial iss} : Within [.regs, .trc, .swc, .brg, .lode, .host, .wtt, .dma, .outbox, .fresh] s (lostFrame s serial iss) := by
  unfold lostFrame
  try dsimp only
  split
  · exact (.step (answer_within ..) rfl (.step (settle_within ..) rfl (.refl _ _)))
  · exact (.step (settle_within ..) rfl (.refl _ _))

theorem lostWhole_within {s f} : Within [.regs, .trc, .swc, .brg, .lode, .host, .wtt, .dma, .outbox, .fresh] s (lostWhole s f) := by
  unfold lostWhole
  exact (.step (endMarker_within ..) rfl (.step (lostFrame_within ..) rfl (.refl _ _)))

theorem discDown_within {s t p} : Within [.regs] s (discDown s t p) := by
  unfold discDown
  exact (.step (cf_within ..) rfl (.refl _ _))

end Sys2Proof.Laws
end

