-- ==== Sys2Proof/Laws/FrameFlit.lean ====
section
/-! SUPPORT. What the operations of Machine/Flit.lean may change: one lemma for each. -/

namespace Sys2Proof.Laws

open Sys2Proof Sys2Proof.Machine

theorem reverse_within {s t n h} : Within [.regs, .lode] s (reverse s t n h).2 := by
  unfold reverse
  exact (.ite (.step (cf_within ..) rfl (.step (setLink_within ..) rfl (.refl _ _))) (.step (setLink_within ..) rfl (.refl _ _)))

theorem reverse_eq {s t n h v₁ s'} (he : reverse s t n h = (v₁, s')) : Within [.regs, .lode] s s' := by
  have e := reverse_within (s := s) (t := t) (n := n) (h := h)
  rw [he] at e
  exact e

theorem putFlit_within {s t n h payload} : Within [.regs, .lode, .outbox] s (putFlit s t n h payload) := by
  unfold putFlit
  try dsimp only
  exact (.step (emit_within ..) rfl (.step (reverse_within ..) rfl (.refl _ _)))

theorem sendResend_within {s t n f why} : Within [.regs, .trc, .lode, .outbox] s (sendResend s t n f why) := by
  unfold sendResend
  exact (.step (putFlit_within ..) rfl (.step (evt_within ..) rfl (.ite (.step (cf_within ..) rfl (.step (setLink_within ..) rfl (.refl _ _))) (.ite (.step (cf_within ..) rfl (.step (setLink_within ..) rfl (.refl _ _))) (.step (setLink_within ..) rfl (.refl _ _))))))

theorem sendData_within {s t n} : Within [.regs, .lode, .outbox] s (sendData s t n) := by
  unfold sendData
  try dsimp only
  exact (.step (putFlit_within ..) rfl (.step (sf_within ..) rfl (.ite (.step (upd_lode ..) rfl (.step (setLink_within ..) rfl (.refl _ _))) (.step (setLink_within ..) rfl (.refl _ _)))))

theorem sendLinkMsgs_within {s t n k} : Within [.regs, .trc, .lode, .outbox] s (sendLinkMsgs s t n k) := by
  induction k generalizing s with
  | zero => exact .refl _ _
  | succ k ih =>
    unfold sendLinkMsgs
    try dsimp only
    refine .ite (.refl _ _) ?_
    split
    · exact .trans (.step sendResend_within rfl (.step setLink_within rfl (.refl _ _))) ih
    · exact .ite (.trans (.step sendData_within rfl (.refl _ _)) ih) (.refl _ _)

theorem sendDown_within {s t n} : Within [.regs, .trc, .lode, .outbox] s (sendDown s t n) := by
  unfold sendDown
  exact (.ite (.refl _ _) (.step (sendLinkMsgs_within ..) rfl (.step (setLink_within ..) rfl (.refl _ _))))

end Sys2Proof.Laws
end

