-- ==== Sys2Proof/Laws/FrameLinkDown.lean ====
section
/-! SUPPORT. What the operations of Machine/LinkDown.lean may change: one lemma for each. -/

namespace Sys2Proof.Laws

open Sys2Proof Sys2Proof.Machine

theorem endChange_within {s t n result} : Within [.regs, .lode] s (endChange s t n result) := by
  unfold endChange
  exact (.step (sf_within ..) rfl (.step (sf_within ..) rfl (.step (sf_within ..) rfl (.step (setLink_within ..) rfl (.refl _ _)))))

theorem setLinkState_within {s t n st} : Within [.regs] s (setLinkState s t n st) := by
  unfold setLinkState
  exact (.step (sf_within ..) rfl (.step (sf_within ..) rfl (.refl _ _)))

theorem loseTags_within {s t n} : Within [.regs, .trc, .swc, .brg, .lode, .host, .wtt, .dma, .outbox, .fresh] s (loseTags s t n) := by
  unfold loseTags
  refine .ite ?_ ?_
  · exact (.refl _ _)
  · refine .foldl _ (fun s1 _ h1 => ?_) ?_
    · try dsimp only
      split
      · exact (.step (answer_within ..) rfl (.step (cf_within ..) rfl h1))
      · exact h1
    · exact (.step (wreg_within ..) rfl (.step (upd_lode ..) rfl (.refl _ _)))

theorem loseCrossed_within {s t n e} : Within [.regs, .trc, .swc, .brg, .lode, .host, .wtt, .dma, .outbox, .fresh] s (loseCrossed s t n e) := by
  unfold loseCrossed
  exact (.foldl _ (fun s1 _ h1 => (.step (answer_within ..) rfl (.step (cf_within ..) rfl h1))) (.refl _ _))

theorem flushLink_within {s t n} : Within [.regs, .trc, .swc, .brg, .lode, .host, .wtt, .dma, .outbox, .fresh] s (flushLink s t n) := by
  unfold flushLink
  refine .step (cf_within ..) rfl ?_
  try dsimp only
  split
  · exact (.step (mapFrame_within ..) rfl (.ite (.foldl _ (fun s1 _ h1 => (.step (lostWhole_within ..) rfl h1)) (.step (cf_within ..) rfl (.step (upd_lode ..) rfl (.foldl _ (fun s2 _ h2 => (.step (lostWhole_within ..) rfl (.step (cf_within ..) rfl h2))) (.refl _ _))))) (.foldl _ (fun s3 _ h3 => (.step (lostFrame_within ..) rfl h3)) (.step (cf_within ..) rfl (.step (upd_lode ..) rfl (.foldl _ (fun s4 _ h4 => (.step (lostWhole_within ..) rfl (.step (cf_within ..) rfl h4))) (.refl _ _)))))))
  · exact (.ite (.foldl _ (fun s5 _ h5 => (.step (lostWhole_within ..) rfl h5)) (.step (cf_within ..) rfl (.step (upd_lode ..) rfl (.foldl _ (fun s6 _ h6 => (.step (lostWhole_within ..) rfl (.step (cf_within ..) rfl h6))) (.refl _ _))))) (.foldl _ (fun s7 _ h7 => (.step (lostFrame_within ..) rfl h7)) (.step (cf_within ..) rfl (.step (upd_lode ..) rfl (.foldl _ (fun s8 _ h8 => (.step (lostWhole_within ..) rfl (.step (cf_within ..) rfl h8))) (.refl _ _))))))

theorem dropPool_within {s t n} : Within [.regs, .trc, .swc, .brg, .lode, .host, .wtt, .dma, .outbox, .fresh] s (dropPool s t n) := by
  unfold dropPool
  exact (.step (purge_within ..) rfl (.foldl _ (fun s1 _ h1 => (.step (lostWhole_within ..) rfl h1)) (.foldl _ (fun s2 _ h2 => (.step (lostWhole_within ..) rfl h2)) (.step (upd_brg ..) rfl (.step (upd_swc ..) rfl (.refl _ _))))))

theorem idleLocal_within {s t n} : Within [.regs, .evc] s (idleLocal s t n) := by
  unfold idleLocal
  exact (.foldl _ (fun s1 _ h1 => (.step (idleTargets_within ..) rfl h1)) (.refl _ _))

theorem loseLocal_within {s t n} : Within [.regs, .evc, .brg, .lode] s (loseLocal s t n) := by
  unfold loseLocal
  exact (.ite (.refl _ _) (.step (idleLocal_within ..) rfl (.step (evcRefresh_within ..) rfl (.step (cf_within ..) rfl (.step (upd_brg ..) rfl (.step (upd_evc ..) rfl (.step (wreg_within ..) rfl (.step (setLock_within ..) rfl (.step (heldCount_within ..) rfl (.step (upd_lode ..) rfl (.refl _ _)))))))))))

theorem freeDmaQuarantine_within {s t n} : Within [.regs, .dma] s (freeDmaQuarantine s t n) := by
  unfold freeDmaQuarantine
  exact (.foldl _ (fun s1 _ h1 => (.step (sf_within ..) rfl (.step (sf_within ..) rfl h1))) (.step (upd_dma ..) rfl (.refl _ _)))

theorem endQuarantine_within {s iss} : Within [.regs, .dma] s (endQuarantine s iss) := by
  unfold endQuarantine
  try dsimp only
  split
  · try dsimp only
    split
    · exact (.ite (.step (sf_within ..) rfl (.step (sf_within ..) rfl (.step (upd_dma ..) rfl (.refl _ _)))) (.refl _ _))
    · exact (.refl _ _)
  · exact (.refl _ _)

theorem linkDown_within {s t n held} : Within [.regs, .evc, .trc, .swc, .brg, .lode, .host, .wtt, .dma, .outbox, .fresh] s (linkDown s t n held) := by
  unfold linkDown
  exact (.step (wreg_within ..) rfl (.step (wreg_within ..) rfl (.step (wreg_within ..) rfl (.step (wreg_within ..) rfl (.step (wreg_within ..) rfl (.step (setLink_within ..) rfl (.ite (.step (endChange_within ..) rfl (.step (freeDmaQuarantine_within ..) rfl (.step (loseLocal_within ..) rfl (.step (dropPool_within ..) rfl (.step (flushLink_within ..) rfl (flushOutput_within (.step (loseCrossed_within ..) rfl (.step (loseTags_within ..) rfl (.step (sf_within ..) rfl (.step (setLinkState_within ..) rfl (.step (evt_within ..) rfl (.step (cf_within ..) rfl (.step (sf_within ..) rfl (.refl _ _)))))))) rfl (fun s1 h1 => (.step (cf_within ..) rfl h1)))))))) (.step (freeDmaQuarantine_within ..) rfl (.step (loseLocal_within ..) rfl (.step (dropPool_within ..) rfl (.step (flushLink_within ..) rfl (flushOutput_within (.step (loseCrossed_within ..) rfl (.step (loseTags_within ..) rfl (.step (sf_within ..) rfl (.step (setLinkState_within ..) rfl (.step (evt_within ..) rfl (.step (cf_within ..) rfl (.step (sf_within ..) rfl (.refl _ _)))))))) rfl (fun s2 h2 => (.step (cf_within ..) rfl h2))))))))))))))

end Sys2Proof.Laws
end

