-- ==== Sys2Proof/Laws/FrameInsBase.lean ====
section
/-! SUPPORT. What the operations of Machine/InsBase.lean may change: one lemma for each. -/

namespace Sys2Proof.Laws

open Sys2Proof Sys2Proof.Machine

theorem mbEnd_within {s t mb e} : Within [.bus] s (mbEnd s t mb e) := by
  unfold mbEnd
  exact (.step (upd_bus ..) rfl (.refl _ _))

theorem mbCmd_within {l a s t mb op k} (h : Within l a s) (hs : Grp.sub [.regs, .bus] l = true)
    (hk : ∀ x, Within l a x → Within l a (k x)) : Within l a (mbCmd s t mb op k) := by
  have e : ∀ x, Within l a x → Within l a (sf (sf (sf x t mb 31 1 0) t mb 30 1 1) t mb 24 4 op) := fun x hx =>
    (Within.step sf_within rfl (.step sf_within rfl (.step sf_within rfl (.refl [.regs, .bus] x)))).step hs hx
  have e2 : ∀ x, Within l a x → Within l a (mbEnd (cf x t mb 16 8) t mb .running) := fun x hx =>
    (Within.step mbEnd_within rfl (.step cf_within rfl (.refl [.regs, .bus] x))).step hs hx
  unfold mbCmd
  exact .ite h (hk _ (e2 _ (e _ h)))

theorem mbFinish_within {s t mb} : Within [.regs, .bus] s (mbFinish s t mb) := by
  unfold mbFinish
  refine .ite ?_ ?_
  · exact (.refl _ _)
  · try dsimp only
    split
    · exact (.refl _ _)
    · exact (.step (sf_within ..) rfl (.step (sf_within ..) rfl (.step (sf_within ..) rfl (.foldl _ (fun s1 _ h1 => (.step (wreg_within ..) rfl h1)) (.step (mbEnd_within ..) rfl (.refl _ _))))))
    · exact (.step (sf_within ..) rfl (.step (sf_within ..) rfl (.step (mbEnd_within ..) rfl (.refl _ _))))

theorem setInst_within {s i r} : Within [.ins] s (setInst s i r) := by
  unfold setInst
  exact (.step (upd_ins ..) rfl (.refl _ _))

theorem insEvent_within {s i b} : Within [.regs, .trc] s (insEvent s i b) := by
  unfold insEvent
  exact (.step (evt_within ..) rfl (.step (wreg_within ..) rfl (.refl _ _)))

theorem instEvent_within {s i b} : Within [.regs, .evc, .ins] s (instEvent s i b) := by
  unfold instEvent
  exact (.step (evcRefresh_within ..) rfl (.step (setInst_within ..) rfl (.ite (.refl _ _) (.step (notePend_within ..) rfl (.refl _ _)))))

theorem notice_within {s i opx} : Within [.swc, .brg] s (notice s i opx) := by
  unfold notice
  refine .foldl _ (fun s1 _ h1 => ?_) ?_
  · refine .ite ?_ ?_
    · try dsimp only
      exact (.step (sendIn_within ..) rfl (.step (newSerial_within ..) rfl h1))
    · exact h1
  · exact (.refl _ _)

theorem setLog_within {s i l} : Within [.ins] s (setLog s i l) := by
  unfold setLog
  exact (.step (upd_ins ..) rfl (.refl _ _))

theorem logLose_within {s i b} : Within [.regs, .evc, .trc, .ins] s (logLose s i b) := by
  unfold logLose
  exact (.ite (.step (insEvent_within ..) rfl (.step (instEvent_within ..) rfl (.step (setLog_within ..) rfl (.refl _ _)))) (.step (cf_within ..) rfl (.step (insEvent_within ..) rfl (.step (instEvent_within ..) rfl (.step (setLog_within ..) rfl (.refl _ _))))))

theorem logWrite_within {s i addr p serial} : Within [.regs, .evc, .trc, .ins] s (logWrite s i addr p serial) := by
  unfold logWrite
  exact (.ite (.refl _ _) (.ite (.refl _ _) (.ite (.step (logLose_within ..) rfl (.refl _ _)) (.ite (.step (setLog_within ..) rfl (.refl _ _)) (.ite (.step (cf_within ..) rfl (.step (setLog_within ..) rfl (.refl _ _))) (.step (sf_within ..) rfl (.step (upd_ins ..) rfl (.step (setLog_within ..) rfl (.refl _ _)))))))))

theorem logPut_within {s i n} : Within [.swc, .brg, .ins] s (logPut s i n) := by
  unfold logPut
  try dsimp only
  split
  · exact (.step (setLog_within ..) rfl (.refl _ _))
  · try dsimp only
    exact (.step (sendIn_within ..) rfl (.step (newSerial_within ..) rfl (.step (setLog_within ..) rfl (.refl _ _))))

theorem logDrain_within {s i} : Within [.swc, .brg, .ins] s (logDrain s i) := by
  unfold logDrain
  exact (.ite (.refl _ _) (.step (logPut_within ..) rfl (.refl _ _)))

theorem logFlush_within {s i n} : Within [.swc, .brg, .ins] s (logFlush s i n) := by
  induction n generalizing s with
  | zero => exact .refl _ _
  | succ n ih =>
    unfold logFlush
    try dsimp only
    exact .ite (.refl _ _) (.trans (.step logPut_within rfl (.refl _ _)) ih)

theorem logEnd_within {s i} : Within [.swc, .brg, .ins] s (logEnd s i) := by
  unfold logEnd
  exact (.step (setLog_within ..) rfl (.step (logFlush_within ..) rfl (.refl _ _)))

theorem logClear_within {s i mb} : Within [.ins] s (logClear s i mb) := by
  unfold logClear
  exact (.step (setLog_within ..) rfl (.refl _ _))

end Sys2Proof.Laws
end

