-- ==== Sys2Proof/Laws/FrameDmaBase.lean ====
section
/-! SUPPORT. What the operations of Machine/DmaBase.lean may change: one lemma for each. -/

namespace Sys2Proof.Laws

open Sys2Proof Sys2Proof.Machine

theorem setQw_within {s t q n v} : Within [.dma] s (setQw s t q n v) := by
  unfold setQw
  exact (.step (upd_dma ..) rfl (.refl _ _))

theorem setQf_within {s t q n lo w v} : Within [.dma] s (setQf s t q n lo w v) := by
  unfold setQf
  exact (.step (setQw_within ..) rfl (.refl _ _))

theorem setEng_within {s t q e} : Within [.dma] s (setEng s t q e) := by
  unfold setEng
  exact (.step (upd_dma ..) rfl (.refl _ _))

theorem stageRefresh_within {s t} : Within [.regs] s (stageRefresh s t) := by
  unfold stageRefresh
  exact (.step (sf_within ..) rfl (.step (sf_within ..) rfl (.refl _ _)))

theorem newWrite_within {s t w} : Within [.dma] s (newWrite s t w).2 := by
  unfold newWrite
  exact (.step (upd_dma ..) rfl (.refl _ _))

theorem newWrite_eq {s t w v₁ s'} (he : newWrite s t w = (v₁, s')) : Within [.dma] s s' := by
  have e := newWrite_within (s := s) (t := t) (w := w)
  rw [he] at e
  exact e

theorem dmaSendWrite_within {s t q i w data rlx ns ep} : Within [.regs, .evc, .trc, .swc, .brg, .lode, .host, .wtt, .ins, .dma, .outbox, .fresh] s (dmaSendWrite s t q i w data rlx ns ep).1 := by
  unfold dmaSendWrite
  try dsimp only
  try dsimp only
  try dsimp only
  split
  · try dsimp only
    exact (.step (enter_within ..) rfl (.step (notePosted_within ..) rfl (.step (newSerial_within ..) rfl (.step (newWrite_within ..) rfl (.refl _ _)))))
  · try dsimp only
    try dsimp only
    split
    · try dsimp only
      exact (.step (enter_within ..) rfl (.step (logWrite_within ..) rfl (.step (notePosted_within ..) rfl (.step (newSerial_within ..) rfl (.step (newWrite_within ..) rfl (.refl _ _))))))
    · try dsimp only
      exact (.step (answer_within ..) rfl (.step (newSerial_within ..) rfl (.step (newWrite_within ..) rfl (.refl _ _))))

theorem dmaSendWrite_eq {s t q i w data rlx ns ep v₁ s'} (he : dmaSendWrite s t q i w data rlx ns ep = (s', v₁)) : Within [.regs, .evc, .trc, .swc, .brg, .lode, .host, .wtt, .ins, .dma, .outbox, .fresh] s s' := by
  have e := dmaSendWrite_within (s := s) (t := t) (q := q) (i := i) (w := w) (data := data) (rlx := rlx) (ns := ns) (ep := ep)
  rw [he] at e
  exact e

theorem cplWrite_within {s t q i e} : Within [.regs, .evc, .trc, .swc, .brg, .lode, .host, .wtt, .ins, .dma, .outbox, .fresh] s (cplWrite s t q i e) := by
  unfold cplWrite
  exact (.ite (.step (upd_evc ..) rfl (.step (edge_within ..) rfl (.step (dmaSendWrite_within ..) rfl (.step (setQw_within ..) rfl (.refl _ _))))) (.step (dmaSendWrite_within ..) rfl (.step (setQw_within ..) rfl (.refl _ _))))

theorem releaseInline_within {s t q} : Within [.regs, .dma] s (releaseInline s t q) := by
  unfold releaseInline
  exact (.ite (.refl _ _) (.step (setEng_within ..) rfl (.step (sf_within ..) rfl (.refl _ _))))

theorem advanceHead_within {s t q} : Within [.dma] s (advanceHead s t q) := by
  unfold advanceHead
  exact (.ite (.step (setQf_within ..) rfl (.step (setQf_within ..) rfl (.refl _ _))) (.step (setQf_within ..) rfl (.refl _ _)))

theorem dropFetched_within {s t q} : Within [.regs, .dma] s (dropFetched s t q) := by
  unfold dropFetched
  try dsimp only
  split
  · exact (.step (stageRefresh_within ..) rfl (.step (setEng_within ..) rfl (.refl _ _)))
  · exact (.step (stageRefresh_within ..) rfl (.ite (.step (setQf_within ..) rfl (.step (setQf_within ..) rfl (.step (setEng_within ..) rfl (.refl _ _)))) (.step (setQf_within ..) rfl (.step (setEng_within ..) rfl (.refl _ _)))))

theorem skipEntry_within {s t q d k reserved} : Within [.dma] s (skipEntry s t q d k reserved) := by
  unfold skipEntry
  exact (.ite (.step (setEng_within ..) rfl (.refl _ _)) (.step (setQf_within ..) rfl (.step (setEng_within ..) rfl (.refl _ _))))

theorem restore_within {s t q rs} : Within [.dma] s (restore s t q rs) := by
  unfold restore
  refine .ite ?_ ?_
  · try dsimp only
    split
    · exact (.refl _ _)
    · exact (.step (setQf_within ..) rfl (.step (setEng_within ..) rfl (.refl _ _)))
  · exact (.step (setEng_within ..) rfl (.refl _ _))

theorem queueResume_within {s t q} : Within [.dma] s (queueResume s t q) := by
  unfold queueResume
  try dsimp only
  split
  · exact (.ite (.step (restore_within ..) rfl (.step (setEng_within ..) rfl (.step (setQf_within ..) rfl (.refl _ _)))) (.step (setEng_within ..) rfl (.step (setQf_within ..) rfl (.refl _ _))))
  · exact (.step (setQf_within ..) rfl (.refl _ _))

theorem dropNext_within {s t q} : Within [.dma] s (dropNext s t q) := by
  unfold dropNext
  exact (.ite (.step (advanceHead_within ..) rfl (.step (setEng_within ..) rfl (.refl _ _))) (.step (setEng_within ..) rfl (.refl _ _)))

theorem queueSkip_within {s t q} : Within [.dma] s (queueSkip s t q) := by
  unfold queueSkip
  try dsimp only
  split
  · exact (.step (skipEntry_within ..) rfl (.step (setQf_within ..) rfl (.refl _ _)))
  · exact (.ite (.step (advanceHead_within ..) rfl (.step (setQf_within ..) rfl (.refl _ _))) (.step (setQf_within ..) rfl (.refl _ _)))

theorem queueCmd_within {s t q cmd driver} : Within [.regs, .dma] s (queueCmd s t q cmd driver) := by
  unfold queueCmd
  refine .ite ?_ ?_
  · exact (.refl _ _)
  · refine .ite ?_ ?_
    · exact (.step (setQf_within ..) rfl (.refl _ _))
    · try dsimp only
      split
      · exact (.ite (.step (setQf_within ..) rfl (.refl _ _)) (.ite (.step (setQf_within ..) rfl (.refl _ _)) (.ite (.ite (.step (setQf_within ..) rfl (.refl _ _)) (.step (setQf_within ..) rfl (.step (setQf_within ..) rfl (.step (setEng_within ..) rfl (.step (sf_within ..) rfl (.refl _ _)))))) (.step (setQf_within ..) rfl (.step (setQf_within ..) rfl (.refl _ _))))))
      · exact (.ite (.step (setQf_within ..) rfl (.refl _ _)) (.step (setQf_within ..) rfl (.step (queueResume_within ..) rfl (.refl _ _))))
      · exact (.ite (.step (setQf_within ..) rfl (.refl _ _)) (.step (setQf_within ..) rfl (.step (queueSkip_within ..) rfl (.refl _ _))))
      · exact (.ite (.step (setQf_within ..) rfl (.refl _ _)) (.step (stageRefresh_within ..) rfl (.step (setQf_within ..) rfl (.step (setQf_within ..) rfl (.step (setEng_within ..) rfl (.refl _ _))))))

theorem queueResetEnd_within {s t q} : Within [.regs, .dma] s (queueResetEnd s t q) := by
  unfold queueResetEnd
  exact (.ite (.refl _ _) (.step (stageRefresh_within ..) rfl (.step (setQw_within ..) rfl (.step (setQw_within ..) rfl (.step (setQw_within ..) rfl (.step (setQw_within ..) rfl (.step (setQw_within ..) rfl (.step (setQf_within ..) rfl (.step (setQw_within ..) rfl (.step (setEng_within ..) rfl (.step (releaseInline_within ..) rfl (.refl _ _))))))))))))

theorem dropDoorbell_within {s t q kind} : Within [.regs, .trc, .dma] s (dropDoorbell s t q kind) := by
  unfold dropDoorbell
  exact (.step (evt_within ..) rfl (.step (wreg_within ..) rfl (.ite (.step (cf_within ..) rfl (.step (setQf_within ..) rfl (.refl _ _))) (.step (cf_within ..) rfl (.step (setQf_within ..) rfl (.refl _ _))))))

theorem doorbell_within {s i t q off be v} : Within [.regs, .trc, .dma] s (doorbell s i t q off be v) := by
  unfold doorbell
  refine .ite ?_ ?_
  · exact (.refl _ _)
  · try dsimp only
    split
    · exact (.step (dropDoorbell_within ..) rfl (.refl _ _))
    · try dsimp only
      split
      · exact (.ite (.step (dropDoorbell_within ..) rfl (.refl _ _)) (.ite (.step (dropDoorbell_within ..) rfl (.refl _ _)) (.step (setQf_within ..) rfl (.refl _ _))))
      · exact (.step (setEng_within ..) rfl (.refl _ _))
      · exact (.step (dropDoorbell_within ..) rfl (.refl _ _))

theorem doorbell64_within {s i t q en b} : Within [.regs, .trc, .dma] s (doorbell64 s i t q en b) := by
  unfold doorbell64
  try dsimp only
  split
  · exact (.step (dropDoorbell_within ..) rfl (.refl _ _))
  · try dsimp only
    split
    · exact (.ite (.step (dropDoorbell_within ..) rfl (.refl _ _)) (.ite (.step (dropDoorbell_within ..) rfl (.refl _ _)) (.step (setQf_within ..) rfl (.refl _ _))))
    · exact (.step (setEng_within ..) rfl (.refl _ _))
    · exact (.ite (.step (dropDoorbell_within ..) rfl (.refl _ _)) (.ite (.step (dropDoorbell_within ..) rfl (.refl _ _)) (.foldl _ (fun s1 _ h1 => (.step (setQf_within ..) rfl (.step (setEng_within ..) rfl h1))) (.refl _ _))))

theorem cplHead_within {s t q be v} : Within [.dma] s (cplHead s t q be v) := by
  unfold cplHead
  refine .ite ?_ ?_
  · exact (.refl _ _)
  · try dsimp only
    split
    · exact (.ite (.step (setQf_within ..) rfl (.step (setEng_within ..) rfl (.step (setQw_within ..) rfl (.refl _ _)))) (.step (setQw_within ..) rfl (.refl _ _)))
    · exact (.step (setQw_within ..) rfl (.refl _ _))
    · exact (.ite (.step (setQf_within ..) rfl (.step (setQw_within ..) rfl (.refl _ _))) (.step (setQw_within ..) rfl (.refl _ _)))

theorem qctxDriverWrite_within {s t q n be v} : Within [.regs, .dma] s (qctxDriverWrite s t q n be v) := by
  unfold qctxDriverWrite
  try dsimp only
  split
  · exact (.ite (.step (setQf_within ..) rfl (.refl _ _)) (.refl _ _))
  · exact (.ite (.step (queueCmd_within ..) rfl (.refl _ _)) (.refl _ _))
  · exact (.ite (.step (setQw_within ..) rfl (.refl _ _)) (.refl _ _))
  · exact (.ite (.step (setQw_within ..) rfl (.refl _ _)) (.refl _ _))
  · exact (.ite (.step (setQw_within ..) rfl (.refl _ _)) (.refl _ _))
  · exact (.ite (.step (setQw_within ..) rfl (.refl _ _)) (.refl _ _))
  · exact (.ite (.step (setQw_within ..) rfl (.refl _ _)) (.refl _ _))
  · exact (.step (cplHead_within ..) rfl (.refl _ _))
  · exact (.ite (.step (setQw_within ..) rfl (.refl _ _)) (.refl _ _))
  · exact (.refl _ _)

theorem queueClear_within {s t q keep} : Within [.regs, .dma] s (queueClear s t q keep) := by
  unfold queueClear
  exact (.foldl _ (fun s1 _ h1 => (.ite h1 (.step (setQw_within ..) rfl h1))) (.step (setEng_within ..) rfl (.step (releaseInline_within ..) rfl (.refl _ _))))

end Sys2Proof.Laws
end

