-- ==== Sys2Proof/Laws/FrameDma.lean ====
section
/-! SUPPORT. What the operations of Machine/Dma.lean may change: one lemma for each. -/

namespace Sys2Proof.Laws

open Sys2Proof Sys2Proof.Machine

theorem startSettle_within {s t q} : Within [.dma] s (startSettle s t q) := by
  unfold startSettle
  exact (.step (setEng_within ..) rfl (.refl _ _))

theorem fetchFails_within {s t q status} : Within [.dma] s (fetchFails s t q status) := by
  unfold fetchFails
  exact (.step (startSettle_within ..) rfl (.step (setEng_within ..) rfl (.refl _ _)))

theorem takeDescs_within {s t q n b} : Within [.dma] s (takeDescs s t q n b) := by
  induction n generalizing s b with
  | zero => exact .refl _ _
  | succ n ih =>
    unfold takeDescs
    exact .ite (.refl _ _) (.trans (.step advanceHead_within rfl (.step setEng_within rfl (.refl _ _))) ih)

theorem sendDmaRead_within {s t q i tag islocal addr len rlx ns} : Within [.regs, .trc, .swc, .brg, .lode, .host, .wtt, .dma, .outbox, .fresh] s (sendDmaRead s t q i tag islocal addr len rlx ns) := by
  unfold sendDmaRead
  try dsimp only
  refine .ite ?_ ?_
  · exact (.step (enter_within ..) rfl (.step (newSerial_within ..) rfl (.step (cf_within ..) rfl (.step (upd_dma ..) rfl (.step (tickFresh_within ..) rfl (.refl _ _))))))
  · try dsimp only
    split
    · exact (.step (enter_within ..) rfl (.step (newSerial_within ..) rfl (.step (cf_within ..) rfl (.step (upd_dma ..) rfl (.step (tickFresh_within ..) rfl (.refl _ _))))))
    · exact (.step (answer_within ..) rfl (.step (newSerial_within ..) rfl (.step (cf_within ..) rfl (.step (upd_dma ..) rfl (.step (tickFresh_within ..) rfl (.refl _ _))))))

theorem fetch_within {s t q} : Within [.regs, .trc, .swc, .brg, .lode, .host, .wtt, .dma, .outbox, .fresh] s (fetch s t q) := by
  unfold fetch
  try dsimp only
  split
  · exact (.refl _ _)
  · refine .ite ?_ ?_
    · exact (.refl _ _)
    · refine .ite ?_ ?_
      · exact (.step (evt_within ..) rfl (.refl _ _))
      · refine .ite ?_ ?_
        · exact (.refl _ _)
        · refine .step (stageRefresh_within ..) rfl ?_
          refine .foldl _ (fun s1 _ h1 => ?_) ?_
          · try dsimp only
            split
            · exact (.step (sendDmaRead_within ..) rfl (.step (setEng_within ..) rfl h1))
            · exact h1
          · exact (.step (setEng_within ..) rfl (.refl _ _))

theorem fetchEnd_within {s t q} : Within [.regs, .dma] s (fetchEnd s t q) := by
  unfold fetchEnd
  refine .ite ?_ ?_
  · exact (.refl _ _)
  · try dsimp only
    split
    · exact (.step (stageRefresh_within ..) rfl (.step (fetchFails_within ..) rfl (.step (setEng_within ..) rfl (.refl _ _))))
    · exact (.ite (.step (stageRefresh_within ..) rfl (.step (fetchFails_within ..) rfl (.step (setEng_within ..) rfl (.refl _ _)))) (.step (stageRefresh_within ..) rfl (.ite (.step (setEng_within ..) rfl (.step (takeDescs_within ..) rfl (.step (setEng_within ..) rfl (.refl _ _)))) (.step (takeDescs_within ..) rfl (.step (setEng_within ..) rfl (.refl _ _))))))

theorem startDesc_within {s t q} : Within [.regs, .dma] s (startDesc s t q) := by
  unfold startDesc
  try dsimp only
  split
  · refine .ite ?_ ?_
    · exact (.refl _ _)
    · try dsimp only
      split
      · exact (.step (setEng_within ..) rfl (.refl _ _))
      · exact (.ite (.step (setQf_within ..) rfl (.refl _ _)) (.step (stageRefresh_within ..) rfl (.step (upd_dma ..) rfl (.step (setEng_within ..) rfl (.step (dropNext_within ..) rfl (.step (setQf_within ..) rfl (.refl _ _)))))))
  · exact (.refl _ _)

theorem retire_within {s t q n} : Within [.regs, .trc, .dma] s (retire s t q n) := by
  induction n generalizing s with
  | zero => exact .refl _ _
  | succ n ih =>
    unfold retire
    try dsimp only
    split
    · exact .ite (.trans (.ite (.step evt_within rfl (.step cf_within rfl (.step setEng_within rfl (.refl _ _))))
        (.step setEng_within rfl (.refl _ _))) ih) (.refl _ _)
    · exact .refl _ _

theorem writeEntry_within {s t q} : Within [.regs, .evc, .trc, .swc, .brg, .lode, .host, .wtt, .ins, .dma, .outbox, .fresh] s (writeEntry s t q) := by
  unfold writeEntry
  try dsimp only
  split
  · exact (.step (retire_within ..) rfl (.refl _ _))
  · refine .ite ?_ ?_
    · exact (.step (retire_within ..) rfl (.refl _ _))
    · try dsimp only
      split
      · exact (.ite (.step (stageRefresh_within ..) rfl (.step (cplWrite_within ..) rfl (.step (setEng_within ..) rfl (.step (retire_within ..) rfl (.refl _ _))))) (.step (retire_within ..) rfl (.refl _ _)))
      · try dsimp only
        split
        · exact (.ite (.step (stageRefresh_within ..) rfl (.step (cplWrite_within ..) rfl (.ite (.step (evt_within ..) rfl (.step (cf_within ..) rfl (.step (setEng_within ..) rfl (.step (retire_within ..) rfl (.refl _ _))))) (.step (setEng_within ..) rfl (.step (retire_within ..) rfl (.refl _ _)))))) (.step (retire_within ..) rfl (.refl _ _)))
        · exact (.step (retire_within ..) rfl (.refl _ _))

theorem dropDeficits_within {s t} : Within [.dma] s (dropDeficits s t) := by
  unfold dropDeficits
  exact (.step (upd_dma ..) rfl (.refl _ _))

theorem drrPick_within {s t c el} : Within [.dma] s (drrPick s t c el).2 := by
  unfold drrPick
  try dsimp only
  split
  · try dsimp only
    exact (.step (upd_dma ..) rfl (.refl _ _))
  · try dsimp only
    try dsimp only
    split
    · try dsimp only
      exact (.step (upd_dma ..) rfl (.step (upd_dma ..) rfl (.step (upd_dma ..) rfl (.refl _ _))))
    · try dsimp only
      exact (.step (upd_dma ..) rfl (.step (upd_dma ..) rfl (.step (upd_dma ..) rfl (.step (upd_dma ..) rfl (.refl _ _)))))

theorem drrPick_eq {s t c el v₁ s'} (he : drrPick s t c el = (v₁, s')) : Within [.dma] s s' := by
  have e := drrPick_within (s := s) (t := t) (c := c) (el := el)
  rw [he] at e
  exact e

theorem issueRead_within {s t c x tag} : Within [.regs, .trc, .swc, .brg, .lode, .host, .wtt, .dma, .outbox, .fresh] s (issueRead s t c x tag) := by
  unfold issueRead
  exact (.step (sendDmaRead_within ..) rfl (.step (stageRefresh_within ..) rfl (.step (upd_dma ..) rfl (.step (setEng_within ..) rfl (.refl _ _)))))

theorem readIssue_within {s t} : Within [.regs, .trc, .swc, .brg, .lode, .host, .wtt, .dma, .outbox, .fresh] s (readIssue s t) := by
  unfold readIssue
  refine .ite ?_ ?_
  · exact (.ite (.step (evt_within ..) rfl (.step (dropDeficits_within ..) rfl (.refl _ _))) (.step (dropDeficits_within ..) rfl (.refl _ _)))
  · try dsimp only
    split
    · exact (.ite (.step (evt_within ..) rfl (.step (dropDeficits_within ..) rfl (.refl _ _))) (.step (dropDeficits_within ..) rfl (.refl _ _)))
    · try dsimp only
      split
      · exact (.step (issueRead_within ..) rfl (.step (evt_within ..) rfl (.step (cf_within ..) rfl (.step (upd_dma ..) rfl (.ite (.step (evt_within ..) rfl (.step (dropDeficits_within ..) rfl (.refl _ _))) (.step (dropDeficits_within ..) rfl (.refl _ _)))))))
      · try dsimp only
        split
        · exact (.ite (.step (evt_within ..) rfl (.step (dropDeficits_within ..) rfl (.refl _ _))) (.step (dropDeficits_within ..) rfl (.refl _ _)))
        · try dsimp only
          split
          · exact (.step (issueRead_within ..) rfl (.step (drrPick_eq (by assumption)) rfl (.ite (.step (evt_within ..) rfl (.step (dropDeficits_within ..) rfl (.refl _ _))) (.step (dropDeficits_within ..) rfl (.refl _ _)))))
          · exact (.step (drrPick_eq (by assumption)) rfl (.ite (.step (evt_within ..) rfl (.step (dropDeficits_within ..) rfl (.refl _ _))) (.step (dropDeficits_within ..) rfl (.refl _ _))))

theorem drrEpoch_within {s t} : Within [.dma] s (drrEpoch s t) := by
  unfold drrEpoch
  exact (.foldl _ (fun s1 _ h1 => (.foldl _ (fun s2 _ h2 => (.step (upd_dma ..) rfl h2)) h1)) (.step (upd_dma ..) rfl (.refl _ _)))

theorem noteReady_within {s t q} : Within [.dma] s (noteReady s t q) := by
  unfold noteReady
  exact (.ite (.ite (.refl _ _) (.step (upd_dma ..) rfl (.refl _ _))) (.step (upd_dma ..) rfl (.refl _ _)))

theorem writeIssue_within {s t} : Within [.regs, .evc, .trc, .swc, .brg, .lode, .host, .wtt, .ins, .dma, .outbox, .fresh] s (writeIssue s t) := by
  unfold writeIssue
  refine .ite ?_ ?_
  · exact (.refl _ _)
  · try dsimp only
    split
    · exact (.refl _ _)
    · try dsimp only
      split
      · exact (.refl _ _)
      · try dsimp only
        split
        · exact (.refl _ _)
        · try dsimp only
          exact (.step (noteReady_within ..) rfl (.step (stageRefresh_within ..) rfl (.step (setEng_within ..) rfl (.step (dmaSendWrite_within ..) rfl (.step (upd_dma ..) rfl (.refl _ _))))))

theorem readEnds_within {s t q tag status data bad} : Within [.regs, .trc, .dma] s (readEnds s t q tag status data bad) := by
  unfold readEnds
  exact (.ite (.step (fetchEnd_within ..) rfl (.step (setEng_within ..) rfl (.refl _ _))) (.ite (.step (noteReady_within ..) rfl (.step (retire_within ..) rfl (.ite (.step (startSettle_within ..) rfl (.step (setEng_within ..) rfl (.refl _ _))) (.step (setEng_within ..) rfl (.refl _ _))))) (.refl _ _)))

theorem freeReadTag_within {s t tag} : Within [.regs, .dma] s (freeReadTag s t tag) := by
  unfold freeReadTag
  exact (.step (sf_within ..) rfl (.step (upd_dma ..) rfl (.refl _ _)))

theorem quarantine_within {s t tag g byReset} : Within [.regs, .dma] s (quarantine s t tag g byReset) := by
  unfold quarantine
  exact (.step (cf_within ..) rfl (.step (upd_dma ..) rfl (.refl _ _)))

theorem readDropped_within {s t q tag status} : Within [.regs, .dma] s (readDropped s t q tag status) := by
  unfold readDropped
  exact (.ite (.step (stageRefresh_within ..) rfl (.step (setEng_within ..) rfl (.refl _ _))) (.step (setEng_within ..) rfl (.refl _ _)))

theorem readTimeout_within {s t tag} : Within [.regs, .trc, .dma] s (readTimeout s t tag) := by
  unfold readTimeout
  try dsimp only
  split
  · exact (.ite (.ite (.step (endQuarantine_within ..) rfl (.refl _ _)) (.refl _ _)) (.ite (.step (evt_within ..) rfl (.step (quarantine_within ..) rfl (.refl _ _))) (.ite (.step (readDropped_within ..) rfl (.step (evt_within ..) rfl (.step (quarantine_within ..) rfl (.refl _ _)))) (.step (readEnds_within ..) rfl (.step (evt_within ..) rfl (.step (quarantine_within ..) rfl (.refl _ _)))))))
  · exact (.refl _ _)

theorem countRead_within {s t q tag i n} : Within [.dma] s (countRead s t q tag i n) := by
  unfold countRead
  exact (.ite (.step (upd_dma ..) rfl (.refl _ _)) (.refl _ _))

theorem readData_within {s t} : Within [.regs, .trc, .dma] s (readData s t) := by
  unfold readData
  try dsimp only
  split
  · exact (.refl _ _)
  · try dsimp only
    split
    · exact (.step (upd_dma ..) rfl (.refl _ _))
    · exact (.ite (.ite (.step (upd_dma ..) rfl (.refl _ _)) (.step (readTimeout_within ..) rfl (.step (upd_dma ..) rfl (.refl _ _)))) (.ite (.step (sf_within ..) rfl (.step (freeReadTag_within ..) rfl (.step (upd_dma ..) rfl (.refl _ _)))) (.ite (.step (freeReadTag_within ..) rfl (.step (upd_dma ..) rfl (.refl _ _))) (.ite (.step (readDropped_within ..) rfl (.step (freeReadTag_within ..) rfl (.step (upd_dma ..) rfl (.refl _ _)))) (.step (stageRefresh_within ..) rfl (.step (readEnds_within ..) rfl (.ite (.step (countRead_within ..) rfl (.step (freeReadTag_within ..) rfl (.step (upd_dma ..) rfl (.refl _ _)))) (.step (freeReadTag_within ..) rfl (.step (upd_dma ..) rfl (.refl _ _))))))))))

theorem settleWrite_within {s t w status} : Within [.regs, .trc, .dma] s (settleWrite s t w status) := by
  unfold settleWrite
  try dsimp only
  split
  · exact (.refl _ _)
  · refine .ite ?_ ?_
    · exact (.ite (.step (evt_within ..) rfl (.step (upd_dma ..) rfl (.refl _ _))) (.step (upd_dma ..) rfl (.refl _ _)))
    · refine .ite ?_ ?_
      · exact (.ite (.ite (.step (evt_within ..) rfl (.step (upd_dma ..) rfl (.refl _ _))) (.step (upd_dma ..) rfl (.refl _ _))) (.step (startSettle_within ..) rfl (.step (setEng_within ..) rfl (.ite (.step (evt_within ..) rfl (.step (upd_dma ..) rfl (.refl _ _))) (.step (upd_dma ..) rfl (.refl _ _))))))
      · refine .ite ?_ ?_
        · try dsimp only
          split
          · exact (.step (stageRefresh_within ..) rfl (.step (retire_within ..) rfl (.step (upd_dma ..) rfl (.step (setEng_within ..) rfl (.ite (.step (evt_within ..) rfl (.step (upd_dma ..) rfl (.refl _ _))) (.step (upd_dma ..) rfl (.refl _ _)))))))
          · exact (.step (setEng_within ..) rfl (.ite (.step (evt_within ..) rfl (.step (upd_dma ..) rfl (.refl _ _))) (.step (upd_dma ..) rfl (.refl _ _))))
        · exact (.step (startSettle_within ..) rfl (.step (setEng_within ..) rfl (.ite (.step (evt_within ..) rfl (.step (upd_dma ..) rfl (.refl _ _))) (.step (upd_dma ..) rfl (.refl _ _)))))

theorem writeSettle_within {s t} : Within [.regs, .trc, .dma] s (writeSettle s t) := by
  unfold writeSettle
  try dsimp only
  split
  · exact (.refl _ _)
  · exact (.step (settleWrite_within ..) rfl (.step (upd_dma ..) rfl (.refl _ _)))

theorem latchHalt_within {s t q h} : Within [.regs, .evc, .trc, .dma] s (latchHalt s t q h) := by
  unfold latchHalt
  exact (.step (edge_within ..) rfl (.step (evt_within ..) rfl (.step (wreg_within ..) rfl (.ite (.step (cf_within ..) rfl (.step (setQf_within ..) rfl (.step (setQw_within ..) rfl (.step (setQw_within ..) rfl (.step (setQw_within ..) rfl (.refl _ _)))))) (.step (cf_within ..) rfl (.step (setQf_within ..) rfl (.step (setQw_within ..) rfl (.step (setQw_within ..) rfl (.step (setQw_within ..) rfl (.refl _ _))))))))))

theorem holdNext_within {s t q} : Within [.dma] s (holdNext s t q) := by
  unfold holdNext
  try dsimp only
  split
  · exact (.step (setEng_within ..) rfl (.step (dropNext_within ..) rfl (.refl _ _)))
  · exact (.refl _ _)

theorem dropIfFrozen_within {s t q} : Within [.regs, .dma] s (dropIfFrozen s t q) := by
  unfold dropIfFrozen
  try dsimp only
  split
  · exact (.ite (.step (dropFetched_within ..) rfl (.refl _ _)) (.refl _ _))
  · exact (.refl _ _)

theorem queueHalt_within {s t q} : Within [.regs, .evc, .trc, .dma] s (queueHalt s t q) := by
  unfold queueHalt
  refine .ite ?_ ?_
  · exact (.refl _ _)
  · refine .ite ?_ ?_
    · refine .ite ?_ ?_
      · try dsimp only
        split
        · refine .ite ?_ ?_
          · exact (.step (stageRefresh_within ..) rfl (.step (dropIfFrozen_within ..) rfl (.step (latchHalt_within ..) rfl (.step (restore_within ..) rfl (.step (setEng_within ..) rfl (.refl _ _))))))
          · try dsimp only
            split
            · try dsimp only
              split
              · exact (.step (noteReady_within ..) rfl (.step (setEng_within ..) rfl (.refl _ _)))
              · exact (.refl _ _)
            · exact (.step (setEng_within ..) rfl (.refl _ _))
        · try dsimp only
          split
          · try dsimp only
            split
            · exact (.step (noteReady_within ..) rfl (.step (setEng_within ..) rfl (.refl _ _)))
            · exact (.refl _ _)
          · exact (.step (setEng_within ..) rfl (.refl _ _))
      · exact (.refl _ _)
    · try dsimp only
      split
      · try dsimp only
        split
        · exact (.ite (.step (stageRefresh_within ..) rfl (.step (dropIfFrozen_within ..) rfl (.step (latchHalt_within ..) rfl (.step (restore_within ..) rfl (.step (setEng_within ..) rfl (.refl _ _)))))) (.refl _ _))
        · exact (.refl _ _)
      · try dsimp only
        split
        · exact (.ite (.step (stageRefresh_within ..) rfl (.step (latchHalt_within ..) rfl (.ite (.step (holdNext_within ..) rfl (.step (setEng_within ..) rfl (.refl _ _))) (.step (setEng_within ..) rfl (.refl _ _))))) (.refl _ _))
        · exact (.refl _ _)

theorem abortReport_within {s t} : Within [.regs, .trc, .swc, .brg, .lode, .host, .wtt, .dma, .outbox, .fresh] s (abortReport s t) := by
  unfold abortReport
  try dsimp only
  split
  · exact (.refl _ _)
  · exact (.step (answer_within ..) rfl (.step (upd_dma ..) rfl (.refl _ _)))

theorem qctxRead_within {s t} : Within [.regs, .bus] s (qctxRead s t) := by
  unfold qctxRead
  exact (mbCmd_within (.refl _ _) rfl (fun s1 h1 => (.step (mbEnd_within ..) rfl h1)))

theorem qctxWrite_within {s t} : Within [.regs, .bus, .dma] s (qctxWrite s t) := by
  unfold qctxWrite
  exact (mbCmd_within (.refl _ _) rfl (fun s1 h1 => (.ite (.step (mbEnd_within ..) rfl h1) (.ite (.step (mbEnd_within ..) rfl h1) (.step (mbEnd_within ..) rfl (.step (setQw_within ..) rfl (.step (setQw_within ..) rfl (.step (setQw_within ..) rfl (.step (setQf_within ..) rfl (.step (setQf_within ..) rfl (.step (setQf_within ..) rfl (.step (setQw_within ..) rfl (.step (setQw_within ..) rfl (.step (setQw_within ..) rfl (.step (setQw_within ..) rfl (.ite (.step (setQw_within ..) rfl (.step (setQw_within ..) rfl (.step (setQw_within ..) rfl (.step (setQw_within ..) rfl (.step (setQw_within ..) rfl (.step (setQw_within ..) rfl (.step (setQw_within ..) rfl h1))))))) (.step (setQw_within ..) rfl (.step (setQw_within ..) rfl (.step (setQw_within ..) rfl (.step (setQw_within ..) rfl (.step (setQw_within ..) rfl (.step (setQw_within ..) rfl h1))))))))))))))))))))))

theorem qctxShare_within {s t} : Within [.regs, .bus, .dma] s (qctxShare s t) := by
  unfold qctxShare
  exact (mbCmd_within (.refl _ _) rfl (fun s1 h1 => (.ite (.step (mbEnd_within ..) rfl h1) (.step (mbEnd_within ..) rfl (.step (setQw_within ..) rfl h1)))))

theorem qctxCmd_within {s t} : Within [.regs, .bus, .dma] s (qctxCmd s t) := by
  unfold qctxCmd
  exact (mbCmd_within (.refl _ _) rfl (fun s1 h1 => (.ite (.step (mbEnd_within ..) rfl h1) (.step (mbEnd_within ..) rfl (.step (queueCmd_within ..) rfl h1)))))

theorem cntRead_within {s t mb top value} : Within [.regs, .bus] s (cntRead s t mb top value) := by
  unfold cntRead
  exact (mbCmd_within (.refl _ _) rfl (fun _ h => .ite (.step mbEnd_within rfl h) (.step mbEnd_within rfl h)))

theorem poll_within {s t q} : Within [.regs, .trc, .swc, .brg, .lode, .host, .wtt, .dma, .outbox, .fresh] s (poll s t q) := by
  unfold poll
  exact (.ite (.step (fetch_within ..) rfl (.step (setEng_within ..) rfl (.refl _ _))) (.refl _ _))

theorem dmaCntRead_within {s t} : Within [.regs, .bus] s (dmaCntRead s t) := by
  unfold dmaCntRead
  exact (.step (cntRead_within ..) rfl (.refl _ _))

theorem dmaCntWrite_within {s t} : Within [.regs, .bus] s (dmaCntWrite s t) := by
  unfold dmaCntWrite
  exact (mbCmd_within (.refl _ _) rfl (fun s1 h1 => (.step (mbEnd_within ..) rfl h1)))

end Sys2Proof.Laws
end

