-- ==== Sys2Proof/Laws/FrameInsReset.lean ====
section
/-! SUPPORT. What the operations of Machine/InsReset.lean may change: one lemma for each. -/

namespace Sys2Proof.Laws

open Sys2Proof Sys2Proof.Machine

theorem unlock_within {s h f} : Within [.swc, .brg, .lode] s (unlock s h f) := by
  unfold unlock
  try dsimp only
  split
  · try dsimp only
    exact (.step (enter_within ..) rfl (.step (newSerial_within ..) rfl (.refl _ _)))
  · exact (.step (endLocks_within ..) rfl (.refl _ _))

theorem btabRefresh_within {s t b} : Within [.regs] s (btabRefresh s t b) := by
  unfold btabRefresh
  exact (.ite (.refl _ _) (.step (sf_within ..) rfl (.refl _ _)))

theorem dropInstDeadlines_within {s i} : Within [.regs, .flt] s (dropInstDeadlines s i) := by
  unfold dropInstDeadlines
  exact (.foldl _ (fun s1 _ h1 => (.step (btabRefresh_within ..) rfl h1)) (.step (upd_flt ..) rfl (.refl _ _)))

theorem clearVectors_within {s i} : Within [.evc, .brg, .host] s (clearVectors s i) := by
  unfold clearVectors
  exact ⟨fun g hg => by cases g <;> first | rfl | exact absurd hg (by decide), ⟨rfl, fun _ => .refl _, rfl, rfl, List.prefix_rfl, Nat.le_refl _, Nat.le_refl _, Nat.le_refl _, fun _ h => h, id, id⟩⟩

theorem dropStreams_within {s i} : Within [.regs, .trc, .host, .wtt] s (dropStreams s i) := by
  unfold dropStreams
  exact (.foldl _ (fun s1 _ h1 => (.step (dropStream_within ..) rfl h1)) (.refl _ _))

theorem setResetRun_within {s i x} : Within [.ins] s (setResetRun s i x) := by
  unfold setResetRun
  exact (.step (upd_ins ..) rfl (.refl _ _))

theorem staleHeld_within {s i} : Within [.swc, .brg, .lode, .wtt] s (staleHeld s i) := by
  unfold staleHeld
  refine .foldl _ (fun s1 _ h1 => ?_) ?_
  · try dsimp only
    split
    · exact (.ite h1 (.step (rspOwn_within ..) rfl h1))
    · exact h1
  · exact (.refl _ _)

theorem resetGen_within {s i flr} : Within [.regs, .swc, .brg, .lode, .host, .wtt, .ins, .dma, .outbox, .fresh] s (resetGen s i flr) := by
  unfold resetGen
  refine .foldl _ (fun s1 _ h1 => ?_) ?_
  · exact (.ite (.step (upd_host ..) rfl (.step (uncross_within ..) rfl h1)) (.step (completeInb_within ..) rfl h1))
  · refine .foldl _ (fun s2 _ h2 => ?_) ?_
    · try dsimp only
      split
      · exact (.step (quarantine_within ..) rfl h2)
      · exact h2
    · exact (.step (staleHeld_within ..) rfl (.step (setInst_within ..) rfl (.refl _ _)))

theorem resetStall_within {s i x first} : Within [.regs, .trc, .swc, .brg, .lode, .host, .wtt, .ins, .dma, .outbox, .fresh] s (resetStall s i x first) := by
  unfold resetStall
  exact (.ite (.ite (.step (insEvent_within ..) rfl (.step (setResetRun_within ..) rfl (.refl _ _))) (.step (setResetRun_within ..) rfl (.refl _ _))) (.step (resetGen_within ..) rfl (.step (setResetRun_within ..) rfl (.refl _ _))))

theorem startReset_within {s i x} : Within [.regs, .flt, .trc, .swc, .brg, .lode, .host, .wtt, .ins, .dma, .outbox, .fresh] s (startReset s i x) := by
  unfold startReset
  refine .ite ?_ ?_
  · exact (.refl _ _)
  · refine .ite ?_ ?_
    · exact (.refl _ _)
    · refine .ite ?_ ?_
      · try dsimp only
        split
        · exact (.step (setResetRun_within ..) rfl (.refl _ _))
        · exact (.refl _ _)
      · refine .step (resetStall_within ..) rfl ?_
        refine .step (dropInstDeadlines_within ..) rfl ?_
        try dsimp only
        split
        · exact (.step (endLocks_within ..) rfl (.step (dropStreams_within ..) rfl (.step (stageRefresh_within ..) rfl (.foldl _ (fun s1 _ h1 => (.ite (.step (setQf_within ..) rfl (.step (setQf_within ..) rfl (.step (setEng_within ..) rfl h1))) (.step (setEng_within ..) rfl h1))) (.step (setInst_within ..) rfl (.refl _ _))))))
        · exact (.step (dropStreams_within ..) rfl (.step (stageRefresh_within ..) rfl (.foldl _ (fun s2 _ h2 => (.ite (.step (setQf_within ..) rfl (.step (setQf_within ..) rfl (.step (setEng_within ..) rfl h2))) (.step (setEng_within ..) rfl h2))) (.step (setInst_within ..) rfl (.refl _ _)))))

theorem freeInst_within {s i} : Within [.regs, .evc, .swc, .brg, .ins] s (freeInst s i) := by
  unfold freeInst
  exact (.step (evcRefresh_within ..) rfl (.step (setInst_within ..) rfl (.step (notice_within ..) rfl (.step (logEnd_within ..) rfl (.refl _ _)))))

theorem finishReset_within {s i x} : Within [.regs, .bus, .evc, .trc, .swc, .brg, .host, .ins, .dma] s (finishReset s i x) := by
  unfold finishReset
  try dsimp only
  split
  · exact (.step (mbEnd_within ..) rfl (.ite (.step (freeInst_within ..) rfl (.step (insEvent_within ..) rfl (.step (instEvent_within ..) rfl (.step (setResetRun_within ..) rfl (.step (notice_within ..) rfl (.step (setInst_within ..) rfl (.step (evcInstInit_within ..) rfl (.step (clearVectors_within ..) rfl (.step (stageRefresh_within ..) rfl (.foldl _ (fun s1 _ h1 => (.step (queueClear_within ..) rfl h1)) (.refl _ _))))))))))) (.step (insEvent_within ..) rfl (.step (instEvent_within ..) rfl (.step (setResetRun_within ..) rfl (.step (notice_within ..) rfl (.step (setInst_within ..) rfl (.step (evcInstInit_within ..) rfl (.step (clearVectors_within ..) rfl (.step (stageRefresh_within ..) rfl (.foldl _ (fun s2 _ h2 => (.step (queueClear_within ..) rfl h2)) (.refl _ _))))))))))))
  · exact (.ite (.step (freeInst_within ..) rfl (.step (insEvent_within ..) rfl (.step (instEvent_within ..) rfl (.step (setResetRun_within ..) rfl (.step (notice_within ..) rfl (.step (setInst_within ..) rfl (.step (evcInstInit_within ..) rfl (.step (clearVectors_within ..) rfl (.step (stageRefresh_within ..) rfl (.foldl _ (fun s3 _ h3 => (.step (queueClear_within ..) rfl h3)) (.refl _ _))))))))))) (.step (insEvent_within ..) rfl (.step (instEvent_within ..) rfl (.step (setResetRun_within ..) rfl (.step (notice_within ..) rfl (.step (setInst_within ..) rfl (.step (evcInstInit_within ..) rfl (.step (clearVectors_within ..) rfl (.step (stageRefresh_within ..) rfl (.foldl _ (fun s4 _ h4 => (.step (queueClear_within ..) rfl h4)) (.refl _ _)))))))))))

theorem drainEnd_within {s i} : Within [.regs, .bus, .evc, .trc, .swc, .brg, .host, .ins, .dma] s (drainEnd s i) := by
  unfold drainEnd
  try dsimp only
  split
  · exact (.ite (.step (finishReset_within ..) rfl (.refl _ _)) (.refl _ _))
  · exact (.refl _ _)

end Sys2Proof.Laws
end

