-- ==== Sys2Proof/Laws/FrameHostDown.lean ====
section
/-! SUPPORT. What the operations of Machine/HostDown.lean may change: one lemma for each. -/

namespace Sys2Proof.Laws

open Sys2Proof Sys2Proof.Machine

theorem tagsRefresh_within {s t} : Within [.regs] s (tagsRefresh s t) := by
  unfold tagsRefresh
  exact (.step (sf_within ..) rfl (.refl _ _))

theorem releaseTags_within {s h} : Within [.regs, .trc, .swc, .brg, .lode, .host, .wtt, .dma, .outbox, .fresh] s (releaseTags s h) := by
  unfold releaseTags
  refine .step (tagsRefresh_within ..) rfl ?_
  refine .foldl _ (fun s1 _ h1 => ?_) ?_
  · try dsimp only
    split
    · exact (.ite (.step (endQuarantine_within ..) rfl h1) (.step (answer_within ..) rfl h1))
    · exact h1
  · exact (.step (upd_host ..) rfl (.refl _ _))

theorem releaseInb_within {s h} : Within [.brg, .host, .wtt] s (releaseInb s h) := by
  unfold releaseInb
  exact (.foldl _ (fun s1 _ h1 => (.step (uncross_within ..) rfl h1)) (.step (upd_host ..) rfl (.refl _ _)))

theorem endLinkLocks_within {s h} : Within [.regs, .swc, .brg, .lode] s (endLinkLocks s h) := by
  unfold endLinkLocks
  exact (.foldl _ (fun s1 _ h1 => (.foldl _ (fun s2 _ h2 => (.step (unlock_within ..) rfl h2)) (.step (cancelLocked_within ..) rfl h1))) (.refl _ _))

theorem flushHost_within {s h} : Within [.regs, .trc, .swc, .brg, .lode, .host, .wtt, .dma, .outbox, .fresh] s (flushHost s h) := by
  unfold flushHost
  exact (flushOutput_within (.foldl _ (fun s1 _ h1 => (.step (endFrame_within ..) rfl (.step (discDown_within ..) rfl (.ite (.step (cf_within ..) rfl h1) h1)))) (.step (upd_host ..) rfl (.refl _ _))) rfl (fun s2 h2 => (.step (discDown_within ..) rfl h2)))

theorem hostLinkOff_within {s h ev ltssm} : Within [.regs, .evc, .trc, .swc, .brg, .lode, .host, .wtt, .dma, .outbox, .fresh] s (hostLinkOff s h ev ltssm) := by
  unfold hostLinkOff
  exact (.ite (.foldl _ (fun s1 _ h1 => (.step (idleTargets_within ..) rfl h1)) (.step (flushHost_within ..) rfl (.step (releaseInb_within ..) rfl (.step (releaseTags_within ..) rfl (.step (endLinkLocks_within ..) rfl (.step (upd_host ..) rfl (.step (evt_within ..) rfl (.step (cf_within ..) rfl (.step (wreg_within ..) rfl (.refl _ _)))))))))) (.step (flushHost_within ..) rfl (.step (releaseInb_within ..) rfl (.step (releaseTags_within ..) rfl (.step (endLinkLocks_within ..) rfl (.step (upd_host ..) rfl (.step (evt_within ..) rfl (.step (cf_within ..) rfl (.step (wreg_within ..) rfl (.refl _ _))))))))))

theorem hostLinkReset_within {s h ev ltssm} : Within [.regs, .evc, .flt, .trc, .swc, .brg, .lode, .host, .wtt, .ins, .dma, .outbox, .fresh] s (hostLinkReset s h ev ltssm) := by
  unfold hostLinkReset
  exact (.foldl _ (fun s1 _ h1 => (.step (startReset_within ..) rfl h1)) (.step (hostLinkOff_within ..) rfl (.refl _ _)))

theorem preemptMode_within {s t} : Within [.regs, .core] s (preemptMode s t) := by
  unfold preemptMode
  exact (.ite (.step (sf_within ..) rfl (.step (sf_within ..) rfl (.step (setTile_within ..) rfl (.refl _ _)))) (.refl _ _))

theorem leaveTest_within {s t m} : Within [.regs, .core] s (leaveTest s t m) := by
  unfold leaveTest
  exact (.ite (.step (sf_within ..) rfl (.step (setTile_within ..) rfl (.refl _ _))) (.refl _ _))

theorem setMode_within {s t m cause} : Within [.regs, .modes, .core, .evc, .trc] s (setMode s t m cause) := by
  unfold setMode
  dsimp only
  split
  · exact .refl _ _
  rename_i hr
  have hp : Within [.regs, .core] s (leaveTest (preemptMode s t) t m) :=
    .step leaveTest_within rfl (.step preemptMode_within rfl (.refl _ _))
  have hm : (leaveTest (preemptMode s t) t m).modes = s.modes := hp.same .modes rfl
  have hq : Within [.regs, .modes, .core, .evc, .trc] s
      { leaveTest (preemptMode s t) t m with
        modes := Tbl.ins (leaveTest (preemptMode s t) t m).modes t
          (modeWord (Tbl.get 0 (leaveTest (preemptMode s t) t m).modes t) m cause) } := by
    refine .step (upd_modes _ _ fun u => ?_) rfl (hp.mono rfl)
    by_cases hu : u = t
    · subst hu
      rw [get_ins_same]
      refine .row _ _ (.refl _) ?_
      rw [hm]
      simp only [tileMode, not_or, Bool.not_eq_false] at hr
      exact hr.1
    · rw [get_ins_other _ _ _ hu]
      exact .refl _
  exact .step alarm_within rfl (.ite (.step evcClear_within rfl hq)
    (.ite (.step evcRefresh_within rfl (.step sf_within rfl hq)) (.step evcModeChange_within rfl hq)))

theorem dumpRequest_within {s r} : Within [.regs, .flt, .trc] s (dumpRequest s r) := by
  unfold dumpRequest
  refine .ite ?_ ?_
  · refine .step (upd_flt ..) rfl ?_
    refine .ite ?_ ?_
    · try dsimp only
      split
      · exact (.step (sf_within ..) rfl (.step (upd_flt ..) rfl (.refl _ _)))
      · exact (.refl _ _)
    · exact (.refl _ _)
  · refine .ite ?_ ?_
    · refine .step (upd_flt ..) rfl ?_
      refine .ite ?_ ?_
      · try dsimp only
        split
        · exact (.step (sf_within ..) rfl (.step (upd_flt ..) rfl (.refl _ _)))
        · exact (.refl _ _)
      · exact (.refl _ _)
    · refine .ite ?_ ?_
      · refine .step (sf_within ..) rfl ?_
        refine .step (upd_flt ..) rfl ?_
        refine .ite ?_ ?_
        · try dsimp only
          split
          · exact (.step (sf_within ..) rfl (.step (upd_flt ..) rfl (.refl _ _)))
          · exact (.refl _ _)
        · exact (.refl _ _)
      · refine .step (alarm_within ..) rfl ?_
        refine .step (sf_within ..) rfl ?_
        refine .ite ?_ ?_
        · try dsimp only
          split
          · exact (.step (sf_within ..) rfl (.step (upd_flt ..) rfl (.refl _ _)))
          · exact (.refl _ _)
        · exact (.refl _ _)

theorem holdLink_within {s t n} : Within [.regs, .evc, .trc, .swc, .brg, .lode, .host, .wtt, .dma, .outbox, .fresh] s (holdLink s t n) := by
  unfold holdLink
  exact (.ite (.step (linkDown_within ..) rfl (.refl _ _)) (.step (setLinkState_within ..) rfl (.refl _ _)))

theorem tileLinkLost_within {s t n} : Within [.regs, .mem, .evc, .flt, .trc, .swc, .brg, .lode, .host, .wtt, .dma, .outbox, .fresh] s (tileLinkLost s t n) := by
  unfold tileLinkLost
  exact (.ite (.step (recordBase_within ..) rfl (.step (holdLink_within ..) rfl (.refl _ _))) (.step (holdLink_within ..) rfl (.refl _ _)))

theorem flushWhere_within {s t counted p} : Within [.regs, .trc, .swc, .brg, .lode, .host, .wtt, .dma, .outbox, .fresh] s (flushWhere s t counted p) := by
  unfold flushWhere
  refine .foldl _ (fun s1 _ h1 => ?_) ?_
  · refine .foldl _ (fun s2 _ h2 => ?_) ?_
    · try dsimp only
      split
      · exact (.ite (.step (discardPtr_within ..) rfl (.ite (.step (offer_within ..) rfl (.step (discDown_within ..) rfl h2)) h2)) h2)
      · exact h2
    · exact h1
  · exact (.refl _ _)

theorem dropHeld_within {s t} : Within [.regs, .trc, .swc, .brg, .lode, .host, .wtt, .dma, .outbox, .fresh] s (dropHeld s t) := by
  unfold dropHeld
  refine .foldl _ (fun s1 _ h1 => ?_) ?_
  · exact (.step (endFrame_within ..) rfl h1)
  · refine .foldl _ (fun s2 _ h2 => ?_) ?_
    · exact (.step (purge_within ..) rfl h2)
    · exact ⟨fun g hg => by cases g <;> first | rfl | exact absurd hg (by decide), ⟨rfl, fun _ => .refl _, rfl, rfl, List.prefix_rfl, Nat.le_refl _, Nat.le_refl _, Nat.le_refl _, fun _ h => h, id, id⟩⟩

theorem stopPorts_within {s t stop} : Within [.regs, .trc, .swc, .brg, .lode, .host, .wtt, .dma, .outbox, .fresh] s (stopPorts s t stop) := by
  unfold stopPorts
  exact (.step (dropHeld_within ..) rfl (.step (flushWhere_within ..) rfl (.refl _ _)))

theorem clearOwn_within {s t} : Within [.regs, .trc, .swc, .brg, .lode, .host, .wtt, .dma, .outbox, .fresh] s (clearOwn s t) := by
  unfold clearOwn
  exact (.foldl _ (fun s1 _ h1 => (.step (endFrame_within ..) rfl h1)) (.step (upd_swc ..) rfl (.step (dropHeld_within ..) rfl (.step (flushWhere_within ..) rfl (.step (flushWhere_within ..) rfl (.refl _ _))))))

theorem dropDeadlines_within {s t} : Within [.regs, .flt] s (dropDeadlines s t) := by
  unfold dropDeadlines
  exact (.foldl _ (fun s1 _ h1 => (.step (btabRefresh_within ..) rfl h1)) (.step (upd_flt ..) rfl (.refl _ _)))

theorem fenceTile_within {s t cause stop} : Within [.regs, .modes, .core, .evc, .flt, .trc, .swc, .brg, .lode, .host, .wtt, .ins, .dma, .outbox, .fresh] s (fenceTile s t cause stop) := by
  unfold fenceTile
  exact (.step (stopPorts_within ..) rfl (.foldl _ (fun s1 _ h1 => (.step (hostLinkReset_within ..) rfl h1)) (.foldl _ (fun s2 _ h2 => (.step (holdLink_within ..) rfl h2)) (.step (dropDeadlines_within ..) rfl (.step (setTile_within ..) rfl (.step (setMode_within ..) rfl (.refl _ _)))))))

theorem fenceBy_within {s t b c} : Within [.regs, .modes, .core, .mem, .evc, .flt, .trc, .swc, .brg, .lode, .host, .wtt, .ins, .dma, .outbox, .fresh] s (fenceBy s t b c) := by
  unfold fenceBy
  exact (.ite (.step (recordFaultRec_within ..) rfl (.step (cf_within ..) rfl (.refl _ _))) (.step (dumpRequest_within ..) rfl (.step (fenceTile_within ..) rfl (.step (recordFaultRec_within ..) rfl (.step (cf_within ..) rfl (.refl _ _))))))

theorem fatalLatch_within {s t b c} : Within [.regs, .modes, .core, .mem, .evc, .flt, .trc, .swc, .brg, .lode, .host, .wtt, .dma, .outbox, .fresh] s (fatalLatch s t b c) := by
  unfold fatalLatch
  exact (.ite (.ite (.foldl _ (fun s1 _ h1 => (.ite (.step (sf_within ..) rfl (.ite h1 (.step (sf_within ..) rfl h1))) (.step (dropDeadlines_within ..) rfl (.step (setTile_within ..) rfl (.step (setMode_within ..) rfl (.step (sf_within ..) rfl (.ite h1 (.step (sf_within ..) rfl h1)))))))) (.refl _ _)) (.foldl _ (fun s2 _ h2 => (.step (stopPorts_within ..) rfl (.foldl _ (fun s4 _ h4 => (.step (hostLinkOff_within ..) rfl h4)) (.foldl _ (fun s5 _ h5 => (.step (tileLinkLost_within ..) rfl h5)) (.foldl _ (fun s6 _ h6 => (.step (holdLink_within ..) rfl h6)) h2))))) (.foldl _ (fun s3 _ h3 => (.ite (.step (sf_within ..) rfl (.ite h3 (.step (sf_within ..) rfl h3))) (.step (dropDeadlines_within ..) rfl (.step (setTile_within ..) rfl (.step (setMode_within ..) rfl (.step (sf_within ..) rfl (.ite h3 (.step (sf_within ..) rfl h3)))))))) (.refl _ _)))) (.step (dumpRequest_within ..) rfl (.ite (.foldl _ (fun s7 _ h7 => (.ite (.step (sf_within ..) rfl (.ite h7 (.step (sf_within ..) rfl h7))) (.step (dropDeadlines_within ..) rfl (.step (setTile_within ..) rfl (.step (setMode_within ..) rfl (.step (sf_within ..) rfl (.ite h7 (.step (sf_within ..) rfl h7)))))))) (.refl _ _)) (.foldl _ (fun s8 _ h8 => (.step (stopPorts_within ..) rfl (.foldl _ (fun s10 _ h10 => (.step (hostLinkOff_within ..) rfl h10)) (.foldl _ (fun s11 _ h11 => (.step (tileLinkLost_within ..) rfl h11)) (.foldl _ (fun s12 _ h12 => (.step (holdLink_within ..) rfl h12)) h8))))) (.foldl _ (fun s9 _ h9 => (.ite (.step (sf_within ..) rfl (.ite h9 (.step (sf_within ..) rfl h9))) (.step (dropDeadlines_within ..) rfl (.step (setTile_within ..) rfl (.step (setMode_within ..) rfl (.step (sf_within ..) rfl (.ite h9 (.step (sf_within ..) rfl h9)))))))) (.refl _ _))))))

theorem haltInst_within {s i b c} : Within [.regs, .evc, .trc, .host, .ins, .outbox, .fresh] s (haltInst s i b c) := by
  unfold haltInst
  refine .ite ?_ ?_
  · exact (.refl _ _)
  · try dsimp only
    split
    · exact (.step (aerLog_within ..) rfl (.step (cf_within ..) rfl (.step (insEvent_within ..) rfl (.step (instEvent_within ..) rfl (.step (setInst_within ..) rfl (.refl _ _))))))
    · exact (.step (cf_within ..) rfl (.step (insEvent_within ..) rfl (.step (instEvent_within ..) rfl (.step (setInst_within ..) rfl (.refl _ _)))))

theorem startDeadlineC_within {s t b c} : Within [.flt] s (startDeadlineC s t b c) := by
  unfold startDeadlineC
  exact (.ite (.refl _ _) (.step (upd_flt ..) rfl (.refl _ _)))

theorem startDeadlineB_within {s t b c i} : Within [.regs, .flt, .trc, .swc, .brg, .lode, .host, .wtt, .ins, .dma, .outbox, .fresh] s (startDeadlineB s t b c i) := by
  unfold startDeadlineB
  exact (.ite (.refl _ _) (.ite (.step (startReset_within ..) rfl (.step (cf_within ..) rfl (.refl _ _))) (.step (btabRefresh_within ..) rfl (.step (upd_flt ..) rfl (.refl _ _)))))

theorem recordFault_within {s t b c inst detail} : Within [.regs, .modes, .core, .mem, .evc, .flt, .trc, .swc, .brg, .lode, .host, .wtt, .ins, .dma, .outbox, .fresh] s (recordFault s t b c inst detail) := by
  unfold recordFault
  try dsimp only
  split
  · exact (.step (fatalLatch_within ..) rfl (.step (recordBase_within ..) rfl (.refl _ _)))
  · exact (.ite (.step (recordBase_within ..) rfl (.refl _ _)) (.step (startDeadlineC_within ..) rfl (.step (recordBase_within ..) rfl (.refl _ _))))
  · refine .ite ?_ ?_
    · exact (.step (recordBase_within ..) rfl (.refl _ _))
    · try dsimp only
      split
      · exact (.step (startDeadlineB_within ..) rfl (.step (haltInst_within ..) rfl (.step (recordBase_within ..) rfl (.refl _ _))))
      · exact (.step (recordBase_within ..) rfl (.refl _ _))
  · exact (.step (recordBase_within ..) rfl (.refl _ _))

theorem declareDown_within {s t n held} : Within [.regs, .modes, .core, .mem, .evc, .flt, .trc, .swc, .brg, .lode, .host, .wtt, .ins, .dma, .outbox, .fresh] s (declareDown s t n held) := by
  unfold declareDown
  exact (.ite (.step (recordFault_within ..) rfl (.step (linkDown_within ..) rfl (.refl _ _))) (.step (linkDown_within ..) rfl (.refl _ _)))

end Sys2Proof.Laws
end

