-- ==== Sys2Proof/Laws/FrameSwc.lean ====
section
/-! SUPPORT. What the operations of Machine/Swc.lean may change: one lemma for each. -/

namespace Sys2Proof.Laws

open Sys2Proof Sys2Proof.Machine

theorem leavePool_within {s f} : Within [.lode] s (leavePool s f) := by
  unfold leavePool
  try dsimp only
  split
  · exact (.step (creditReturn_within ..) rfl (.refl _ _))
  · exact (.refl _ _)

theorem refuseFrame_within {l a s t port f status down count} (h : Within l a s)
    (hs : Grp.sub [.regs, .trc, .swc, .brg, .lode, .host, .wtt, .dma, .outbox, .fresh] l = true)
    (hk : ∀ x, Within l a x → Within l a (count x)) : Within l a (refuseFrame s t port f status down count) := by
  have e1 : ∀ x b p g, Within l a x → Within l a (offer x t b p g) := fun x b p g hx =>
    (Within.step offer_within rfl (.refl [.regs, .trc, .swc, .brg, .lode, .host, .wtt, .dma, .outbox, .fresh] x)).step hs hx
  have e2 : ∀ x, Within l a x → Within l a (leavePool x f) := fun x hx =>
    (Within.step leavePool_within rfl (.refl [.regs, .trc, .swc, .brg, .lode, .host, .wtt, .dma, .outbox, .fresh] x)).step hs hx
  have e3 : ∀ x, Within l a x → Within l a (endFrame x f status) := fun x hx =>
    (Within.step endFrame_within rfl (.refl [.regs, .trc, .swc, .brg, .lode, .host, .wtt, .dma, .outbox, .fresh] x)).step hs hx
  unfold refuseFrame
  have h1 := e2 _ (Within.ite (p := f.pkt.isReq = true) h (hk _ h))
  exact e3 _ (.ite (e1 _ _ _ _ h1) h1)

theorem dropLate_within {s f} : Within [.regs, .trc, .lode] s (dropLate s f) := by
  unfold dropLate
  try dsimp only
  split
  · exact (.step (evt_within ..) rfl (.step (stf_within ..) rfl (.step (leavePool_within ..) rfl (.refl _ _))))
  · exact (.step (leavePool_within ..) rfl (.refl _ _))

theorem transfer_within {s t id} : Within [.regs, .trc, .swc, .lode] s (transfer s t id) := by
  unfold transfer
  try dsimp only
  split
  · exact (.refl _ _)
  · refine .ite ?_ ?_
    · try dsimp only
      split
      · exact (.step (charge_within ..) rfl (.step (putStored_within ..) rfl (.step (uncharge_within ..) rfl (.refl _ _))))
      · exact (.refl _ _)
    · exact (.refl _ _)

theorem storeFrame_within {s t p f a refs} : Within [.regs, .trc, .swc] s (storeFrame s t p f a refs).2 := by
  unfold storeFrame
  exact (.ite (.step (sf_within ..) rfl (.step (putStored_within ..) rfl (.step (charge_within ..) rfl (.step (upd_swc ..) rfl (.refl _ _))))) (.step (putStored_within ..) rfl (.step (charge_within ..) rfl (.step (upd_swc ..) rfl (.refl _ _)))))

theorem storeFrame_eq {s t p f a refs v₁ s'} (he : storeFrame s t p f a refs = (v₁, s')) : Within [.regs, .trc, .swc] s s' := by
  have e := storeFrame_within (s := s) (t := t) (p := p) (f := f) (a := a) (refs := refs)
  rw [he] at e
  exact e

theorem spread_within {s serial k} : Within [.brg] s (spread s serial k) := by
  unfold spread
  exact (.ite (.step (settle_within ..) rfl (.refl _ _)) (.step (upd_brg ..) rfl (.refl _ _)))

theorem replicate_within {s t p f a} : Within [.regs, .trc, .swc, .brg, .lode] s (replicate s t p f a) := by
  unfold replicate
  try dsimp only
  refine .ite ?_ ?_
  · exact (.step (evt_within ..) rfl (.step (cf_within ..) rfl (.step (leavePool_within ..) rfl (.step (spread_within ..) rfl (.step (cf_within ..) rfl (.foldl _ (fun s1 _ h1 => (.step (cf_within ..) rfl h1)) (.refl _ _)))))))
  · try dsimp only
    exact (.step (transfer_within ..) rfl (.foldl _ (fun s2 _ h2 => (.step (enqueue_within ..) rfl h2)) (.step (storeFrame_within ..) rfl (.step (spread_within ..) rfl (.step (cf_within ..) rfl (.foldl _ (fun s3 _ h3 => (.step (cf_within ..) rfl h3)) (.refl _ _)))))))

theorem waitAt_within {s t p f} : Within [.swc] s (waitAt s t p f) := by
  unfold waitAt
  exact (.step (upd_swc ..) rfl (.refl _ _))

theorem toResolve_within {s t id} : Within [.host] s (toResolve s t id) := by
  unfold toResolve
  exact (.step (upd_host ..) rfl (.refl _ _))

theorem lockWaits_within {s t o f} : Within [.lode] s (lockWaits s t o f) := by
  unfold lockWaits
  exact (.ite (.step (setLock_within ..) rfl (.refl _ _)) (.refl _ _))

theorem takeIn_within {s t p f} : Within [.regs, .trc, .swc, .brg, .lode, .host, .wtt, .dma, .outbox, .fresh] s (takeIn s t p f) := by
  unfold takeIn
  refine .ite ?_ ?_
  · exact (.step (answer_within ..) rfl (.step (leavePool_within ..) rfl (.refl _ _)))
  · try dsimp only
    split
    · exact (.step (waitAt_within ..) rfl (.refl _ _))
    · refine .ite ?_ ?_
      · exact (.step (replicate_within ..) rfl (.refl _ _))
      · try dsimp only
        exact (.ite (.step (transfer_within ..) rfl (.step (toResolve_within ..) rfl (.step (storeFrame_within ..) rfl (.refl _ _)))) (.step (transfer_within ..) rfl (.step (lockWaits_within ..) rfl (.step (enqueue_within ..) rfl (.step (storeFrame_within ..) rfl (.refl _ _))))))

theorem turnAway_within {l a s t port f count} (h : Within l a s)
    (hs : Grp.sub [.regs, .trc, .swc, .brg, .lode, .host, .wtt, .dma, .outbox, .fresh] l = true)
    (hk : ∀ x, Within l a x → Within l a (count x)) : Within l a (turnAway s t port f count) := by
  unfold turnAway
  split
  · exact (Within.step endLocks_within rfl (.step leavePool_within rfl (.refl [.regs, .trc, .swc, .brg, .lode, .host, .wtt, .dma, .outbox, .fresh] s))).step hs h
  · refine refuseFrame_within h ?_ hk
    simp only [Grp.sub, List.all_cons, List.all_nil, Bool.and_true, Bool.and_eq_true] at hs ⊢
    simp only [hs, and_self]

theorem toOutput_within {s t p f} : Within [.regs, .trc, .swc, .brg, .lode, .host, .wtt, .dma, .outbox, .fresh] s (toOutput s t p f) := by
  unfold toOutput
  exact (.ite (.step (takeIn_within ..) rfl (.refl _ _)) (.ite (.ite (refuseFrame_within (.ite (.step (cf_within ..) rfl (.ite (.step (discDown_within ..) rfl (.refl _ _)) (.refl _ _))) (.ite (.step (discDown_within ..) rfl (.refl _ _)) (.refl _ _))) rfl (fun s1 h1 => (.step (discDown_within ..) rfl h1))) (refuseFrame_within (.step (cf_within ..) rfl (.refl _ _)) rfl (fun s2 h2 => h2))) (.ite (refuseFrame_within (.refl _ _) rfl (fun s3 h3 => (.step (cf_within ..) rfl h3))) (.step (takeIn_within ..) rfl (.refl _ _)))))

theorem routeFrame_within {s t p f} : Within [.regs, .trc, .swc, .brg, .lode, .host, .wtt, .dma, .outbox, .fresh] s (routeFrame s t p f) := by
  unfold routeFrame
  exact (.ite (.step (settle_within ..) rfl (.step (leavePool_within ..) rfl (.refl _ _))) (.ite (.step (dropLate_within ..) rfl (.refl _ _)) (.ite (turnAway_within (.refl _ _) rfl (fun s1 h1 => (.step (discDown_within ..) rfl h1))) (.ite (turnAway_within (.refl _ _) rfl (fun s2 h2 => (.step (discDown_within ..) rfl h2))) (.ite (turnAway_within (.refl _ _) rfl (fun s3 h3 => (.step (discDown_within ..) rfl h3))) (.step (toOutput_within ..) rfl (.refl _ _)))))))

theorem countFrame_within {s t p received cells} : Within [.swc] s (countFrame s t p received cells) := by
  unfold countFrame
  exact (.step (upd_swc ..) rfl (.step (upd_swc ..) rfl (.refl _ _)))

theorem arrive_within {s t p} : Within [.regs, .trc, .swc, .brg, .lode, .host, .wtt, .dma, .outbox, .fresh] s (arrive s t p) := by
  unfold arrive
  try dsimp only
  split
  · exact (.refl _ _)
  · exact (.step (routeFrame_within ..) rfl (.step (countFrame_within ..) rfl (.step (upd_swc ..) rfl (.refl _ _))))

theorem admitWaiting_within {s t p} : Within [.regs, .trc, .swc, .brg, .lode, .host, .wtt, .dma, .outbox, .fresh] s (admitWaiting s t p) := by
  unfold admitWaiting
  exact (.foldl _ (fun s1 _ h1 => (.ite (.step (waitAt_within ..) rfl h1) (.step (routeFrame_within ..) rfl h1))) (.step (upd_swc ..) rfl (.refl _ _)))

theorem ltpTags_within {s t n} : Within [.regs] s (ltpTags s t n) := by
  unfold ltpTags
  exact (.step (wreg_within ..) rfl (.refl _ _))

theorem pushTx_within {s t n f} : Within [.lode] s (pushTx s t n f) := by
  unfold pushTx
  exact (.step (setLink_within ..) rfl (.refl _ _))

theorem lockSent_within {s t n f} : Within [.regs, .lode] s (lockSent s t n f) := by
  unfold lockSent
  exact (.step (wreg_within ..) rfl (.step (setLock_within ..) rfl (.refl _ _)))

theorem sendRequest_within {s t n f} : Within [.regs, .brg, .lode, .fresh] s (sendRequest s t n f) := by
  unfold sendRequest
  try dsimp only
  split
  · exact (.refl _ _)
  · exact (.step (pushTx_within ..) rfl (.step (ltpTags_within ..) rfl (.ite (.step (lockSent_within ..) rfl (.step (upd_lode ..) rfl (.step (tickFresh_within ..) rfl (.step (noteCross_within ..) rfl (.step (takeCredit_within ..) rfl (.refl _ _)))))) (.step (upd_lode ..) rfl (.step (tickFresh_within ..) rfl (.step (noteCross_within ..) rfl (.step (takeCredit_within ..) rfl (.refl _ _))))))))

theorem sendResponse_within {s t n f} : Within [.regs, .brg, .lode, .wtt] s (sendResponse s t n f) := by
  unfold sendResponse
  try dsimp only
  split
  · exact (.ite (.step (pushTx_within ..) rfl (.step (takeCredit_within ..) rfl (.step (heldFree_within ..) rfl (.step (uncross_within ..) rfl (.refl _ _))))) (.refl _ _))
  · exact (.step (pushTx_within ..) rfl (.step (takeCredit_within ..) rfl (.refl _ _)))

theorem sendLode_within {s t n f} : Within [.regs, .brg, .lode, .wtt, .fresh] s (sendLode s t n f) := by
  unfold sendLode
  exact (.ite (.step (pushTx_within ..) rfl (.ite (.step (noteCross_within ..) rfl (.step (takeCredit_within ..) rfl (.refl _ _))) (.step (takeCredit_within ..) rfl (.refl _ _)))) (.ite (.step (sendRequest_within ..) rfl (.refl _ _)) (.ite (.step (sendResponse_within ..) rfl (.refl _ _)) (.ite (.ite (.step (pushTx_within ..) rfl (.step (wreg_within ..) rfl (.step (setLock_within ..) rfl (.step (takeCredit_within ..) rfl (.refl _ _))))) (.refl _ _)) (.step (pushTx_within ..) rfl (.step (markSent_within ..) rfl (.step (takeCredit_within ..) rfl (.refl _ _))))))))

theorem deliver_within {s t o f} : Within [.regs, .trc, .swc, .brg, .lode, .host, .wtt, .dma, .outbox, .fresh] s (deliver s t o f) := by
  unfold deliver
  exact (.ite (.step (upd_host ..) rfl (.refl _ _)) (.ite (.step (sendLode_within ..) rfl (.refl _ _)) (.ite (.step (upd_swc ..) rfl (.refl _ _)) (.ite (.ite (.step (answer_within ..) rfl (.refl _ _)) (.step (dropLate_within ..) rfl (.refl _ _))) (.ite (.step (upd_swc ..) rfl (.refl _ _)) (.step (settle_within ..) rfl (.refl _ _)))))))

theorem sendHead_within {s t o inp c poison} : Within [.regs, .trc, .swc, .brg, .lode, .host, .wtt, .dma, .outbox, .fresh] s (sendHead s t o inp c poison) := by
  unfold sendHead
  try dsimp only
  split
  · exact (.refl _ _)
  · refine .ite ?_ ?_
    · try dsimp only
      exact (.step (deliver_within ..) rfl (.step (newSerial_within ..) rfl (.step (settle_within ..) rfl (.step (countFrame_within ..) rfl (.step (dropRef_within ..) rfl (.step (popHead_within ..) rfl (.refl _ _)))))))
    · exact (.step (deliver_within ..) rfl (.step (countFrame_within ..) rfl (.step (dropRef_within ..) rfl (.step (popHead_within ..) rfl (.refl _ _)))))

theorem ageHead_within {s t o inp c} : Within [.regs, .trc, .swc, .brg, .lode, .host, .wtt, .dma, .outbox, .fresh] s (ageHead s t o inp c) := by
  unfold ageHead
  try dsimp only
  split
  · exact (.refl _ _)
  · exact (.ite (.step (discardHead_within ..) rfl (.step (offer_within ..) rfl (.step (evt_within ..) rfl (.step (cf_within ..) rfl (.refl _ _))))) (.refl _ _))

theorem setDeficit_within {s t o c d} : Within [.swc] s (setDeficit s t o c d) := by
  unfold setDeficit
  exact (.step (upd_swc ..) rfl (.refl _ _))

theorem pickClass_within {s t o cs n} : Within [.swc] s (pickClass s t o cs n).2 := by
  induction n generalizing s with
  | zero => exact .refl _ _
  | succ n ih =>
    unfold pickClass
    try dsimp only
    split
    · exact .refl _ _
    · exact .trans (.foldl _ (fun _ _ h => .step setDeficit_within rfl h) (.refl _ _)) ih

theorem pickClass_eq {s t o cs n x s'} (h : pickClass s t o cs n = (x, s')) : Within [.swc] s s' := by
  have e := pickClass_within (s := s) (t := t) (o := o) (cs := cs) (n := n)
  rw [h] at e
  exact e

theorem choose_within {s t o} : Within [.swc] s (choose s t o).2 := by
  unfold choose
  try dsimp only
  split
  · try dsimp only
    exact (.refl _ _)
  · try dsimp only
    try dsimp only
    split
    · try dsimp only
      exact (.step (pickClass_eq (by assumption)) rfl (.foldl _ (fun s1 _ h1 => (.ite h1 (.step (setDeficit_within ..) rfl h1))) (.refl _ _)))
    · try dsimp only
      exact (.step (pickClass_eq (by assumption)) rfl (.foldl _ (fun s2 _ h2 => (.ite h2 (.step (setDeficit_within ..) rfl h2))) (.refl _ _)))

theorem choose_eq {s t o v₁ s'} (he : choose s t o = (v₁, s')) : Within [.swc] s s' := by
  have e := choose_within (s := s) (t := t) (o := o)
  rw [he] at e
  exact e

theorem eccCorrected_within {s t n} : Within [.regs] s (eccCorrected s t n) := by
  unfold eccCorrected
  exact (.ite (.refl _ _) (.step (cf_within ..) rfl (.refl _ _)))

theorem eccFault_within {s t f} : Within [.regs, .modes, .core, .mem, .evc, .flt, .trc, .swc, .brg, .lode, .host, .wtt, .ins, .dma, .outbox, .fresh] s (eccFault s t f) := by
  unfold eccFault
  exact (.step (recordFault_within ..) rfl (.step (evt_within ..) rfl (.step (cf_within ..) rfl (.step (tickFresh_within ..) rfl (.refl _ _)))))

theorem eccRead_within {s t id x e} : Within [.regs, .modes, .core, .mem, .evc, .flt, .trc, .swc, .brg, .lode, .host, .wtt, .ins, .dma, .outbox, .fresh] s (eccRead s t id x e).2 := by
  unfold eccRead
  try dsimp only
  split
  · try dsimp only
    exact (.step (eccCorrected_within ..) rfl (.refl _ _))
  · try dsimp only
    try dsimp only
    split
    · try dsimp only
      exact (.step (putStored_within ..) rfl (.step (eccFault_within ..) rfl (.step (eccCorrected_within ..) rfl (.refl _ _))))
    · try dsimp only
      exact (.step (eccCorrected_within ..) rfl (.refl _ _))
  · try dsimp only
    exact (.step (eccCorrected_within ..) rfl (.refl _ _))

theorem eccRead_eq {s t id x e v₁ s'} (he : eccRead s t id x e = (v₁, s')) : Within [.regs, .modes, .core, .mem, .evc, .flt, .trc, .swc, .brg, .lode, .host, .wtt, .ins, .dma, .outbox, .fresh] s s' := by
  have e := eccRead_within (s := s) (t := t) (id := id) (x := x) (e := e)
  rw [he] at e
  exact e

theorem abortTell_within {s f} : Within [.dma] s (abortTell s f) := by
  unfold abortTell
  try dsimp only
  split
  · exact (.step (upd_dma ..) rfl (.refl _ _))
  · exact (.step (upd_dma ..) rfl (.refl _ _))
  · exact (.refl _ _)

theorem abortCount_within {s t o f first} : Within [.regs, .trc, .dma, .fresh] s (abortCount s t o f first) := by
  unfold abortCount
  exact (.step (abortTell_within ..) rfl (.step (offer_within ..) rfl (.step (evt_within ..) rfl (.step (cf_within ..) rfl (.refl _ _)))))

theorem abortJob_within {s t n serial first} : Within [.regs, .trc, .lode, .dma, .fresh] s (abortJob s t n serial first) := by
  unfold abortJob
  try dsimp only
  split
  · exact (.refl _ _)
  · exact (.step (abortCount_within ..) rfl (.step (cf_within ..) rfl (.step (setLink_within ..) rfl (.refl _ _))))

theorem sendBad_within {s t o inp c cell} : Within [.regs, .trc, .swc, .brg, .lode, .host, .wtt, .dma, .outbox, .fresh] s (sendBad s t o inp c cell) := by
  unfold sendBad
  try dsimp only
  split
  · exact (.refl _ _)
  · exact (.ite (.ite (.step (discardHead_within ..) rfl (.refl _ _)) (.step (sendHead_within ..) rfl (.refl _ _))) (.ite (.step (abortJob_within ..) rfl (.step (sendHead_within ..) rfl (.refl _ _))) (.ite (.step (abortCount_within ..) rfl (.step (settle_within ..) rfl (.step (dropRef_within ..) rfl (.step (popHead_within ..) rfl (.refl _ _))))) (.step (discardHead_within ..) rfl (.step (abortCount_within ..) rfl (.refl _ _))))))

theorem serve_within {s t o i c urgent e} : Within [.regs, .modes, .core, .mem, .evc, .flt, .trc, .swc, .brg, .lode, .host, .wtt, .ins, .dma, .outbox, .fresh] s (serve s t o i c urgent e) := by
  unfold serve
  try dsimp only
  split
  · exact (.refl _ _)
  · refine .ite ?_ ?_
    · exact (.step (settle_within ..) rfl (.step (dropRef_within ..) rfl (.step (popHead_within ..) rfl (.refl _ _))))
    · refine .ite ?_ ?_
      · exact (.step (ageHead_within ..) rfl (.refl _ _))
      · try dsimp only
        split
        · exact (.step (sendBad_within ..) rfl (.step (eccRead_eq (by assumption)) rfl (.ite (.step (evt_within ..) rfl (.step (cf_within ..) rfl (.refl _ _))) (.step (upd_swc ..) rfl (.step (setDeficit_within ..) rfl (.refl _ _))))))
        · exact (.step (sendHead_within ..) rfl (.step (eccRead_eq (by assumption)) rfl (.ite (.step (evt_within ..) rfl (.step (cf_within ..) rfl (.refl _ _))) (.step (upd_swc ..) rfl (.step (setDeficit_within ..) rfl (.refl _ _))))))

theorem waitCycle_within {s t o} : Within [.regs, .swc] s (waitCycle s t o) := by
  unfold waitCycle
  exact (.ite (.refl _ _) (.ite (.step (cf_within ..) rfl (.step (upd_swc ..) rfl (.refl _ _))) (.step (upd_swc ..) rfl (.refl _ _))))

theorem arbitrate_within {s t o e} : Within [.regs, .modes, .core, .mem, .evc, .flt, .trc, .swc, .brg, .lode, .host, .wtt, .ins, .dma, .outbox, .fresh] s (arbitrate s t o e) := by
  unfold arbitrate
  try dsimp only
  split
  · exact (.step (serve_within ..) rfl (.step (choose_eq (by assumption)) rfl (.refl _ _)))
  · exact (.step (waitCycle_within ..) rfl (.step (choose_eq (by assumption)) rfl (.refl _ _)))

theorem forwardTransit_within {s t o} : Within [.regs, .modes, .core, .mem, .evc, .flt, .trc, .swc, .brg, .lode, .host, .wtt, .ins, .dma, .outbox, .fresh] s (forwardTransit s t o) := by
  unfold forwardTransit
  try dsimp only
  split
  · exact (.ite (.step (serve_within ..) rfl (.step (choose_eq (by assumption)) rfl (.refl _ _))) (.refl _ _))
  · exact (.refl _ _)

theorem makeUrgent_within {s t o inp c} : Within [.swc] s (makeUrgent s t o inp c) := by
  unfold makeUrgent
  exact (.ite (.refl _ _) (.step (upd_swc ..) rfl (.refl _ _)))

theorem giveCredit_within {s t n c u} : Within [.regs] s (giveCredit s t n c u) := by
  unfold giveCredit
  exact (.step (sf_within ..) rfl (.step (sf_within ..) rfl (.refl _ _)))

theorem dropJob_within {s t n serial j} : Within [.regs, .brg, .lode] s (dropJob s t n serial j) := by
  unfold dropJob
  exact (.step (settle_within ..) rfl (.step (giveCredit_within ..) rfl (.step (setLink_within ..) rfl (.refl _ _))))

theorem abortInto_within {s t serial} : Within [.regs, .trc, .swc, .brg, .dma, .fresh] s (abortInto s t serial) := by
  unfold abortInto
  try dsimp only
  split
  · exact (.refl _ _)
  · exact (.step (abortCount_within ..) rfl (.step (settle_within ..) rfl (.step (upd_swc ..) rfl (.refl _ _))))

theorem eccMet_within {s t j} : Within [.regs, .modes, .core, .mem, .evc, .flt, .trc, .swc, .brg, .lode, .host, .wtt, .ins, .dma, .outbox, .fresh] s (eccMet s t j) := by
  unfold eccMet
  try dsimp only
  split
  · exact (.step (eccFault_within ..) rfl (.refl _ _))
  · refine .step (upd_lode ..) rfl ?_
    try dsimp only
    split
    · exact (.step (putStored_within ..) rfl (.ite (.refl _ _) (.step (eccFault_within ..) rfl (.refl _ _))))
    · exact (.ite (.refl _ _) (.step (eccFault_within ..) rfl (.refl _ _)))

theorem abortFrame_within {s t serial ecc} : Within [.regs, .modes, .core, .mem, .evc, .flt, .trc, .swc, .brg, .lode, .host, .wtt, .ins, .dma, .outbox, .fresh] s (abortFrame s t serial ecc) := by
  unfold abortFrame
  try dsimp only
  split
  · exact (.step (abortInto_within ..) rfl (.refl _ _))
  · try dsimp only
    split
    · exact (.refl _ _)
    · exact (.ite (.step (dropJob_within ..) rfl (.refl _ _)) (.ite (.step (abortJob_within ..) rfl (.refl _ _)) (.ite (.step (abortJob_within ..) rfl (.step (eccMet_within ..) rfl (.refl _ _))) (.refl _ _))))

theorem swcCntRead_within {s t} : Within [.regs, .bus] s (swcCntRead s t) := by
  unfold swcCntRead
  exact (.step (cntRead_within ..) rfl (.refl _ _))

theorem swcCntWrite_within {s t} : Within [.regs, .bus] s (swcCntWrite s t) := by
  unfold swcCntWrite
  exact (mbCmd_within (.refl _ _) rfl (fun s1 h1 => (.step (mbEnd_within ..) rfl h1)))

end Sys2Proof.Laws
end

