-- ==== Sys2Proof/Laws/FrameHold.lean ====
section
/-! SUPPORT. What the operations of Machine/Hold.lean may change: one lemma for each. -/

namespace Sys2Proof.Laws

open Sys2Proof Sys2Proof.Machine

theorem lineEvent.countMal_within {s t n} : Within [.regs, .trc] s (lineEvent.countMal s t n) := by
  unfold lineEvent.countMal
  exact .step evt_within rfl (.step cf_within rfl (.refl _ _))

theorem lineEvent_within {s t n p} : Within [.regs, .evc, .trc] s (lineEvent s t n p) := by
  unfold lineEvent
  refine .ite ?_ ?_
  · exact (.step (lineEvent.countMal_within ..) rfl (.refl _ _))
  · try dsimp only
    split
    · exact (.step (evcRefresh_within ..) rfl (.step (upd_evc ..) rfl (.refl _ _)))
    · exact (.step (evcRefresh_within ..) rfl (.step (upd_evc ..) rfl (.refl _ _)))
    · exact (.step (edge_within ..) rfl (.refl _ _))

theorem releaseItem_within {s x} : Within [.regs, .evc, .trc, .swc, .host] s (releaseItem s x) := by
  unfold releaseItem
  try dsimp only
  split
  · exact (.step (enter_within ..) rfl (.refl _ _))
  · exact (.step (evcRefresh_within ..) rfl (.step (lineEvent_within ..) rfl (.refl _ _)))
  · exact (.step (upd_evc ..) rfl (.refl _ _))
  · exact (.step (requeue_within ..) rfl (.refl _ _))

theorem holdOr_within {s waits x} : Within [.regs, .evc, .trc, .swc, .brg, .host] s (holdOr s waits x) := by
  unfold holdOr
  exact (.ite (.step (releaseItem_within ..) rfl (.refl _ _)) (.step (startHold_within ..) rfl (.refl _ _)))

theorem releaseHold_within {s id} : Within [.regs, .evc, .trc, .swc, .brg, .host] s (releaseHold s id) := by
  unfold releaseHold
  try dsimp only
  split
  · exact (.refl _ _)
  · exact (.ite (.step (releaseItem_within ..) rfl (.step (upd_brg ..) rfl (.refl _ _))) (.refl _ _))

theorem zeroDone_within {s t n} : Within [.regs, .trc, .swc, .brg, .lode, .host, .wtt, .dma, .outbox, .fresh] s (zeroDone s t n) := by
  unfold zeroDone
  try dsimp only
  split
  · exact (.step (answer_within ..) rfl (.step (dropRef_within ..) rfl (.step (popHead_within ..) rfl (.refl _ _))))
  · exact (.refl _ _)

end Sys2Proof.Laws
end

