-- ==== Sys2Proof/Laws/FrameWtt.lean ====
section
/-! SUPPORT. What the operations of Machine/Wtt.lean may change: one lemma for each. -/

namespace Sys2Proof.Laws

open Sys2Proof Sys2Proof.Machine

theorem setWin_within {s t n w} : Within [.wtt] s (setWin s t n w) := by
  unfold setWin
  exact (.step (upd_wtt ..) rfl (.refl _ _))

theorem setEnt_within {s t n w} : Within [.wtt] s (setEnt s t n w) := by
  unfold setEnt
  exact (.step (upd_wtt ..) rfl (.refl _ _))

theorem miss_within {s i cause win} : Within [.regs, .trc] s (miss s i cause win) := by
  unfold miss
  try dsimp only
  exact (.step (evt_within ..) rfl (.step (wreg_within ..) rfl (.step (cf_within ..) rfl (.refl _ _))))

theorem wttEcc_within {s i index e} : Within [.regs, .modes, .core, .mem, .evc, .flt, .trc, .swc, .brg, .lode, .host, .wtt, .ins, .dma, .outbox, .fresh] s (wttEcc s i index e) := by
  unfold wttEcc
  exact (.ite (.step (recordFault_within ..) rfl (.ite (.refl _ _) (.step (cf_within ..) rfl (.refl _ _)))) (.ite (.step (recordFault_within ..) rfl (.ite (.refl _ _) (.step (cf_within ..) rfl (.refl _ _)))) (.ite (.refl _ _) (.step (cf_within ..) rfl (.refl _ _)))))

theorem unstore_within {s t id x} : Within [.regs, .swc, .lode] s (unstore s t id x) := by
  unfold unstore
  exact (.ite (.step (delStored_within ..) rfl (.refl _ _)) (.step (dropRef_within ..) rfl (.refl _ _)))

theorem sendOn_within {s t x f} : Within [.regs, .trc, .swc, .brg, .lode, .host, .wtt, .dma, .outbox, .fresh] s (sendOn s t x f) := by
  unfold sendOn
  exact (.step (toOutput_within ..) rfl (.refl _ _))

theorem sendWr_within {s t x r gen serial h off data} : Within [.regs, .trc, .swc, .brg, .lode, .host, .wtt, .dma, .outbox, .fresh] s (sendWr s t x r gen serial h off data) := by
  unfold sendWr
  exact (.ite (.step (sendIn_within ..) rfl (.refl _ _)) (.step (sendOn_within ..) rfl (.refl _ _)))

theorem postedWay_within {s serial h} : Within [.brg] s (postedWay s serial h) := by
  unfold postedWay
  exact (.step (upd_brg ..) rfl (.refl _ _))

theorem sendWrs_within {s t x r gen h l} : Within [.regs, .trc, .swc, .brg, .lode, .host, .wtt, .dma, .outbox, .fresh] s (sendWrs s t x r gen h l) := by
  unfold sendWrs
  try dsimp only
  split
  · exact (.step (settle_within ..) rfl (.refl _ _))
  · refine .foldl _ (fun s1 _ h1 => ?_) ?_
    · try dsimp only
      exact (.step (sendWr_within ..) rfl (.step (postedWay_within ..) rfl (.step (notePosted_within ..) rfl (.step (newSerial_within ..) rfl h1))))
    · exact (.step (sendWr_within ..) rfl (.step (postedWay_within ..) rfl (.refl _ _)))

theorem readAhead_within {s i k bar stop n pos} : Within [.regs, .trc, .swc, .brg, .wtt] s (readAhead s i k bar stop n pos) := by
  induction n generalizing s pos with
  | zero => exact .refl _ _
  | succ n ih =>
    unfold readAhead
    try dsimp only
    refine .ite (.refl _ _) ?_
    split
    · refine .ite (.refl _ _) ?_
      exact .trans (.step sendIn_within rfl (.step (upd_wtt ..) rfl (.step setStream_within rfl (.step newSerial_within rfl (.refl _ _))))) ih
    · exact .refl _ _

theorem startStream_within {s i bar pos winEnd} : Within [.regs, .trc, .swc, .brg, .host, .wtt] s (startStream s i bar pos winEnd) := by
  unfold startStream
  refine .ite ?_ ?_
  · exact (.refl _ _)
  · try dsimp only
    split
    · try dsimp only
      exact (.step (readAhead_within ..) rfl (.step (setStream_within ..) rfl (.step (newSerial_within ..) rfl (.step (dropStream_within ..) rfl (.refl _ _)))))
    · exact (.step (cf_within ..) rfl (.refl _ _))

theorem streamOn_within {s r k x stop winEnd rest} : Within [.regs, .trc, .swc, .brg, .wtt] s (streamOn s r k x stop winEnd rest) := by
  unfold streamOn
  try dsimp only
  exact (.ite (.step (readAhead_within ..) rfl (.step (setStream_within ..) rfl (.step (newSerial_within ..) rfl (.refl _ _)))) (.step (setStream_within ..) rfl (.step (newSerial_within ..) rfl (.refl _ _))))

theorem servedBy_within {s t id st r h k x a n} : Within [.regs, .trc, .swc, .brg, .lode, .host, .wtt, .dma, .outbox, .fresh] s (servedBy s t id st r h k x a n) := by
  unfold servedBy
  exact (.ite (.step (setStream_within ..) rfl (.refl _ _)) (.step (answer_within ..) rfl (.step (streamOn_within ..) rfl (.step (cf_within ..) rfl (.step (dropRef_within ..) rfl (.refl _ _))))))

theorem dropOverlap_within {s i bar a n} : Within [.regs, .trc, .host, .wtt] s (dropOverlap s i bar a n) := by
  unfold dropOverlap
  refine .foldl _ (fun s1 _ h1 => ?_) ?_
  · try dsimp only
    split
    · exact (.ite (.step (dropStream_within ..) rfl h1) h1)
    · exact h1
  · exact (.refl _ _)

theorem setEntry_within {s r g} : Within [.host] s (setEntry s r g) := by
  unfold setEntry
  try dsimp only
  split
  · exact (.step (upd_host ..) rfl (.refl _ _))
  · exact (.refl _ _)

theorem refuseReq_within {s t id x} : Within [.regs, .trc, .swc, .brg, .lode, .host, .wtt, .dma, .outbox, .fresh] s (refuseReq s t id x) := by
  unfold refuseReq
  exact (.step (endFrame_within ..) rfl (.step (dropRef_within ..) rfl (.refl _ _)))

theorem goOn_within {s t id x r h} : Within [.regs, .trc, .swc, .brg, .lode, .host, .wtt, .dma, .outbox, .fresh] s (goOn s t id x r h) := by
  unfold goOn
  try dsimp only
  try dsimp only
  split
  · exact (.step (sendWrs_within ..) rfl (.step (unstore_within ..) rfl (.refl _ _)))
  · refine .ite ?_ ?_
    · exact (.step (sendOn_within ..) rfl (.step (unstore_within ..) rfl (.refl _ _)))
    · try dsimp only
      split
      · exact (.step (servedBy_within ..) rfl (.refl _ _))
      · exact (.step (sendOn_within ..) rfl (.step (unstore_within ..) rfl (.ite (.step (setEntry_within ..) rfl (.refl _ _)) (.refl _ _))))
  · exact (.step (sendOn_within ..) rfl (.step (unstore_within ..) rfl (.refl _ _)))

theorem resolveReq_within {s t id x r e} : Within [.regs, .modes, .core, .mem, .evc, .flt, .trc, .swc, .brg, .lode, .host, .wtt, .ins, .dma, .outbox, .fresh] s (resolveReq s t id x r e) := by
  unfold resolveReq
  try dsimp only
  try dsimp only
  split
  · exact (.step (refuseReq_within ..) rfl (.step (wttEcc_within ..) rfl (.step (miss_within ..) rfl (.ite (.refl _ _) (.step (dropOverlap_within ..) rfl (.refl _ _))))))
  · exact (.ite (.step (startHold_within ..) rfl (.step (setEntry_within ..) rfl (.step (wttEcc_within ..) rfl (.ite (.refl _ _) (.step (dropOverlap_within ..) rfl (.refl _ _)))))) (.step (goOn_within ..) rfl (.step (setEntry_within ..) rfl (.step (wttEcc_within ..) rfl (.ite (.refl _ _) (.step (dropOverlap_within ..) rfl (.refl _ _)))))))

theorem unlockAt.creditOf_within {s x} : Within [.lode] s (unlockAt.creditOf s x) := by
  unfold unlockAt.creditOf
  exact .ite (.step leavePool_within rfl (.refl _ _)) (.refl _ _)

theorem unlockAt_within {s t id x h f} : Within [.regs, .trc, .swc, .brg, .lode, .host, .wtt, .dma, .outbox, .fresh] s (unlockAt s t id x h f) := by
  unfold unlockAt
  refine .foldl _ (fun s1 _ h1 => ?_) ?_
  · try dsimp only
    split
    · refine .ite ?_ ?_
      · try dsimp only
        exact (.step (sendOn_within ..) rfl (.step (newSerial_within ..) rfl (.step (setLock_within ..) rfl h1)))
      · exact (.step (setLock_within ..) rfl h1)
    · exact (.step (setLock_within ..) rfl h1)
  · exact (.step (unlockAt.creditOf_within ..) rfl (.step (unstore_within ..) rfl (.refl _ _)))

theorem resolveNext_within {s t e} : Within [.regs, .modes, .core, .mem, .evc, .flt, .trc, .swc, .brg, .lode, .host, .wtt, .ins, .dma, .outbox, .fresh] s (resolveNext s t e) := by
  unfold resolveNext
  try dsimp only
  split
  · exact (.refl _ _)
  · try dsimp only
    split
    · exact (.step (upd_host ..) rfl (.refl _ _))
    · try dsimp only
      split
      · refine .ite ?_ ?_
        · exact (.step (settle_within ..) rfl (.step (dropRef_within ..) rfl (.step (upd_host ..) rfl (.refl _ _))))
        · refine .ite ?_ ?_
          · exact (.step (refuseReq_within ..) rfl (.ite (.step (discDown_within ..) rfl (.step (upd_host ..) rfl (.refl _ _))) (.step (upd_host ..) rfl (.refl _ _))))
          · try dsimp only
            split
            · exact (.step (goOn_within ..) rfl (.step (upd_host ..) rfl (.refl _ _)))
            · exact (.step (resolveReq_within ..) rfl (.step (upd_host ..) rfl (.refl _ _)))
      · exact (.step (unlockAt_within ..) rfl (.step (upd_host ..) rfl (.refl _ _)))
      · exact (.step (settle_within ..) rfl (.step (dropRef_within ..) rfl (.step (upd_host ..) rfl (.refl _ _))))

theorem winRead_within {s t} : Within [.regs, .bus] s (winRead s t) := by
  unfold winRead
  exact (mbCmd_within (.refl _ _) rfl (fun s1 h1 => (.ite (.step (mbEnd_within ..) rfl h1) (.step (mbEnd_within ..) rfl h1))))

theorem winWrite_within {s t} : Within [.regs, .bus, .wtt] s (winWrite s t) := by
  unfold winWrite
  exact (mbCmd_within (.refl _ _) rfl (fun s1 h1 => (.ite (.step (mbEnd_within ..) rfl h1) (.ite (.step (mbEnd_within ..) rfl h1) (.step (mbEnd_within ..) rfl (.step (setWin_within ..) rfl h1))))))

theorem entRead_within {s t m} : Within [.regs, .bus] s (entRead s t m) := by
  unfold entRead
  exact (mbCmd_within (.refl _ _) rfl (fun s1 h1 => (.step (mbEnd_within ..) rfl h1)))

theorem entWrite_within {s t m} : Within [.regs, .bus, .wtt] s (entWrite s t m) := by
  unfold entWrite
  exact (mbCmd_within (.refl _ _) rfl (fun s1 h1 => (.ite (.step (mbEnd_within ..) rfl h1) (.ite (.step (mbEnd_within ..) rfl h1) (.step (mbEnd_within ..) rfl (.step (setEnt_within ..) rfl h1))))))

theorem entFill_within {s t m} : Within [.regs, .bus, .wtt] s (entFill s t m) := by
  unfold entFill
  exact (mbCmd_within (.refl _ _) rfl (fun s1 h1 => (.ite (.step (mbEnd_within ..) rfl h1) (.ite (.step (mbEnd_within ..) rfl h1) (.step (mbEnd_within ..) rfl (.foldl _ (fun s2 _ h2 => (.step (setEnt_within ..) rfl h2)) h1))))))

theorem setWttRun_within {s t x} : Within [.wtt] s (setWttRun s t x) := by
  unfold setWttRun
  exact (.step (upd_wtt ..) rfl (.refl _ _))

theorem wttEnd_within {s t result} : Within [.regs, .trc, .wtt] s (wttEnd s t result) := by
  unfold wttEnd
  exact (.step (evt_within ..) rfl (.step (sf_within ..) rfl (.step (sf_within ..) rfl (.step (setWttRun_within ..) rfl (.refl _ _)))))

theorem wttCmd_within {s t op i} : Within [.regs, .trc, .host, .wtt] s (wttCmd s t op i) := by
  unfold wttCmd
  exact (.ite (.refl _ _) (.ite (.step (sf_within ..) rfl (.step (sf_within ..) rfl (.refl _ _))) (.ite (.step (wttEnd_within ..) rfl (.step (sf_within ..) rfl (.step (sf_within ..) rfl (.refl _ _)))) (.ite (.step (wttEnd_within ..) rfl (.step (sf_within ..) rfl (.step (sf_within ..) rfl (.refl _ _)))) (.step (setWttRun_within ..) rfl (.ite (.step (dropStreams_within ..) rfl (.step (sf_within ..) rfl (.step (sf_within ..) rfl (.step (sf_within ..) rfl (.refl _ _))))) (.step (sf_within ..) rfl (.step (sf_within ..) rfl (.step (sf_within ..) rfl (.refl _ _))))))))))

theorem fenceEnd_within {s t} : Within [.regs, .trc, .wtt] s (fenceEnd s t) := by
  unfold fenceEnd
  try dsimp only
  split
  · exact (.ite (.step (wttEnd_within ..) rfl (.refl _ _)) (.refl _ _))
  · exact (.refl _ _)

theorem stampWin_within {s t n gen} : Within [.wtt] s (stampWin s t n gen) := by
  unfold stampWin
  exact (.step (setWin_within ..) rfl (.refl _ _))

theorem stampEnt_within {s t n gen} : Within [.wtt] s (stampEnt s t n gen) := by
  unfold stampEnt
  exact (.ite (.step (setEnt_within ..) rfl (.refl _ _)) (.refl _ _))

theorem stampAll_within {s i gen pick} : Within [.wtt] s (stampAll s i gen pick) := by
  unfold stampAll
  exact (.foldl _ (fun s1 _ h1 => (.ite (.step (stampEnt_within ..) rfl h1) h1)) (.foldl _ (fun s2 _ h2 => (.ite (.step (stampWin_within ..) rfl h2) h2)) (.refl _ _)))

theorem restampEnd_within {s t} : Within [.regs, .trc, .wtt, .fresh] s (restampEnd s t) := by
  unfold restampEnd
  try dsimp only
  split
  · exact (.ite (.refl _ _) (.ite (.step (wttEnd_within ..) rfl (.step (stampAll_within ..) rfl (.refl _ _))) (.step (wttEnd_within ..) rfl (.step (tickFresh_within ..) rfl (.step (stampAll_within ..) rfl (.refl _ _))))))
  · exact (.refl _ _)

end Sys2Proof.Laws
end

