-- ==== Sys2Proof/Laws/FrameInsCmd.lean ====
section
/-! SUPPORT. What the operations of Machine/InsCmd.lean may change: one lemma for each. -/

namespace Sys2Proof.Laws

open Sys2Proof Sys2Proof.Machine

theorem setBusy_within {s i x} : Within [.ins] s (setBusy s i x) := by
  unfold setBusy
  exact (.step (upd_ins ..) rfl (.refl _ _))

theorem insRefuse_within {s t m why} : Within [.regs, .bus] s (insRefuse s t m why) := by
  unfold insRefuse
  exact (.step (mbEnd_within ..) rfl (.step (sf_within ..) rfl (.refl _ _)))

theorem insCmd_within {l a s t m op modeOk stateOk own run} (h : Within l a s) (hs : Grp.sub [.regs, .bus, .ins] l = true)
    (hk : ∀ x i, Within l a x → Within l a (run x i)) : Within l a (insCmd s t m op modeOk stateOk own run) := by
  have hr : Grp.sub [.regs, .bus] l = true := by
    simp only [Grp.sub, List.all_cons, List.all_nil, Bool.and_true, Bool.and_eq_true] at hs ⊢
    exact ⟨hs.1, hs.2.1⟩
  have e1 : ∀ x r, Within l a x → Within l a (mbEnd x t (insMb m) r) := fun x r hx =>
    (Within.step mbEnd_within rfl (.refl [.regs, .bus, .ins] x)).step hs hx
  have e2 : ∀ x w, Within l a x → Within l a (insRefuse x t m w) := fun x w hx =>
    (Within.step insRefuse_within rfl (.refl [.regs, .bus, .ins] x)).step hs hx
  have e3 : ∀ x i w, Within l a x → Within l a (setBusy x i w) := fun x i w hx =>
    (Within.step setBusy_within rfl (.refl [.regs, .bus, .ins] x)).step hs hx
  unfold insCmd
  refine mbCmd_within h hr (fun x hx => .ite (e1 _ _ hx) (.ite (e2 _ _ hx) (.ite (e2 _ _ (e3 _ _ _ hx))
    (.ite (e2 _ _ (e3 _ _ _ hx)) ?_))))
  try dsimp only
  split
  · exact e2 _ _ (e3 _ _ _ hx)
  · exact hk _ _ (e3 _ _ _ hx)

theorem insMbFinish_within {s t m} : Within [.regs, .bus, .trc, .ins, .fresh] s (insMbFinish s t m) := by
  unfold insMbFinish
  try dsimp only
  split
  · exact (.refl _ _)
  · exact (.ite (.step (mbFinish_within ..) rfl (.refl _ _)) (.ite (.step (insEvent_within ..) rfl (.ite (.step (setBusy_within ..) rfl (.step (mbFinish_within ..) rfl (.refl _ _))) (.step (mbFinish_within ..) rfl (.refl _ _)))) (.step (evt_within ..) rfl (.step (wreg_within ..) rfl (.step (tickFresh_within ..) rfl (.step (mbFinish_within ..) rfl (.refl _ _)))))))

theorem create_within {s t m} : Within [.regs, .bus, .evc, .brg, .host, .ins, .dma] s (create s t m) := by
  unfold create
  exact (insCmd_within (.refl _ _) rfl (fun s1 _ h1 => (.step (mbEnd_within ..) rfl (.step (evcInstInit_within ..) rfl (.step (clearVectors_within ..) rfl (.foldl _ (fun s2 _ h2 => (.step (queueClear_within ..) rfl h2)) (.step (setInst_within ..) rfl h1)))))))

theorem remove_within {s t m} : Within [.regs, .bus, .flt, .trc, .swc, .brg, .lode, .host, .wtt, .ins, .dma, .outbox, .fresh] s (remove s t m) := by
  unfold remove
  exact (insCmd_within (.refl _ _) rfl (fun s1 _ h1 => (.step (startReset_within ..) rfl h1)))

theorem setBind_within {s h f x} : Within [.host] s (setBind s h f x) := by
  unfold setBind
  exact (.step (upd_host ..) rfl (.refl _ _))

theorem disableHostQueues_within {s t i} : Within [.regs, .dma] s (disableHostQueues s t i) := by
  unfold disableHostQueues
  exact (.foldl _ (fun s1 _ h1 => (.ite (.step (setQf_within ..) rfl (.step (dropFetched_within ..) rfl h1)) h1)) (.refl _ _))

theorem retryPba_within {s i} : Within [.evc] s (retryPba s i) := by
  unfold retryPba
  exact (.foldl _ (fun s1 _ h1 => (.step (retryVec_within ..) rfl h1)) (.refl _ _))

theorem bindInst_within {s t m} : Within [.regs, .bus, .evc, .host, .ins, .dma] s (bindInst s t m) := by
  unfold bindInst
  exact (insCmd_within (.refl _ _) rfl (fun s1 _ h1 => (.step (mbEnd_within ..) rfl (.step (retryPba_within ..) rfl (.ite (.step (disableHostQueues_within ..) rfl (.step (instEvent_within ..) rfl (.step (setInst_within ..) rfl (.step (setBind_within ..) rfl (.step (setInst_within ..) rfl h1))))) (.step (setBind_within ..) rfl (.step (setInst_within ..) rfl h1)))))))

theorem unbindInst_within {s i} : Within [.swc, .brg, .lode, .host, .ins] s (unbindInst s i) := by
  unfold unbindInst
  try dsimp only
  split
  · exact (.step (setInst_within ..) rfl (.step (logEnd_within ..) rfl (.step (endLocks_within ..) rfl (.step (setBind_within ..) rfl (.refl _ _)))))
  · exact (.refl _ _)

theorem unbindCmd_within {s t m} : Within [.regs, .bus, .swc, .brg, .lode, .host, .ins] s (unbindCmd s t m) := by
  unfold unbindCmd
  exact (insCmd_within (.refl _ _) rfl (fun s1 _ h1 => (.step (mbEnd_within ..) rfl (.step (unbindInst_within ..) rfl h1))))

theorem unbindByLink_within {s i} : Within [.regs, .trc, .swc, .brg, .lode, .host, .ins] s (unbindByLink s i) := by
  unfold unbindByLink
  exact (.step (insEvent_within ..) rfl (.step (unbindInst_within ..) rfl (.refl _ _)))

theorem freezeCmd_within {s t m} : Within [.regs, .bus, .evc, .trc, .swc, .brg, .host, .wtt, .ins, .dma] s (freezeCmd s t m) := by
  unfold freezeCmd
  exact (insCmd_within (.refl _ _) rfl (fun s1 _ h1 => (.step (notice_within ..) rfl (.step (upd_ins ..) rfl (.foldl _ (fun s2 _ h2 => (.step (dropFetched_within ..) rfl h2)) (.step (dropStreams_within ..) rfl (.step (instEvent_within ..) rfl (.step (setInst_within ..) rfl h1))))))))

theorem freezeEnd_within {s i} : Within [.bus, .ins] s (freezeEnd s i) := by
  unfold freezeEnd
  try dsimp only
  split
  · exact (.refl _ _)
  · exact (.ite (.refl _ _) (.step (mbEnd_within ..) rfl (.step (upd_ins ..) rfl (.refl _ _))))

theorem resumeCmd_within {s t m} : Within [.regs, .bus, .evc, .swc, .brg, .ins] s (resumeCmd s t m) := by
  unfold resumeCmd
  exact (insCmd_within (.refl _ _) rfl (fun s1 _ h1 => (.step (mbEnd_within ..) rfl (.step (notice_within ..) rfl (.step (instEvent_within ..) rfl (.step (setInst_within ..) rfl h1))))))

theorem resetCmd_within {s t m} : Within [.regs, .bus, .flt, .trc, .swc, .brg, .lode, .host, .wtt, .ins, .dma, .outbox, .fresh] s (resetCmd s t m) := by
  unfold resetCmd
  exact (insCmd_within (.refl _ _) rfl (fun s1 _ h1 => (.step (startReset_within ..) rfl h1)))

theorem setWeightCmd_within {s t m} : Within [.regs, .bus, .ins] s (setWeightCmd s t m) := by
  unfold setWeightCmd
  exact (insCmd_within (.refl _ _) rfl (fun s1 _ h1 => (.step (mbEnd_within ..) rfl (.step (setInst_within ..) rfl h1))))

theorem logClearCmd_within {s t m} : Within [.regs, .bus, .ins] s (logClearCmd s t m) := by
  unfold logClearCmd
  exact (insCmd_within (.refl _ _) rfl (fun s1 _ h1 => (.step (logClear_within ..) rfl h1)))

theorem logCmdClear_within {s i} : Within [.ins] s (logCmdClear s i) := by
  unfold logCmdClear
  exact (.ite (.refl _ _) (.step (logClear_within ..) rfl (.refl _ _)))

theorem logClearEnd_within {s i} : Within [.regs, .bus, .ins] s (logClearEnd s i) := by
  unfold logClearEnd
  refine .ite ?_ ?_
  · exact (.refl _ _)
  · try dsimp only
    split
    · exact (.step (mbEnd_within ..) rfl (.step (setLog_within ..) rfl (.step (sf_within ..) rfl (.step (upd_ins ..) rfl (.refl _ _)))))
    · exact (.step (setLog_within ..) rfl (.step (sf_within ..) rfl (.step (upd_ins ..) rfl (.refl _ _))))

theorem logEnable_within {s i} : Within [.ins] s (logEnable s i) := by
  unfold logEnable
  exact (.ite (.refl _ _) (.step (setLog_within ..) rfl (.refl _ _)))

theorem releaseInst_within {s i} : Within [.regs, .trc, .ins] s (releaseInst s i) := by
  unfold releaseInst
  exact (.ite (.step (insEvent_within ..) rfl (.step (setInst_within ..) rfl (.refl _ _))) (.refl _ _))

theorem instRead_within {s t m} : Within [.regs, .bus] s (instRead s t m) := by
  unfold instRead
  exact (mbCmd_within (.refl _ _) rfl (fun s1 h1 => (.step (mbEnd_within ..) rfl h1)))

theorem instWrite_within {s t m} : Within [.regs, .bus, .ins] s (instWrite s t m) := by
  unfold instWrite
  exact (insCmd_within (.refl _ _) rfl (fun s1 _ h1 => h1))

end Sys2Proof.Laws
end

