-- ==== Sys2Proof/Laws/FrameImage.lean ====
section
/-! SUPPORT. What the operations of Machine/Image.lean may change: one lemma for each. -/

namespace Sys2Proof.Laws

open Sys2Proof Sys2Proof.Machine

theorem putReport_within {s l maker} : Within [.regs, .str, .fresh] s (putReport s l maker) := by
  unfold putReport
  exact (.step (sf_within ..) rfl (.step (wreg_within ..) rfl (.step (tickFresh_within ..) rfl (.step (upd_str ..) rfl (.refl _ _)))))

end Sys2Proof.Laws
end

