-- ==== Sys2Proof/Laws/FrameStr.lean ====
section
/-! SUPPORT. What the operations of Machine/Str.lean may change: one lemma for each. -/

namespace Sys2Proof.Laws

open Sys2Proof Sys2Proof.Machine

theorem applyPorts_within {s t p} : Within [.regs, .lode, .host] s (applyPorts s t p) := by
  unfold applyPorts
  exact (.foldl _ (fun s1 _ h1 => (.step (upd_lode ..) rfl (.step (sf_within ..) rfl (.step (sf_within ..) rfl (.step (sf_within ..) rfl (.step (sf_within ..) rfl (.step (sf_within ..) rfl h1))))))) (.step (upd_host ..) rfl (.refl _ _)))

theorem applyPools_within {s t x} : Within [.ins] s (applyPools s t x) := by
  unfold applyPools
  exact (.foldl _ (fun s1 _ h1 => (.step (upd_ins ..) rfl h1)) (.step (upd_ins ..) rfl (.refl _ _)))

/-- The source registers an image writes lie in order in their range (R36). -/
theorem applyEvc_srcs (lo : Nat) (d f : Nat → Word) {named : List Nat} (hn : named.Pairwise (· < ·))
    (hb : ∀ a ∈ named, a < 32768) :
    (named.filterMap (fun src => if f src = d src then none else some (lo + 4 * src, f src))).Pairwise (fun a b => a.1 < b.1) ∧
      ∀ e ∈ named.filterMap (fun src => if f src = d src then none else some (lo + 4 * src, f src)),
        lo ≤ e.1 ∧ e.1 < lo + 131072 := by
  refine ⟨List.Pairwise.filterMap _ (fun a b hab x hx y hy => ?_) hn, fun e he => ?_⟩
  · split at hx
    · cases hx
    · split at hy
      · cases hy
      · cases hx; cases hy; simp only; omega
  · obtain ⟨a, ha, hx⟩ := List.mem_filterMap.1 he
    have := hb a ha
    split at hx
    · cases hx
    · cases hx; simp only; omega

theorem applyEvc_within {s t x} : Within [.regs] s (applyEvc s t x) := by
  unfold applyEvc
  refine .foldl _ (fun s _ h => .ite (.step sf_within rfl h) h) (.foldl _ (fun s _ h => ?_) ?_)
  · try dsimp only
    split
    · exact .ite (.foldl _ (fun s _ h => .ite (.step sf_within rfl h) h) h) h
    · exact .ite (.step sf_within rfl h) h
  · refine .step (upd_regs s _ (fun h => ?_)) rfl (.refl _ _)
    rw [Registers.wf, rising_iff] at h ⊢
    obtain ⟨h1, h2⟩ := applyEvc_srcs (key t 0x7020000) (fun src => regReset t (evcSrc src))
      (fun src => x.evc.foldl (fun v r => evcSrcUnder t src v r) (regReset t (evcSrc src)))
      (named := (List.range 32768).filter (fun src => x.evc.any (evcNames t src)))
      (List.pairwise_lt_range.filter _) (fun a ha => List.mem_range.1 (List.mem_filter.1 ha).1)
    refine List.pairwise_append.2 ⟨List.pairwise_append.2 ⟨h.filter _, h1, ?_⟩, h.filter _, ?_⟩
    · intro a ha b hb
      have hb' := h2 b hb
      have ha' := (List.mem_filter.1 ha).2
      simp only [decide_eq_true_eq] at ha'
      omega
    · intro a ha b hb
      have hb' := (List.mem_filter.1 hb).2
      simp only [decide_eq_true_eq] at hb'
      rcases List.mem_append.1 ha with ha | ha
      · have ha' := (List.mem_filter.1 ha).2
        simp only [decide_eq_true_eq] at ha'
        omega
      · have := h2 a ha
        omega

theorem applySwitch_within {s x} : Within [.regs] s (applySwitch s x) := by
  unfold applySwitch
  refine .foldl _ (fun s1 _ h1 => ?_) ?_
  · refine .step (wreg_within ..) rfl ?_
    refine .foldl _ (fun s2 _ h2 => ?_) ?_
    · try dsimp only
      exact (.step (wreg_within ..) rfl h2)
    · exact h1
  · exact (.refl _ _)

theorem applyMcast_within {s x} : Within [.swc] s (applyMcast s x) := by
  unfold applyMcast
  exact (.step (upd_swc ..) rfl (.refl _ _))

theorem applyFault_within {s x} : Within [.regs] s (applyFault s x) := by
  unfold applyFault
  exact (.foldl _ (fun s1 _ h1 => (.foldl _ (fun s2 _ h2 => (.foldl _ (fun s3 _ h3 => (.step (wreg_within ..) rfl h3)) h2)) h1)) (.refl _ _))

theorem pendingRefresh_within {s} : Within [.regs] s (pendingRefresh s) := by
  unfold pendingRefresh
  exact (.step (sf_within ..) rfl (.refl _ _))

theorem takeShape_within {s h l} : Within [.regs, .trc, .swc, .brg, .lode, .host, .ins] s (takeShape s h l) := by
  unfold takeShape
  refine .foldl _ (fun s1 _ h1 => ?_) ?_
  · try dsimp only
    split
    · exact (.ite h1 (.step (unbindByLink_within ..) rfl h1))
    · exact h1
  · exact (.step (upd_host ..) rfl (.refl _ _))

theorem leaveReset_within {s h} : Within [.regs, .trc, .swc, .brg, .lode, .host, .ins] s (leaveReset s h) := by
  unfold leaveReset
  exact (.ite (.refl _ _) (.ite (.refl _ _) (.step (pendingRefresh_within ..) rfl (.step (sf_within ..) rfl (.step (takeShape_within ..) rfl (.refl _ _))))))

theorem applyTile_within {s t} : Within [.regs, .trc, .swc, .brg, .lode, .host, .ins] s (applyTile s t) := by
  unfold applyTile
  refine .ite ?_ ?_
  · exact (.refl _ _)
  · refine .step (pendingRefresh_within ..) rfl ?_
    refine .step (sf_within ..) rfl ?_
    refine .foldl _ (fun s1 _ h1 => ?_) ?_
    · exact (.step (leaveReset_within ..) rfl h1)
    · refine .step (applyEvc_within ..) rfl ?_
      refine .step (applyPools_within ..) rfl ?_
      try dsimp only
      split
      · exact (.step (applyPorts_within ..) rfl (.refl _ _))
      · exact (.refl _ _)

theorem restoreSlot_within {s slot} : Within [.mem] s (restoreSlot s slot) := by
  unfold restoreSlot
  exact (.step (mramWrite_within ..) rfl (.refl _ _))

theorem chooseImage_within {s} : Within [.regs, .mem, .otp, .str, .fresh] s (chooseImage s).1 := by
  unfold chooseImage
  try dsimp only
  try dsimp only
  split
  · try dsimp only
    exact (.step (wreg_within ..) rfl (.step (sf_within ..) rfl (.step (sf_within ..) rfl (.step (upd_otp _ _ (Nat.le_refl _) (fun _ h => h)) rfl (.ite (.step (restoreSlot_within ..) rfl (.step (sf_within ..) rfl (.step (sf_within ..) rfl (.step (wreg_within ..) rfl (.step (putReport_within ..) rfl (.refl _ _)))))) (.step (sf_within ..) rfl (.step (sf_within ..) rfl (.step (wreg_within ..) rfl (.step (putReport_within ..) rfl (.refl _ _))))))))))
  · try dsimp only
    exact (.step (sf_within ..) rfl (.step (sf_within ..) rfl (.step (sf_within ..) rfl (.step (sf_within ..) rfl (.step (wreg_within ..) rfl (.step (putReport_within ..) rfl (.refl _ _)))))))

theorem chooseImage_eq {s v₁ s'} (he : chooseImage s = (s', v₁)) : Within [.regs, .mem, .otp, .str, .fresh] s s' := by
  have e := chooseImage_within (s := s)
  rw [he] at e
  exact e

theorem loadTables_within {s} : Within [.regs, .trc, .swc, .brg, .lode, .host, .ins] s (loadTables s) := by
  unfold loadTables
  refine .ite ?_ ?_
  · exact (.step (takeShape_within ..) rfl (.refl _ _))
  · refine .foldl _ (fun s1 _ h1 => ?_) ?_
    · refine .foldl _ (fun s2 _ h2 => ?_) ?_
      · exact (.step (takeShape_within ..) rfl h2)
      · refine .step (applyEvc_within ..) rfl ?_
        refine .step (applyPools_within ..) rfl ?_
        try dsimp only
        split
        · exact (.step (applyPorts_within ..) rfl h1)
        · exact h1
    · exact (.step (applyFault_within ..) rfl (.step (applyMcast_within ..) rfl (.step (applySwitch_within ..) rfl (.refl _ _))))

theorem strCmd_within {s cmd} : Within [.regs, .str] s (strCmd s cmd) := by
  unfold strCmd
  exact (.ite (.refl _ _) (.ite (.step (wreg_within ..) rfl (.refl _ _)) (.step (sf_within ..) rfl (.step (upd_str ..) rfl (.step (wreg_within ..) rfl (.refl _ _))))))

theorem startCopy_within {s slot} : Within [.regs, .str] s (startCopy s slot) := by
  unfold startCopy
  exact (.step (sf_within ..) rfl (.step (upd_str ..) rfl (.refl _ _)))

theorem unverify_within {s} : Within [.regs] s (unverify s) := by
  unfold unverify
  exact (.step (sf_within ..) rfl (.refl _ _))

theorem strVerify_within {s} : Within [.regs, .str, .fresh] s (strVerify s).1 := by
  unfold strVerify
  try dsimp only
  split
  · try dsimp only
    exact (.step (sf_within ..) rfl (.step (putReport_within ..) rfl (.refl _ _)))
  · try dsimp only
    exact (.step (unverify_within ..) rfl (.step (putReport_within ..) rfl (.refl _ _)))

theorem strVerify_eq {s v₁ s'} (he : strVerify s = (s', v₁)) : Within [.regs, .str, .fresh] s s' := by
  have e := strVerify_within (s := s)
  rw [he] at e
  exact e

theorem strActivate_within {s} : Within [.regs, .swc, .otp, .str] s (strActivate s).1 := by
  unfold strActivate
  try dsimp only
  split
  · try dsimp only
    exact (.refl _ _)
  · try dsimp only
    exact (.step (startCopy_within ..) rfl (.step (pendingRefresh_within ..) rfl (.ite (.step (sf_within ..) rfl (.step (wreg_within ..) rfl (.step (sf_within ..) rfl (.step (unverify_within ..) rfl (.step (upd_otp _ _ (Nat.le_refl _) (fun _ h => h)) rfl (.refl _ _)))))) (.ite (.step (sf_within ..) rfl (.foldl _ (fun s1 _ h1 => (.step (sf_within ..) rfl h1)) (.foldl _ (fun s2 _ h2 => (.step (sf_within ..) rfl h2)) (.step (applyFault_within ..) rfl (.step (applyMcast_within ..) rfl (.step (applySwitch_within ..) rfl (.step (wreg_within ..) rfl (.step (sf_within ..) rfl (.step (unverify_within ..) rfl (.step (upd_otp _ _ (Nat.le_refl _) (fun _ h => h)) rfl (.refl _ _))))))))))) (.foldl _ (fun s3 _ h3 => (.step (sf_within ..) rfl h3)) (.foldl _ (fun s4 _ h4 => (.step (sf_within ..) rfl h4)) (.step (applyFault_within ..) rfl (.step (applyMcast_within ..) rfl (.step (applySwitch_within ..) rfl (.step (wreg_within ..) rfl (.step (sf_within ..) rfl (.step (unverify_within ..) rfl (.step (upd_otp _ _ (Nat.le_refl _) (fun _ h => h)) rfl (.refl _ _))))))))))))))

theorem strActivate_eq {s v₁ s'} (he : strActivate s = (s', v₁)) : Within [.regs, .swc, .otp, .str] s s' := by
  have e := strActivate_within (s := s)
  rw [he] at e
  exact e

theorem strFloor_within {s} : Within [.regs, .otp] s (strFloor s).1 := by
  unfold strFloor
  split
  · exact .refl _ _
  · exact .step (wreg_within ..) rfl (.step (upd_otp _ _ (Nat.le_max_left _ _) (fun _ h => h)) rfl (.refl _ _))

theorem strFloor_eq {s x s'} (h : strFloor s = (s', x)) : Within [.regs, .otp] s s' := by
  have e := strFloor_within (s := s)
  rw [h] at e
  exact e

theorem strEnrol_within {s} : Within [.regs, .otp] s (strEnrol s).1 := by
  unfold strEnrol
  try dsimp only
  split
  · exact .refl _ _
  · rename_i hk
    split
    · exact .refl _ _
    · split
      · exact .refl _ _
      · split
        · exact .refl _ _
        · refine .step sf_within rfl (.step (upd_otp _ _ (Nat.le_refl _) (fun k h => ?_)) rfl (.refl _ _))
          simp [h] at hk

theorem strEnrol_eq {s x s'} (h : strEnrol s = (s', x)) : Within [.regs, .otp] s s' := by
  have e := strEnrol_within (s := s)
  rw [h] at e
  exact e

theorem strErase_within {s} : Within [.regs, .mem] s (strErase s).1 := by
  unfold strErase
  refine .step unverify_within rfl (.step (upd_mem s _ (fun h => ?_)) rfl (.refl _ _))
  simp only [Memory.wf, Mem.wf, Bool.and_eq_true, wf_iff] at h ⊢
  exact ⟨h.1.filter _, h.2⟩

theorem strErase_eq {s x s'} (h : strErase s = (s', x)) : Within [.regs, .mem] s s' := by
  have e := strErase_within (s := s)
  rw [h] at e
  exact e

theorem strRun_within {s cmd} : Within [.regs, .mem, .swc, .otp, .str, .fresh] s (strRun s cmd).1 := by
  unfold strRun
  try dsimp only
  split
  · try dsimp only
    exact (.step (strVerify_within ..) rfl (.refl _ _))
  · try dsimp only
    exact (.step (strActivate_within ..) rfl (.refl _ _))
  · try dsimp only
    exact (.step (strFloor_within ..) rfl (.refl _ _))
  · try dsimp only
    exact (.step (strEnrol_within ..) rfl (.refl _ _))
  · try dsimp only
    exact (.step (strErase_within ..) rfl (.refl _ _))
  · try dsimp only
    exact (.step (startCopy_within ..) rfl (.step (startCopy_within ..) rfl (.refl _ _)))

theorem strRun_eq {s cmd v₁ s'} (he : strRun s cmd = (s', v₁)) : Within [.regs, .mem, .swc, .otp, .str, .fresh] s s' := by
  have e := strRun_within (s := s) (cmd := cmd)
  rw [he] at e
  exact e

theorem strDone_within {s} : Within [.regs, .mem, .swc, .otp, .str, .fresh] s (strDone s) := by
  unfold strDone
  split
  · exact .refl _ _
  · rename_i cmd blocked _
    have e : Within [.regs, .mem, .swc, .otp, .str, .fresh] s (if blocked = true then (s, 8) else strRun s cmd).1 := by
      split
      · exact .refl _ _
      · exact .step strRun_within rfl (.refl _ _)
    exact .step sf_within rfl (.step sf_within rfl (.step (upd_str ..) rfl e))

theorem copyDone_within {s} : Within [.regs, .mem, .str] s (copyDone s) := by
  unfold copyDone
  try dsimp only
  split
  · exact (.refl _ _)
  · exact (.step (sf_within ..) rfl (.step (flashWrite_within ..) rfl (.step (upd_str ..) rfl (.refl _ _))))

theorem imgWrite_within {s be v} : Within [.regs, .mem] s (imgWrite s be v) := by
  unfold imgWrite
  exact (.step (wreg_within ..) rfl (.ite (.refl _ _) (.step (unverify_within ..) rfl (.step (mramWrite_within ..) rfl (.refl _ _)))))

end Sys2Proof.Laws
end

