-- ==== Sys2Proof/Laws/FrameAttest.lean ====
section
/-! SUPPORT. What the operations of Machine/Attest.lean may change: one lemma for each. -/

namespace Sys2Proof.Laws

open Sys2Proof Sys2Proof.Machine

theorem secureRefresh_within {s h} : Within [.regs] s (secureRefresh s h) := by
  unfold secureRefresh
  exact (.step (setHls_within ..) rfl (.refl _ _))

theorem streamSecure_within {s h k} : Within [.regs, .host] s (streamSecure s h k) := by
  unfold streamSecure
  exact (.step (secureRefresh_within ..) rfl (.step (upd_host ..) rfl (.refl _ _)))

theorem ideFail_within {s h k} : Within [.regs, .trc, .host, .outbox, .fresh] s (ideFail s h k) := by
  unfold ideFail
  exact (.ite (.refl _ _) (.step (aerLog_within ..) rfl (.step (evt_within ..) rfl (.step (secureRefresh_within ..) rfl (.step (upd_host ..) rfl (.refl _ _))))))

theorem setDoe_within {s h x} : Within [.host] s (setDoe s h x) := by
  unfold setDoe
  exact (.step (upd_host ..) rfl (.refl _ _))

theorem doeReady_within {s h object} : Within [.host, .outbox] s (doeReady s h object) := by
  unfold doeReady
  exact (.step (emit_within ..) rfl (.step (setDoe_within ..) rfl (.refl _ _)))

theorem doeRefuse_within {s h} : Within [.host, .outbox] s (doeRefuse s h) := by
  unfold doeRefuse
  exact (.step (emit_within ..) rfl (.step (setDoe_within ..) rfl (.refl _ _)))

theorem spdmAct_within {s h n obj} : Within [.regs, .host] s (spdmAct s h n obj) := by
  unfold spdmAct
  exact (.ite (.step (streamSecure_within ..) rfl (.step (upd_host ..) rfl (.refl _ _))) (.step (upd_host ..) rfl (.refl _ _)))

theorem spdm_within {s h obj} : Within [.regs, .host, .outbox, .fresh] s (spdm s h obj) := by
  unfold spdm
  exact (.ite (.refl _ _) (.ite (.step (doeRefuse_within ..) rfl (.step (leaveL1_within ..) rfl (.refl _ _))) (.ite (.step (setDoe_within ..) rfl (.step (leaveL1_within ..) rfl (.refl _ _))) (.ite (.step (doeReady_within ..) rfl (.step (leaveL1_within ..) rfl (.refl _ _))) (.step (doeReady_within ..) rfl (.step (spdmAct_within ..) rfl (.step (tickFresh_within ..) rfl (.step (leaveL1_within ..) rfl (.refl _ _)))))))))

theorem doeWrite_within {s h off v} : Within [.regs, .host, .outbox, .fresh] s (doeWrite s h off v) := by
  unfold doeWrite
  exact (.ite (.ite (.step (setDoe_within ..) rfl (.refl _ _)) (.ite (.ite (.step (spdm_within ..) rfl (.refl _ _)) (.step (doeRefuse_within ..) rfl (.refl _ _))) (.refl _ _))) (.ite (.step (setDoe_within ..) rfl (.refl _ _)) (.ite (.step (setDoe_within ..) rfl (.refl _ _)) (.refl _ _))))

end Sys2Proof.Laws
end

