-- ==== Sys2Proof/Laws/FrameHostPort.lean ====
section
/-! SUPPORT. What the operations of Machine/HostPort.lean may change: one lemma for each. -/

namespace Sys2Proof.Laws

open Sys2Proof Sys2Proof.Machine

theorem askNarrow_within {s h} : Within [.outbox] s (askNarrow s h) := by
  unfold askNarrow
  exact (.ite (.step (emit_within ..) rfl (.refl _ _)) (.refl _ _))

theorem linkUp_within {s h rate width flit} : Within [.regs, .outbox] s (linkUp s h rate width flit) := by
  unfold linkUp
  exact (.ite (.refl _ _) (.step (askNarrow_within ..) rfl (.step (sf_within ..) rfl (.step (wreg_within ..) rfl (.refl _ _)))))

theorem linkRelease_within {s h} : Within [.regs, .trc, .swc, .brg, .lode, .host, .ins] s (linkRelease s h) := by
  unfold linkRelease
  exact (.ite (.step (setHls_within ..) rfl (.step (leaveReset_within ..) rfl (.refl _ _))) (.refl _ _))

theorem perstLow_within {s h} : Within [.regs, .evc, .flt, .trc, .swc, .brg, .lode, .host, .wtt, .ins, .dma, .outbox, .fresh] s (perstLow s h) := by
  unfold perstLow
  exact (.ite (.refl _ _) (.step (hostLinkReset_within ..) rfl (.step (setHls_within ..) rfl (.refl _ _))))

theorem perstHigh_within {s h} : Within [.regs, .trc, .swc, .brg, .lode, .host, .ins] s (perstHigh s h) := by
  unfold perstHigh
  exact (.ite (.refl _ _) (.step (linkRelease_within ..) rfl (.step (setHls_within ..) rfl (.refl _ _))))

theorem hotReset_within {s h} : Within [.regs, .evc, .flt, .trc, .swc, .brg, .lode, .host, .wtt, .ins, .dma, .outbox, .fresh] s (hotReset s h) := by
  unfold hotReset
  exact (.ite (.refl _ _) (.step (leaveReset_within ..) rfl (.step (hostLinkReset_within ..) rfl (.refl _ _))))

theorem dlDown_within {s h} : Within [.regs, .evc, .flt, .trc, .swc, .brg, .lode, .host, .wtt, .ins, .dma, .outbox, .fresh] s (dlDown s h) := by
  unfold dlDown
  exact (.ite (.refl _ _) (.step (hostLinkReset_within ..) rfl (.refl _ _)))

theorem intoRecovery_within {s h} : Within [.regs, .outbox] s (intoRecovery s h) := by
  unfold intoRecovery
  exact (.step (emit_within ..) rfl (.step (setHls_within ..) rfl (.refl _ _)))

theorem writeRateCap_within {s h v} : Within [.regs, .outbox] s (writeRateCap s h v) := by
  unfold writeRateCap
  exact (.ite (.step (intoRecovery_within ..) rfl (.step (sf_within ..) rfl (.refl _ _))) (.step (sf_within ..) rfl (.refl _ _)))

theorem writeNarrow_within {s h v} : Within [.regs, .outbox] s (writeNarrow s h v) := by
  unfold writeNarrow
  exact (.step (askNarrow_within ..) rfl (.step (sf_within ..) rfl (.refl _ _)))

theorem writeRetrain_within {s h} : Within [.regs, .outbox] s (writeRetrain s h) := by
  unfold writeRetrain
  exact (.ite (.step (intoRecovery_within ..) rfl (.refl _ _)) (.step (sf_within ..) rfl (.refl _ _)))

theorem rateDone_within {s h rate} : Within [.regs, .trc] s (rateDone s h rate) := by
  unfold rateDone
  exact (.ite (.refl _ _) (.ite (.step (setHls_within ..) rfl (.refl _ _)) (.step (evt_within ..) rfl (.step (setHls_within ..) rfl (.step (setHls_within ..) rfl (.refl _ _))))))

theorem l0pDone_within {s h width} : Within [.regs, .trc] s (l0pDone s h width) := by
  unfold l0pDone
  exact (.ite (.refl _ _) (.step (evt_within ..) rfl (.step (setHls_within ..) rfl (.refl _ _))))

theorem hostL0p_within {s h width} : Within [.outbox] s (hostL0p s h width) := by
  unfold hostL0p
  exact (.ite (.refl _ _) (.step (emit_within ..) rfl (.refl _ _)))

theorem enterL1_within {s h} : Within [.regs] s (enterL1 s h) := by
  unfold enterL1
  exact (.ite (.step (setHls_within ..) rfl (.refl _ _)) (.refl _ _))

theorem wakeOn_within {s h} : Within [.regs, .host, .outbox] s (wakeOn s h) := by
  unfold wakeOn
  exact (.step (emit_within ..) rfl (.step (upd_host ..) rfl (.step (sf_within ..) rfl (.refl _ _))))

theorem wakeOff_within {s h} : Within [.regs, .host, .outbox] s (wakeOff s h) := by
  unfold wakeOff
  exact (.ite (.step (emit_within ..) rfl (.step (upd_host ..) rfl (.step (sf_within ..) rfl (.refl _ _)))) (.refl _ _))

theorem sendLtr_within {s h} : Within [.regs, .outbox] s (sendLtr s h) := by
  unfold sendLtr
  exact (.ite (.step (emit_within ..) rfl (.step (leaveL1_within ..) rfl (.refl _ _))) (.refl _ _))

theorem writeLtr_within {s h v} : Within [.regs, .outbox] s (writeLtr s h v) := by
  unfold writeLtr
  exact (.step (sendLtr_within ..) rfl (.step (wreg_within ..) rfl (.refl _ _)))

theorem sayReady_within {s h} : Within [.host, .outbox] s (sayReady s h) := by
  unfold sayReady
  exact (.ite (.refl _ _) (.step (emit_within ..) rfl (.step (upd_host ..) rfl (.refl _ _))))

theorem sendMsi_within {s h f a d} : Within [.regs, .outbox] s (sendMsi s h f a d) := by
  unfold sendMsi
  exact (.ite (.step (cf_within ..) rfl (.refl _ _)) (.step (emit_within ..) rfl (.step (leaveL1_within ..) rfl (.refl _ _))))

theorem setPba_within {s i v b} : Within [.host] s (setPba s i v b) := by
  unfold setPba
  exact (.step (upd_host ..) rfl (.refl _ _))

theorem instMsg_within {s i v} : Within [.regs, .host, .outbox] s (instMsg s i v) := by
  unfold instMsg
  refine .ite ?_ ?_
  · exact (.refl _ _)
  · try dsimp only
    split
    · try dsimp only
      split
      · exact (.step (sendMsi_within ..) rfl (.step (setPba_within ..) rfl (.refl _ _)))
      · exact (.step (setPba_within ..) rfl (.refl _ _))
    · exact (.step (setPba_within ..) rfl (.refl _ _))

theorem managerMsg_within {s v} : Within [.regs, .host, .outbox] s (managerMsg s v) := by
  unfold managerMsg
  try dsimp only
  split
  · try dsimp only
    split
    · exact (.step (sendMsi_within ..) rfl (.step (upd_host ..) rfl (.refl _ _)))
    · exact (.step (upd_host ..) rfl (.refl _ _))
  · exact (.step (upd_host ..) rfl (.refl _ _))

theorem msixSend_within {s i v} : Within [.regs, .evc, .host, .outbox] s (msixSend s i v) := by
  unfold msixSend
  try dsimp only
  split
  · exact (.ite (.step (managerMsg_within ..) rfl (.step (upd_evc ..) rfl (.refl _ _))) (.step (instMsg_within ..) rfl (.step (upd_evc ..) rfl (.refl _ _))))
  · try dsimp only
    split
    · exact (.refl _ _)
    · exact (.ite (.ite (.step (managerMsg_within ..) rfl (.step (upd_evc ..) rfl (.refl _ _))) (.step (instMsg_within ..) rfl (.step (upd_evc ..) rfl (.refl _ _)))) (.step (upd_evc ..) rfl (.refl _ _)))

theorem retryFn_within {s h f} : Within [.evc] s (retryFn s h f) := by
  unfold retryFn
  try dsimp only
  split
  · refine .ite ?_ ?_
    · exact (.foldl _ (fun s1 _ h1 => (.step (retryVec_within ..) rfl h1)) (.refl _ _))
    · try dsimp only
      split
      · exact (.step (retryPba_within ..) rfl (.refl _ _))
      · exact (.refl _ _)
  · try dsimp only
    split
    · exact (.step (retryPba_within ..) rfl (.refl _ _))
    · exact (.refl _ _)

theorem refuseIssue_within {s h f} : Within [.regs, .evc, .trc, .swc, .brg, .lode, .host, .wtt, .ins, .dma, .outbox, .fresh] s (refuseIssue s h f) := by
  unfold refuseIssue
  exact (.step (endFrame_within ..) rfl (.ite (.step (logLose_within ..) rfl (.ite (.refl _ _) (.step (cf_within ..) rfl (.refl _ _)))) (.ite (.refl _ _) (.step (cf_within ..) rfl (.refl _ _)))))

theorem sendRead_within {s h g f e tag} : Within [.regs, .host, .outbox, .fresh] s (sendRead s h g f e tag) := by
  unfold sendRead
  exact (.step (emit_within ..) rfl (.step (leaveL1_within ..) rfl (.step (tagsRefresh_within ..) rfl (.step (tickFresh_within ..) rfl (.step (upd_host ..) rfl (.refl _ _))))))

theorem sendWrite_within {s h g f} : Within [.regs, .trc, .swc, .brg, .lode, .host, .wtt, .dma, .outbox, .fresh] s (sendWrite s h g f) := by
  unfold sendWrite
  try dsimp only
  split
  · exact (.step (answer_within ..) rfl (.step (settle_within ..) rfl (.foldl _ (fun s1 _ h1 => (.step (emit_within ..) rfl h1)) (.step (leaveL1_within ..) rfl (.refl _ _)))))
  · exact (.step (settle_within ..) rfl (.foldl _ (fun s2 _ h2 => (.step (emit_within ..) rfl h2)) (.step (leaveL1_within ..) rfl (.refl _ _))))

theorem hostRsp_within {s h f} : Within [.regs, .trc, .swc, .brg, .lode, .host, .wtt, .outbox, .fresh] s (hostRsp s h f) := by
  unfold hostRsp
  refine .ite ?_ ?_
  · exact (.step (dropLate_within ..) rfl (.refl _ _))
  · try dsimp only
    split
    · try dsimp only
      split
      · refine .ite ?_ ?_
        · try dsimp only
          split
          · exact (.step (startStream_within ..) rfl (.step (completeInb_within ..) rfl (.refl _ _)))
          · exact (.step (completeInb_within ..) rfl (.refl _ _))
        · exact (.step (cf_within ..) rfl (.refl _ _))
      · exact (.step (cf_within ..) rfl (.refl _ _))
    · exact (.step (cf_within ..) rfl (.refl _ _))

theorem hostIssue_within {s h} : Within [.regs, .evc, .trc, .swc, .brg, .lode, .host, .wtt, .ins, .dma, .outbox, .fresh] s (hostIssue s h) := by
  unfold hostIssue
  try dsimp only
  split
  · exact (.refl _ _)
  · refine .ite ?_ ?_
    · exact (.step (hostRsp_within ..) rfl (.step (leaveL1_within ..) rfl (.step (upd_host ..) rfl (.refl _ _))))
    · try dsimp only
      split
      · exact (.step (refuseIssue_within ..) rfl (.step (upd_host ..) rfl (.refl _ _)))
      · refine .ite ?_ ?_
        · exact (.step (refuseIssue_within ..) rfl (.step (upd_host ..) rfl (.refl _ _)))
        · refine .ite ?_ ?_
          · try dsimp only
            split
            · exact (.step (sendRead_within ..) rfl (.step (upd_host ..) rfl (.refl _ _)))
            · exact (.step (upd_host ..) rfl (.step (upd_host ..) rfl (.refl _ _)))
          · exact (.step (sendWrite_within ..) rfl (.step (upd_host ..) rfl (.refl _ _)))

theorem tagWaitGo_within {s t b l} : Within [.regs, .evc, .trc, .swc, .brg, .lode, .host, .wtt, .ins, .dma, .outbox, .fresh] s (tagWaitGo s t b l) := by
  induction l generalizing b with
  | nil => exact .refl _ _
  | cons f r ih =>
    unfold tagWaitGo
    try dsimp only
    split
    · exact .step refuseIssue_within rfl (.step (upd_host ..) rfl (.refl _ _))
    · refine .ite (.step refuseIssue_within rfl (.step (upd_host ..) rfl (.refl _ _))) (.ite ih ?_)
      split
      · exact .step sendRead_within rfl (.step (upd_host ..) rfl (.refl _ _))
      · exact ih

theorem hostAnswer_within {s t x status data ep} : Within [.regs, .trc, .swc, .brg, .lode, .host, .wtt, .dma, .outbox, .fresh] s (hostAnswer s t x status data ep) := by
  unfold hostAnswer
  try dsimp only
  split
  · try dsimp only
    exact (.step (enter_within ..) rfl (.step (newSerial_within ..) rfl (.refl _ _)))
  · refine .ite ?_ ?_
    · exact (.step (dropLate_within ..) rfl (.refl _ _))
    · refine .ite ?_ ?_
      · try dsimp only
        split
        · exact (.step (evt_within ..) rfl (.step (cf_within ..) rfl (.refl _ _)))
        · exact (.refl _ _)
      · exact (.step (answer_within ..) rfl (.refl _ _))

theorem freeHostEnt_within {s t e} : Within [.regs, .host] s (freeHostEnt s t e) := by
  unfold freeHostEnt
  exact (.step (tagsRefresh_within ..) rfl (.step (upd_host ..) rfl (.refl _ _)))

theorem takeCpl_within {s h c} : Within [.regs, .trc, .swc, .brg, .lode, .host, .wtt, .dma, .outbox, .fresh] s (takeCpl s h c) := by
  unfold takeCpl
  try dsimp only
  split
  · exact (.ite (.ite (.step (endQuarantine_within ..) rfl (.step (freeHostEnt_within ..) rfl (.step (cf_within ..) rfl (.step (leaveL1_within ..) rfl (.refl _ _))))) (.step (upd_host ..) rfl (.step (cf_within ..) rfl (.step (leaveL1_within ..) rfl (.refl _ _))))) (.ite (.step (hostAnswer_within ..) rfl (.step (freeHostEnt_within ..) rfl (.ite (.step (aerLog_within ..) rfl (.step (leaveL1_within ..) rfl (.refl _ _))) (.step (leaveL1_within ..) rfl (.refl _ _))))) (.ite (.step (hostAnswer_within ..) rfl (.step (freeHostEnt_within ..) rfl (.ite (.step (aerLog_within ..) rfl (.step (leaveL1_within ..) rfl (.refl _ _))) (.step (leaveL1_within ..) rfl (.refl _ _))))) (.step (upd_host ..) rfl (.ite (.step (aerLog_within ..) rfl (.step (leaveL1_within ..) rfl (.refl _ _))) (.step (leaveL1_within ..) rfl (.refl _ _)))))))
  · exact (.step (aerLog_within ..) rfl (.step (cf_within ..) rfl (.step (leaveL1_within ..) rfl (.refl _ _))))

theorem readExpires_within {s t e} : Within [.regs, .trc, .swc, .brg, .lode, .host, .wtt, .dma, .outbox, .fresh] s (readExpires s t e) := by
  unfold readExpires
  try dsimp only
  split
  · exact (.ite (.refl _ _) (.step (hostAnswer_within ..) rfl (.step (aerLog_within ..) rfl (.step (upd_host ..) rfl (.refl _ _)))))
  · exact (.refl _ _)

theorem quarantineEnds_within {s t e} : Within [.regs, .host, .dma] s (quarantineEnds s t e) := by
  unfold quarantineEnds
  try dsimp only
  split
  · exact (.ite (.step (endQuarantine_within ..) rfl (.step (freeHostEnt_within ..) rfl (.refl _ _))) (.refl _ _))
  · exact (.refl _ _)

theorem resetFns_within {s h flr l} : Within [.regs, .flt, .trc, .swc, .brg, .lode, .host, .wtt, .ins, .dma, .outbox, .fresh] s (resetFns s h flr l) := by
  unfold resetFns
  refine .foldl _ (fun s1 _ h1 => ?_) ?_
  · try dsimp only
    split
    · exact (.step (startReset_within ..) rfl h1)
    · exact h1
  · exact (.refl _ _)

theorem vfsCease_within {s h p} : Within [.regs, .flt, .trc, .swc, .brg, .lode, .host, .wtt, .ins, .dma, .outbox, .fresh] s (vfsCease s h p) := by
  unfold vfsCease
  exact (.step (resetFns_within ..) rfl (.foldl _ (fun s1 _ h1 => (.step (unlock_within ..) rfl (.step (cfgClear_within ..) rfl h1))) (.refl _ _)))

theorem flr_within {s h f} : Within [.regs, .flt, .trc, .swc, .brg, .lode, .host, .wtt, .ins, .dma, .outbox, .fresh] s (flr s h f) := by
  unfold flr
  try dsimp only
  split
  · exact (.refl _ _)
  · exact (.ite (.refl _ _) (.ite (.step (upd_host ..) rfl (.step (cfgClear_within ..) rfl (.refl _ _))) (.step (resetFns_within ..) rfl (.step (unlock_within ..) rfl (.step (cfgClear_within ..) rfl (.ite (.step (vfsCease_within ..) rfl (.refl _ _)) (.refl _ _)))))))

theorem cfgWrite_within {s h f dw be v} : Within [.regs, .evc, .flt, .trc, .swc, .brg, .lode, .host, .wtt, .ins, .dma, .outbox, .fresh] s (cfgWrite s h f dw be v) := by
  unfold cfgWrite
  try dsimp only
  split
  · exact (.refl _ _)
  · exact (.ite (.step (doeWrite_within ..) rfl (.step (setCfg_within ..) rfl (.refl _ _))) (.ite (.step (flr_within ..) rfl (.step (setCfg_within ..) rfl (.refl _ _))) (.ite (.step (vfsCease_within ..) rfl (.step (setCfg_within ..) rfl (.refl _ _))) (.ite (.step (sendLtr_within ..) rfl (.step (setCfg_within ..) rfl (.refl _ _))) (.ite (.step (retryFn_within ..) rfl (.step (setCfg_within ..) rfl (.refl _ _))) (.step (setCfg_within ..) rfl (.refl _ _)))))))

theorem pmL1_within {s h} : Within [.regs] s (pmL1 s h) := by
  unfold pmL1
  exact (.ite (.step (setHls_within ..) rfl (.refl _ _)) (.refl _ _))

theorem configRequest_within {s h f bus off wr} : Within [.regs, .evc, .flt, .trc, .swc, .brg, .lode, .host, .wtt, .ins, .dma, .outbox, .fresh] s (configRequest s h f bus off wr) := by
  unfold configRequest
  refine .ite ?_ ?_
  · exact (.refl _ _)
  · refine .ite ?_ ?_
    · exact (.step (emit_within ..) rfl (.step (leaveL1_within ..) rfl (.refl _ _)))
    · refine .ite ?_ ?_
      · exact (.step (emit_within ..) rfl (.step (leaveL1_within ..) rfl (.refl _ _)))
      · try dsimp only
        split
        · exact (.step (pmL1_within ..) rfl (.step (emit_within ..) rfl (.step (leaveL1_within ..) rfl (.refl _ _))))
        · exact (.step (pmL1_within ..) rfl (.step (emit_within ..) rfl (.step (cfgWrite_within ..) rfl (.step (upd_host ..) rfl (.step (leaveL1_within ..) rfl (.refl _ _))))))

end Sys2Proof.Laws
end

