-- ==== Sys2Proof/Laws/FramePhy.lean ====
section
/-! SUPPORT. What the operations of Machine/Phy.lean may change: one lemma for each. -/

namespace Sys2Proof.Laws

open Sys2Proof Sys2Proof.Machine

theorem trainFail_within {s t n} : Within [.regs, .trc, .lode] s (trainFail s t n) := by
  unfold trainFail
  exact (.step (evt_within ..) rfl (.step (sf_within ..) rfl (.step (setLinkState_within ..) rfl (.step (setLink_within ..) rfl (.refl _ _)))))

theorem goActive_within {s t n rate width epoch} : Within [.regs, .lode, .outbox] s (goActive s t n rate width epoch) := by
  unfold goActive
  exact (.step (startEpoch_within ..) rfl (.step (emit_within ..) rfl (.step (sf_within ..) rfl (.step (sf_within ..) rfl (.step (setLinkState_within ..) rfl (.step (sf_within ..) rfl (.refl _ _)))))))

theorem endSync_within {s t n wanted} : Within [.regs, .lode] s (endSync s t n wanted) := by
  unfold endSync
  exact (.ite (.refl _ _) (.step (setLinkState_within ..) rfl (.step (setLink_within ..) rfl (.refl _ _))))

theorem identify_within {s t n b} : Within [.regs, .trc, .lode] s (identify s t n b) := by
  unfold identify
  exact (.ite (.step (evt_within ..) rfl (.step (sf_within ..) rfl (.step (sf_within ..) rfl (.refl _ _)))) (.step (setLinkState_within ..) rfl (.step (setLink_within ..) rfl (.step (sf_within ..) rfl (.step (sf_within ..) rfl (.step (sf_within ..) rfl (.refl _ _)))))))

theorem tune_within {s t n b} : Within [.lode] s (tune s t n b) := by
  unfold tune
  try dsimp only
  split
  · exact (.step (setLink_within ..) rfl (.refl _ _))
  · exact (.refl _ _)

theorem endAlign_within {s t n} : Within [.regs, .lode, .outbox] s (endAlign s t n) := by
  unfold endAlign
  try dsimp only
  split
  · exact (.step (goActive_within ..) rfl (.step (setLink_within ..) rfl (.step (sf_within ..) rfl (.refl _ _))))
  · exact (.refl _ _)

theorem trainStep_within {t n s e} : Within [.regs, .trc, .lode, .outbox] s (trainStep t n s e) := by
  unfold trainStep
  try dsimp only
  split
  · try dsimp only
    split
    · exact (.ite (.step (setLinkState_within ..) rfl (.step (setLink_within ..) rfl (.refl _ _))) (.refl _ _))
    · exact (.refl _ _)
  · try dsimp only
    split
    · exact (.ite (.step (setLink_within ..) rfl (.refl _ _)) (.refl _ _))
    · exact (.refl _ _)
  · exact (.step (endSync_within ..) rfl (.refl _ _))
  · try dsimp only
    split
    · exact (.ite (.step (identify_within ..) rfl (.refl _ _)) (.refl _ _))
    · exact (.refl _ _)
  · try dsimp only
    split
    · exact (.ite (.step (tune_within ..) rfl (.refl _ _)) (.refl _ _))
    · exact (.refl _ _)
  · exact (.step (setLinkState_within ..) rfl (.refl _ _))
  · exact (.step (endAlign_within ..) rfl (.refl _ _))
  · exact (.refl _ _)

theorem trainBoard_within {s t n steps} : Within [.regs, .trc, .lode, .outbox] s (trainBoard s t n steps) := by
  unfold trainBoard
  exact (.ite (.refl _ _) (.foldl _ (fun s1 _ h1 => (.step (trainStep_within ..) rfl h1)) (.refl _ _)))

theorem endPrbs_within {s t n errors} : Within [.regs, .lode] s (endPrbs s t n errors) := by
  unfold endPrbs
  exact (.step (wreg_within ..) rfl (.step (wreg_within ..) rfl (.step (sf_within ..) rfl (.step (setLink_within ..) rfl (.refl _ _)))))

theorem repairReport_within {s t n w} : Within [.regs, .modes, .core, .mem, .evc, .flt, .trc, .swc, .brg, .lode, .host, .wtt, .ins, .dma, .outbox, .fresh] s (repairReport s t n w) := by
  unfold repairReport
  exact (.ite (.step (recordFault_within ..) rfl (.ite (.step (evt_within ..) rfl (.refl _ _)) (.refl _ _))) (.ite (.step (evt_within ..) rfl (.refl _ _)) (.refl _ _)))

theorem takeRepair_within {s t n b} : Within [.regs, .trc, .lode] s (takeRepair s t n b) := by
  unfold takeRepair
  exact (.ite (.step (trainFail_within ..) rfl (.step (sf_within ..) rfl (.refl _ _))) (.step (setLinkState_within ..) rfl (.step (setLink_within ..) rfl (.step (sf_within ..) rfl (.refl _ _)))))

theorem tileStep_within {t n s e} : Within [.regs, .modes, .core, .mem, .evc, .flt, .trc, .swc, .brg, .lode, .host, .wtt, .ins, .dma, .outbox, .fresh] s (tileStep t n s e) := by
  unfold tileStep
  try dsimp only
  split
  · exact (.step (setLinkState_within ..) rfl (.refl _ _))
  · exact (.step (setLinkState_within ..) rfl (.step (endPrbs_within ..) rfl (.refl _ _)))
  · try dsimp only
    split
    · exact (.ite (.step (takeRepair_within ..) rfl (.refl _ _)) (.refl _ _))
    · exact (.refl _ _)
  · try dsimp only
    split
    · exact (.step (repairReport_within ..) rfl (.step (goActive_within ..) rfl (.step (setLink_within ..) rfl (.refl _ _))))
    · exact (.refl _ _)
  · exact (.refl _ _)

theorem trainTile_within {s t n steps} : Within [.regs, .modes, .core, .mem, .evc, .flt, .trc, .swc, .brg, .lode, .host, .wtt, .ins, .dma, .outbox, .fresh] s (trainTile s t n steps) := by
  unfold trainTile
  exact (.foldl _ (fun s1 _ h1 => (.step (tileStep_within ..) rfl h1)) (.refl _ _))

theorem sendMsg_within {s t n msg} : Within [.lode] s (sendMsg s t n msg) := by
  unfold sendMsg
  exact (.step (setLink_within ..) rfl (.refl _ _))

theorem writeChange_within {s t n} : Within [.regs, .lode] s (writeChange s t n) := by
  unfold writeChange
  refine .ite ?_ ?_
  · exact (.refl _ _)
  · refine .ite ?_ ?_
    · exact (.ite (.refl _ _) (.step (endChange_within ..) rfl (.refl _ _)))
    · try dsimp only
      exact (.ite (.step (endChange_within ..) rfl (.refl _ _)) (.step (sendMsg_within ..) rfl (.step (sf_within ..) rfl (.step (sf_within ..) rfl (.step (setLink_within ..) rfl (.refl _ _))))))

theorem startChange_within {s t n req rate width ours} : Within [.regs, .lode] s (startChange s t n req rate width ours) := by
  unfold startChange
  exact (.step (sf_within ..) rfl (.step (setLinkState_within ..) rfl (.step (setLink_within ..) rfl (.refl _ _))))

theorem acceptChange_within {s t n req rate width ours} : Within [.regs, .lode] s (acceptChange s t n req rate width ours) := by
  unfold acceptChange
  exact (.step (sf_within ..) rfl (.step (setLink_within ..) rfl (.refl _ _)))

theorem takeLcr_within {s t n req identity rate0 width0} : Within [.regs, .trc, .lode] s (takeLcr s t n req identity rate0 width0) := by
  unfold takeLcr
  refine .ite ?_ ?_
  · exact (.refl _ _)
  · try dsimp only
    refine .ite ?_ ?_
    · exact (.step (sendMsg_within ..) rfl (.refl _ _))
    · try dsimp only
      split
      · exact (.ite (.step (sendMsg_within ..) rfl (.refl _ _)) (.ite (.step (acceptChange_within ..) rfl (.step (sendMsg_within ..) rfl (.refl _ _))) (.ite (.refl _ _) (.step (acceptChange_within ..) rfl (.step (sendMsg_within ..) rfl (.step (evt_within ..) rfl (.step (endChange_within ..) rfl (.refl _ _))))))))
      · exact (.ite (.step (sendMsg_within ..) rfl (.refl _ _)) (.step (acceptChange_within ..) rfl (.step (sendMsg_within ..) rfl (.refl _ _))))

theorem takeAck_within {s t n req} : Within [.regs, .lode] s (takeAck s t n req) := by
  unfold takeAck
  try dsimp only
  split
  · exact (.ite (.step (startChange_within ..) rfl (.refl _ _)) (.refl _ _))
  · exact (.refl _ _)

theorem takeRefuse_within {s t n req} : Within [.regs, .trc, .lode] s (takeRefuse s t n req) := by
  unfold takeRefuse
  try dsimp only
  split
  · exact (.ite (.step (evt_within ..) rfl (.step (endChange_within ..) rfl (.refl _ _))) (.refl _ _))
  · exact (.refl _ _)

theorem changeTimeout_within {s t n} : Within [.regs, .lode] s (changeTimeout s t n) := by
  unfold changeTimeout
  try dsimp only
  split
  · exact (.ite (.step (endChange_within ..) rfl (.refl _ _)) (.refl _ _))
  · exact (.refl _ _)

theorem replayAll_within {s t n} : Within [.lode] s (replayAll s t n) := by
  unfold replayAll
  exact (.step (setLink_within ..) rfl (.refl _ _))

theorem finishChange_within {s t n} : Within [.regs, .trc, .lode, .outbox] s (finishChange s t n) := by
  unfold finishChange
  try dsimp only
  split
  · exact (.ite (.step (evt_within ..) rfl (.step (replayAll_within ..) rfl (.step (emit_within ..) rfl (.step (endChange_within ..) rfl (.step (sf_within ..) rfl (.step (sf_within ..) rfl (.step (setLinkState_within ..) rfl (.refl _ _)))))))) (.refl _ _))
  · exact (.refl _ _)

theorem commandDown_within {s t n held} : Within [.regs, .modes, .core, .mem, .evc, .flt, .trc, .swc, .brg, .lode, .host, .wtt, .ins, .dma, .outbox, .fresh] s (commandDown s t n held) := by
  unfold commandDown
  exact (.ite (.step (declareDown_within ..) rfl (.step (sendDown_within ..) rfl (.refl _ _))) (.ite (.step (setLinkState_within ..) rfl (.refl _ _)) (.refl _ _)))

theorem disableLink_within {s t n} : Within [.regs, .modes, .core, .mem, .evc, .flt, .trc, .swc, .brg, .lode, .host, .wtt, .ins, .dma, .outbox, .fresh] s (disableLink s t n) := by
  unfold disableLink
  exact (.step (commandDown_within ..) rfl (.step (sf_within ..) rfl (.refl _ _)))

theorem loseLock_within {s t n} : Within [.regs, .trc, .lode] s (loseLock s t n) := by
  unfold loseLock
  exact (.ite (.step (evt_within ..) rfl (.step (setLinkState_within ..) rfl (.step (setLink_within ..) rfl (.refl _ _)))) (.ite (.step (setLink_within ..) rfl (.refl _ _)) (.refl _ _)))

theorem recovered_within {s t n} : Within [.regs, .trc, .lode, .outbox] s (recovered s t n) := by
  unfold recovered
  exact (.step (evt_within ..) rfl (.step (cf_within ..) rfl (.step (replayAll_within ..) rfl (.step (emit_within ..) rfl (.step (setLinkState_within ..) rfl (.refl _ _))))))

theorem recoverTile_within {s t n steps} : Within [.regs, .modes, .core, .mem, .evc, .flt, .trc, .swc, .brg, .lode, .host, .wtt, .ins, .dma, .outbox, .fresh] s (recoverTile s t n steps) := by
  unfold recoverTile
  try dsimp only
  split
  · try dsimp only
    split
    · exact (.ite (.step (endPrbs_within ..) rfl (.refl _ _)) (.step (repairReport_within ..) rfl (.step (recovered_within ..) rfl (.step (sf_within ..) rfl (.step (setLink_within ..) rfl (.step (endPrbs_within ..) rfl (.refl _ _)))))))
    · exact (.step (endPrbs_within ..) rfl (.refl _ _))
  · exact (.refl _ _)

theorem recover_within {s t n steps} : Within [.regs, .modes, .core, .mem, .evc, .flt, .trc, .swc, .brg, .lode, .host, .wtt, .ins, .dma, .outbox, .fresh] s (recover s t n steps) := by
  unfold recover
  exact (.ite (.refl _ _) (.ite (.step (recovered_within ..) rfl (.refl _ _)) (.step (recoverTile_within ..) rfl (.refl _ _))))

theorem lockTimer_within {s t n} : Within [.regs, .modes, .core, .mem, .evc, .flt, .trc, .swc, .brg, .lode, .host, .wtt, .ins, .dma, .outbox, .fresh] s (lockTimer s t n) := by
  unfold lockTimer
  exact (.ite (.step (declareDown_within ..) rfl (.refl _ _)) (.refl _ _))

end Sys2Proof.Laws
end

