-- ==== Sys2Proof/Laws/FrameAge.lean ====
section
/-! SUPPORT. What the operations of Machine/Age.lean may change: one lemma for each. -/

namespace Sys2Proof.Laws

open Sys2Proof Sys2Proof.Machine

theorem writeTrim_within {s v} : Within [.cal] s (writeTrim s v) := by
  unfold writeTrim
  exact (.step (upd_cal ..) rfl (.refl _ _))

theorem setTime_within {s n} : Within [.regs, .trc, .cal] s (setTime s n) := by
  unfold setTime
  exact (.step (evt_within ..) rfl (.step (upd_cal ..) rfl (.refl _ _)))

theorem tsRead_within {s} : Within [.regs, .bus, .cal, .fresh] s (tsRead s) := by
  unfold tsRead
  refine mbCmd_within ?_ rfl (fun s1 h1 => ?_)
  · exact (.refl _ _)
  · try dsimp only
    split
    · exact (.step (mbEnd_within ..) rfl (.step (upd_cal ..) rfl (.step (tickFresh_within ..) rfl h1)))
    · exact (.step (mbEnd_within ..) rfl h1)
    · exact (.step (mbEnd_within ..) rfl h1)
    · exact (.step (mbEnd_within ..) rfl h1)

theorem tsChange_within {l a s op k} (h : Within l a s) (hs : Grp.sub [.regs, .bus] l = true)
    (hk : ∀ x, Within l a x → Within l a (k x)) : Within l a (tsChange s op k) := by
  have e1 : ∀ x t mb r, Within l a x → Within l a (mbEnd x t mb r) := fun x t mb r hx =>
    (Within.step mbEnd_within rfl (.refl [.regs, .bus] x)).step hs hx
  unfold tsChange
  exact mbCmd_within h hs (fun x hx => .ite (e1 _ _ _ _ hx) (.ite (e1 _ _ _ _ hx) (e1 _ _ _ _ (hk _ hx))))

theorem tsWrite_within {s} : Within [.regs, .bus, .trc, .cal] s (tsWrite s) := by
  unfold tsWrite
  exact (tsChange_within (.refl _ _) rfl (fun s1 h1 => (.step (setTime_within ..) rfl h1)))

theorem tsSlew_within {s} : Within [.regs, .bus, .cal] s (tsSlew s) := by
  unfold tsSlew
  exact (tsChange_within (.refl _ _) rfl (fun s1 h1 => (.step (upd_cal ..) rfl h1)))

theorem slewDone_within {s} : Within [.cal] s (slewDone s) := by
  unfold slewDone
  exact (.ite (.step (upd_cal ..) rfl (.refl _ _)) (.refl _ _))

theorem crystalStop_within {s} : Within [.regs, .modes, .core, .mem, .evc, .flt, .trc, .swc, .brg, .lode, .host, .wtt, .ins, .dma, .cal, .outbox, .fresh] s (crystalStop s) := by
  unfold crystalStop
  exact (.ite (.refl _ _) (.ite (.ite (.step (evt_within ..) rfl (.step (upd_cal ..) rfl (.refl _ _))) (.step (recordFault_within ..) rfl (.step (evt_within ..) rfl (.step (upd_cal ..) rfl (.refl _ _))))) (.step (upd_cal ..) rfl (.refl _ _))))

theorem crystalResume_within {s} : Within [.cal] s (crystalResume s) := by
  unfold crystalResume
  exact (.step (upd_cal ..) rfl (.refl _ _))

theorem takeReading_within {s x} : Within [.regs, .modes, .core, .mem, .evc, .flt, .trc, .swc, .brg, .lode, .host, .wtt, .ins, .dma, .age, .outbox, .fresh] s (takeReading s x) := by
  unfold takeReading
  try dsimp only
  exact (.ite (.refl _ _) (.ite (.step (upd_age ..) rfl (.refl _ _)) (.step (recordFault_within ..) rfl (.step (upd_age ..) rfl (.refl _ _)))))

theorem slackRefresh_within {s t} : Within [.regs] s (slackRefresh s t) := by
  unfold slackRefresh
  try dsimp only
  split
  · exact (.step (wreg_within ..) rfl (.refl _ _))
  · exact (.refl _ _)

theorem takeReadings_within {s l} : Within [.regs, .modes, .core, .mem, .evc, .flt, .trc, .swc, .brg, .lode, .host, .wtt, .ins, .dma, .age, .outbox, .fresh] s (takeReadings s l) := by
  unfold takeReadings
  exact (.foldl _ (fun s1 _ h1 => (.step (slackRefresh_within ..) rfl h1)) (.foldl _ (fun s2 _ h2 => (.step (takeReading_within ..) rfl h2)) (.refl _ _)))

theorem histPut_within {s t kind eqChanges} : Within [.regs, .mem, .age] s (histPut s t kind eqChanges) := by
  unfold histPut
  exact (.step (cf_within ..) rfl (.step (sf_within ..) rfl (.step (upd_age ..) rfl (.step (mramWrite_within ..) rfl (.refl _ _)))))

theorem pmbusSend_within {s command} : Within [.regs, .outbox] s (pmbusSend s command) := by
  unfold pmbusSend
  exact (.step (emit_within ..) rfl (.step (sf_within ..) rfl (.refl _ _)))

theorem pmbusEnd_within {s command acked} : Within [.regs, .trc, .pwr] s (pmbusEnd s command acked) := by
  unfold pmbusEnd
  exact (.ite (.step (sf_within ..) rfl (.step (sf_within ..) rfl (.step (upd_pwr ..) rfl (.refl _ _)))) (.step (evt_within ..) rfl (.step (sf_within ..) rfl (.step (sf_within ..) rfl (.step (upd_pwr ..) rfl (.refl _ _))))))

theorem setVreq_within {s v} : Within [.regs, .outbox] s (setVreq s v) := by
  unfold setVreq
  exact (.step (pmbusSend_within ..) rfl (.step (wreg_within ..) rfl (.refl _ _)))

theorem setVolt_within {s x} : Within [.age] s (setVolt s x) := by
  unfold setVolt
  exact (.step (upd_age ..) rfl (.refl _ _))

theorem marginFault_within {s t kind value} : Within [.regs, .modes, .core, .mem, .evc, .flt, .trc, .swc, .brg, .lode, .host, .wtt, .ins, .dma, .outbox, .fresh] s (marginFault s t kind value) := by
  unfold marginFault
  exact (.step (evt_within ..) rfl (.step (recordFault_within ..) rfl (.refl _ _)))

theorem raiseEnds_within {s} : Within [.regs, .modes, .core, .mem, .evc, .flt, .trc, .swc, .brg, .lode, .host, .wtt, .ins, .dma, .age, .outbox, .fresh] s (raiseEnds s) := by
  unfold raiseEnds
  refine .foldl _ (fun s1 _ h1 => ?_) ?_
  · try dsimp only
    split
    · exact (.step (marginFault_within ..) rfl (.step (sf_within ..) rfl (.ite (.step (upd_age ..) rfl (.step (evt_within ..) rfl h1)) (.step (histPut_within ..) rfl (.step (upd_age ..) rfl (.step (evt_within ..) rfl h1))))))
    · exact (.ite (.step (upd_age ..) rfl (.step (evt_within ..) rfl h1)) (.step (histPut_within ..) rfl (.step (upd_age ..) rfl (.step (evt_within ..) rfl h1))))
  · exact (.refl _ _)

theorem voltEnds_within {s x} : Within [.regs, .modes, .core, .mem, .evc, .flt, .trc, .swc, .brg, .lode, .host, .wtt, .ins, .dma, .age, .outbox, .fresh] s (voltEnds s x) := by
  unfold voltEnds
  exact (.ite (.step (setVolt_within ..) rfl (.refl _ _)) (.step (raiseEnds_within ..) rfl (.step (setVolt_within ..) rfl (.refl _ _))))

theorem voltGo_within {s x} : Within [.regs, .modes, .core, .mem, .evc, .flt, .trc, .swc, .brg, .lode, .host, .wtt, .ins, .dma, .age, .outbox, .fresh] s (voltGo s x) := by
  unfold voltGo
  try dsimp only
  split
  · exact (.step (voltEnds_within ..) rfl (.refl _ _))
  · exact (.ite (.step (setVolt_within ..) rfl (.step (setVreq_within ..) rfl (.refl _ _))) (.ite (.step (setVolt_within ..) rfl (.step (setVreq_within ..) rfl (.refl _ _))) (.step (voltEnds_within ..) rfl (.refl _ _))))

theorem voltStep_within {s readings acked} : Within [.regs, .modes, .core, .mem, .evc, .flt, .trc, .swc, .brg, .lode, .host, .wtt, .ins, .dma, .age, .pwr, .outbox, .fresh] s (voltStep s readings acked) := by
  unfold voltStep
  try dsimp only
  split
  · exact (.refl _ _)
  · exact (.ite (.step (voltEnds_within ..) rfl (.step (wreg_within ..) rfl (.step (pmbusEnd_within ..) rfl (.step (takeReadings_within ..) rfl (.refl _ _))))) (.ite (.step (voltEnds_within ..) rfl (.step (setVreq_within ..) rfl (.step (pmbusEnd_within ..) rfl (.step (takeReadings_within ..) rfl (.refl _ _))))) (.ite (.step (voltGo_within ..) rfl (.step (setVreq_within ..) rfl (.step (pmbusEnd_within ..) rfl (.step (takeReadings_within ..) rfl (.refl _ _))))) (.step (voltGo_within ..) rfl (.step (pmbusEnd_within ..) rfl (.step (takeReadings_within ..) rfl (.refl _ _)))))))

theorem canarySample_within {s readings} : Within [.regs, .modes, .core, .mem, .evc, .flt, .trc, .swc, .brg, .lode, .host, .wtt, .ins, .dma, .age, .outbox, .fresh] s (canarySample s readings) := by
  unfold canarySample
  try dsimp only
  split
  · refine .ite ?_ ?_
    · try dsimp only
      split
      · exact (.step (setVolt_within ..) rfl (.step (takeReadings_within ..) rfl (.refl _ _)))
      · exact (.ite (.step (voltGo_within ..) rfl (.step (takeReadings_within ..) rfl (.refl _ _))) (.step (takeReadings_within ..) rfl (.refl _ _)))
    · exact (.step (takeReadings_within ..) rfl (.refl _ _))
  · exact (.step (takeReadings_within ..) rfl (.refl _ _))

theorem planStart_within {s readings} : Within [.regs, .modes, .core, .mem, .evc, .flt, .trc, .swc, .brg, .lode, .host, .wtt, .ins, .dma, .age, .outbox, .fresh] s (planStart s readings) := by
  unfold planStart
  try dsimp only
  split
  · exact (.step (upd_age ..) rfl (.foldl _ (fun s1 _ h1 => (.ite (.step (sf_within ..) rfl h1) (.step (stf_within ..) rfl (.step (sf_within ..) rfl h1)))) (.step (takeReadings_within ..) rfl (.refl _ _))))
  · exact (.step (voltGo_within ..) rfl (.step (upd_age ..) rfl (.foldl _ (fun s2 _ h2 => (.ite (.step (sf_within ..) rfl h2) (.step (stf_within ..) rfl (.step (sf_within ..) rfl h2)))) (.step (takeReadings_within ..) rfl (.refl _ _)))))

theorem replanStart_within {s readings} : Within [.regs, .modes, .core, .mem, .evc, .flt, .trc, .swc, .brg, .lode, .host, .wtt, .ins, .dma, .age, .outbox, .fresh] s (replanStart s readings) := by
  unfold replanStart
  exact (.ite (.refl _ _) (.ite (.foldl _ (fun s1 _ h1 => (.step (stf_within ..) rfl h1)) (.refl _ _)) (.step (planStart_within ..) rfl (.refl _ _))))

theorem planNow_within {s readings} : Within [.regs, .modes, .core, .mem, .evc, .flt, .trc, .swc, .brg, .lode, .host, .wtt, .ins, .dma, .age, .outbox, .fresh] s (planNow s readings) := by
  unfold planNow
  exact (.ite (.refl _ _) (.step (planStart_within ..) rfl (.refl _ _)))

theorem eqTrial_within {s t n x} : Within [.age, .fresh] s (eqTrial s t n x) := by
  unfold eqTrial
  try dsimp only
  split
  · exact (.refl _ _)
  · exact (.ite (.refl _ _) (.ite (.step (upd_age ..) rfl (.refl _ _)) (.step (tickFresh_within ..) rfl (.step (upd_age ..) rfl (.refl _ _)))))

theorem planTile_within {s p t eyes} : Within [.regs, .modes, .core, .mem, .evc, .flt, .trc, .swc, .brg, .lode, .host, .wtt, .ins, .dma, .age, .outbox, .fresh] s (planTile s p t eyes) := by
  unfold planTile
  refine .step (evt_within ..) rfl ?_
  refine .step (sf_within ..) rfl ?_
  refine .step (cf_within ..) rfl ?_
  try dsimp only
  split
  · exact (.step (marginFault_within ..) rfl (.step (sf_within ..) rfl (.step (sf_within ..) rfl (.step (histPut_within ..) rfl (.step (wreg_within ..) rfl (.step (upd_age ..) rfl (.refl _ _)))))))
  · exact (.ite (.step (sf_within ..) rfl (.step (sf_within ..) rfl (.step (histPut_within ..) rfl (.step (wreg_within ..) rfl (.step (upd_age ..) rfl (.refl _ _)))))) (.step (marginFault_within ..) rfl (.step (sf_within ..) rfl (.step (sf_within ..) rfl (.step (histPut_within ..) rfl (.step (wreg_within ..) rfl (.step (upd_age ..) rfl (.refl _ _))))))))

theorem maintPort_eq {s t port s'} (h : maintPort s t port = some s') : Within [.regs, .modes, .core, .mem, .evc, .flt, .trc, .swc, .brg, .lode, .host, .wtt, .ins, .dma, .outbox, .fresh] s s' := by
  unfold maintPort at h
  try dsimp only at h
  split at h
  · try dsimp only at h
    split at h
    · cases h
    · cases h
      exact (.step (writeRateCap_within ..) rfl (.refl _ _))
  · try dsimp only at h
    split at h
    · cases h
    · cases h
      exact (.step (writeChange_within ..) rfl (.step (sf_within ..) rfl (.step (sf_within ..) rfl (.refl _ _))))
  · try dsimp only at h
    split at h
    · cases h
      exact (.step (commandDown_within ..) rfl (.refl _ _))
    · cases h

theorem maintAct_within {s t} : Within [.regs, .modes, .core, .mem, .evc, .flt, .trc, .swc, .brg, .lode, .host, .wtt, .ins, .dma, .age, .outbox, .fresh] s (maintAct s t) := by
  unfold maintAct
  refine .foldl _ (fun s1 _ h1 => ?_) ?_
  · try dsimp only
    split
    · exact (.step (evt_within ..) rfl (.step (histPut_within ..) rfl (.step (maintPort_eq (by assumption)) rfl h1)))
    · exact h1
  · exact (.step (upd_age ..) rfl (.refl _ _))

theorem maintEnd_within {s t} : Within [.regs, .trc, .age] s (maintEnd s t) := by
  unfold maintEnd
  exact (.ite (.refl _ _) (.step (evt_within ..) rfl (.step (sf_within ..) rfl (.step (sf_within ..) rfl (.step (upd_age ..) rfl (.refl _ _))))))

theorem maintWrite_within {s t minutes scope} : Within [.regs, .modes, .core, .mem, .evc, .flt, .trc, .swc, .brg, .lode, .host, .wtt, .ins, .dma, .age, .outbox, .fresh] s (maintWrite s t minutes scope) := by
  unfold maintWrite
  exact (.ite (.step (sf_within ..) rfl (.step (maintEnd_within ..) rfl (.refl _ _))) (.ite (.step (upd_age ..) rfl (.step (sf_within ..) rfl (.step (wreg_within ..) rfl (.refl _ _)))) (.ite (.step (upd_age ..) rfl (.step (upd_age ..) rfl (.step (sf_within ..) rfl (.step (wreg_within ..) rfl (.refl _ _))))) (.step (maintAct_within ..) rfl (.step (upd_age ..) rfl (.step (sf_within ..) rfl (.step (wreg_within ..) rfl (.refl _ _))))))))

theorem replanEnd_within {s eyes} : Within [.regs, .modes, .core, .mem, .evc, .flt, .trc, .swc, .brg, .lode, .host, .wtt, .ins, .dma, .age, .outbox, .fresh] s (replanEnd s eyes) := by
  unfold replanEnd
  try dsimp only
  split
  · exact (.foldl _ (fun s1 _ h1 => (.step (maintAct_within ..) rfl h1)) (.step (upd_age ..) rfl (.foldl _ (fun s2 _ h2 => (unfenced_within h2 (.step (planTile_within ..) rfl h2))) (.refl _ _))))
  · exact (.refl _ _)

theorem planForget_within {s t} : Within [.age] s (planForget s t) := by
  unfold planForget
  try dsimp only
  split
  · exact (.step (upd_age ..) rfl (.refl _ _))
  · exact (.refl _ _)

end Sys2Proof.Laws
end

