-- ==== Sys2Proof/Laws/FrameGal.lean ====
section
/-! SUPPORT. What the operations of Machine/Gal.lean may change: one lemma for each. -/

namespace Sys2Proof.Laws

open Sys2Proof Sys2Proof.Machine

theorem setGalBit_within {s b v} : Within [.regs] s (setGalBit s b v) := by
  unfold setGalBit
  exact (.step (sf_within ..) rfl (.refl _ _))

theorem ringSend_within {s kind dest flags seq status arg payload} : Within [.gal, .outbox] s (ringSend s kind dest flags seq status arg payload) := by
  unfold ringSend
  exact (.step (upd_gal ..) rfl (.step (emit_within ..) rfl (.step (emit_within ..) rfl (.refl _ _))))

theorem ringSeq_within {s} : Within [.gal] s (ringSeq s).2 := by
  unfold ringSeq
  exact (.step (upd_gal ..) rfl (.refl _ _))

theorem ringSeq_eq {s v₁ s'} (he : ringSeq s = (v₁, s')) : Within [.gal] s s' := by
  have e := ringSeq_within (s := s)
  rw [he] at e
  exact e

theorem helloSend_within {s} : Within [.gal, .outbox] s (helloSend s) := by
  unfold helloSend
  refine .ite ?_ ?_
  · exact (.refl _ _)
  · try dsimp only
    exact (.step (ringSend_within ..) rfl (.step (ringSeq_within ..) rfl (.refl _ _)))

theorem countSeen_within {s} : Within [.regs] s (countSeen s) := by
  unfold countSeen
  exact (.step (sf_within ..) rfl (.refl _ _))

theorem hearRole_within {s p manager} : Within [.regs, .trc] s (hearRole s p manager) := by
  unfold hearRole
  exact (.ite (.refl _ _) (.ite (.ite (.step (sf_within ..) rfl (.step (sf_within ..) rfl (.step (setGalBit_within ..) rfl (.step (setGalBit_within ..) rfl (.step (evt_within ..) rfl (.refl _ _)))))) (.step (evt_within ..) rfl (.refl _ _))) (.step (sf_within ..) rfl (.step (sf_within ..) rfl (.refl _ _)))))

theorem takeHello_within {s p arg summary} : Within [.regs, .trc, .gal] s (takeHello s p arg summary) := by
  unfold takeHello
  exact (.ite (.step (evt_within ..) rfl (.step (wreg_within ..) rfl (.step (hearRole_within ..) rfl (.ite (.step (evt_within ..) rfl (.step (countSeen_within ..) rfl (.step (upd_gal ..) rfl (.step (setGalBit_within ..) rfl (.step (sf_within ..) rfl (.refl _ _)))))) (.step (countSeen_within ..) rfl (.step (upd_gal ..) rfl (.step (setGalBit_within ..) rfl (.step (sf_within ..) rfl (.refl _ _))))))))) (.step (hearRole_within ..) rfl (.ite (.step (evt_within ..) rfl (.step (countSeen_within ..) rfl (.step (upd_gal ..) rfl (.step (setGalBit_within ..) rfl (.step (sf_within ..) rfl (.refl _ _)))))) (.step (countSeen_within ..) rfl (.step (upd_gal ..) rfl (.step (setGalBit_within ..) rfl (.step (sf_within ..) rfl (.refl _ _))))))))

theorem packageLost_within {s p} : Within [.regs, .trc, .gal] s (packageLost s p) := by
  unfold packageLost
  exact (.ite (.refl _ _) (.step (evt_within ..) rfl (.step (upd_gal ..) rfl (.step (countSeen_within ..) rfl (.step (sf_within ..) rfl (.refl _ _))))))

theorem rxDown_within {s ringB} : Within [.regs, .modes, .core, .mem, .evc, .flt, .trc, .swc, .brg, .lode, .host, .wtt, .ins, .dma, .outbox, .fresh] s (rxDown s ringB) := by
  unfold rxDown
  exact (.ite (.refl _ _) (.ite (.step (setGalBit_within ..) rfl (.refl _ _)) (.ite (.step (evt_within ..) rfl (.step (recordFault_within ..) rfl (.step (setGalBit_within ..) rfl (.refl _ _)))) (.step (recordFault_within ..) rfl (.step (setGalBit_within ..) rfl (.refl _ _))))))

theorem rxUp_within {s ringB} : Within [.regs] s (rxUp s ringB) := by
  unfold rxUp
  exact (.ite (.step (setGalBit_within ..) rfl (.refl _ _)) (.refl _ _))

theorem setRmt_within {s m x} : Within [.gal] s (setRmt s m x) := by
  unfold setRmt
  exact (.step (upd_gal ..) rfl (.refl _ _))

theorem rmtEnd_within {s m reason data} : Within [.regs, .bus, .gal] s (rmtEnd s m reason data) := by
  unfold rmtEnd
  exact (.ite (.step (mbEnd_within ..) rfl (.step (setRmt_within ..) rfl (.refl _ _))) (.step (mbEnd_within ..) rfl (.step (sf_within ..) rfl (.step (setRmt_within ..) rfl (.refl _ _)))))

theorem rmtStart_within {s m op} : Within [.regs, .bus, .gal, .outbox] s (rmtStart s m op) := by
  unfold rmtStart
  refine mbCmd_within ?_ rfl (fun s1 h1 => ?_)
  · exact (.refl _ _)
  · refine .ite ?_ ?_
    · exact (.step (mbEnd_within ..) rfl h1)
    · refine .ite ?_ ?_
      · exact (.step (setRmt_within ..) rfl h1)
      · try dsimp only
        split
        · exact (.step (rmtEnd_within ..) rfl h1)
        · try dsimp only
          exact (.step (ringSend_within ..) rfl (.step (setRmt_within ..) rfl (.step (ringSeq_within ..) rfl h1)))

theorem rmtTimeout_within {s m} : Within [.regs, .bus, .gal] s (rmtTimeout s m) := by
  unfold rmtTimeout
  try dsimp only
  split
  · exact (.ite (.refl _ _) (.step (rmtEnd_within ..) rfl (.refl _ _)))
  · exact (.refl _ _)

theorem takeResponse_within {s src kind seq status payload} : Within [.regs, .bus, .gal] s (takeResponse s src kind seq status payload) := by
  unfold takeResponse
  try dsimp only
  split
  · exact (.step (rmtEnd_within ..) rfl (.refl _ _))
  · exact (.step (cf_within ..) rfl (.refl _ _))

theorem timeSend_within {s} : Within [.regs, .gal, .outbox] s (timeSend s) := by
  unfold timeSend
  refine .ite ?_ ?_
  · exact (.refl _ _)
  · try dsimp only
    exact (.step (setGalBit_within ..) rfl (.step (upd_gal ..) rfl (.step (ringSend_within ..) rfl (.step (ringSeq_within ..) rfl (.refl _ _)))))

theorem syncEdge_within {s} : Within [.regs, .trc, .cal, .gal, .fresh] s (syncEdge s) := by
  unfold syncEdge
  refine .ite ?_ ?_
  · exact (.refl _ _)
  · try dsimp only
    split
    · exact (.step (setGalBit_within ..) rfl (.refl _ _))
    · exact (.ite (.step (upd_gal ..) rfl (.step (setGalBit_within ..) rfl (.refl _ _))) (.ite (.step (upd_cal ..) rfl (.step (setTime_within ..) rfl (.step (sf_within ..) rfl (.step (tickFresh_within ..) rfl (.step (upd_gal ..) rfl (.step (setGalBit_within ..) rfl (.refl _ _))))))) (.step (sf_within ..) rfl (.step (tickFresh_within ..) rfl (.step (upd_gal ..) rfl (.step (setGalBit_within ..) rfl (.refl _ _)))))))

theorem syncLost_within {s} : Within [.regs, .trc] s (syncLost s) := by
  unfold syncLost
  exact (.ite (.refl _ _) (.step (evt_within ..) rfl (.step (setGalBit_within ..) rfl (.refl _ _))))

theorem followEnd_within {s} : Within [.cal] s (followEnd s) := by
  unfold followEnd
  exact (.step (upd_cal ..) rfl (.refl _ _))

end Sys2Proof.Laws
end

