-- ==== Sys2Proof/Laws/FrameLinkLayer.lean ====
section
/-! SUPPORT. What the operations of Machine/LinkLayer.lean may change: one lemma for each. -/

namespace Sys2Proof.Laws

open Sys2Proof Sys2Proof.Machine

theorem pauseBegin_within {s t n} : Within [.regs, .lode] s (pauseBegin s t n) := by
  unfold pauseBegin
  try dsimp only
  split
  · exact (.ite (.step (startChange_within ..) rfl (.refl _ _)) (.refl _ _))
  · exact (.refl _ _)

theorem flitSend_within {s t n} : Within [.regs, .trc, .lode, .outbox] s (flitSend s t n) := by
  unfold flitSend
  refine .ite ?_ ?_
  · exact (.refl _ _)
  · try dsimp only
    split
    · exact (.step (sendResend_within ..) rfl (.step (setLink_within ..) rfl (.ite (.step (cf_within ..) rfl (.ite (.step (cf_within ..) rfl (.refl _ _)) (.refl _ _))) (.ite (.step (cf_within ..) rfl (.refl _ _)) (.refl _ _)))))
    · exact (.ite (.step (pauseBegin_within ..) rfl (.step (sendData_within ..) rfl (.ite (.step (cf_within ..) rfl (.ite (.step (cf_within ..) rfl (.refl _ _)) (.refl _ _))) (.ite (.step (cf_within ..) rfl (.refl _ _)) (.refl _ _))))) (.step (putFlit_within ..) rfl (.ite (.step (cf_within ..) rfl (.ite (.step (cf_within ..) rfl (.refl _ _)) (.refl _ _))) (.ite (.step (cf_within ..) rfl (.refl _ _)) (.refl _ _)))))

theorem protoError_within {s t n} : Within [.regs, .modes, .core, .mem, .evc, .flt, .trc, .swc, .brg, .lode, .host, .wtt, .ins, .dma, .outbox, .fresh] s (protoError s t n) := by
  unfold protoError
  exact (.step (recordFault_within ..) rfl (.step (declareDown_within ..) rfl (.step (evt_within ..) rfl (.step (sendDown_within ..) rfl (.refl _ _)))))

theorem ackFlit_within {n s f} : Within [.regs, .trc, .swc, .brg, .lode, .host, .wtt, .dma, .outbox, .fresh] s (ackFlit n s f) := by
  unfold ackFlit
  refine .ite ?_ ?_
  · exact (.refl _ _)
  · refine .foldl _ (fun s1 _ h1 => ?_) ?_
    · try dsimp only
      split
      · exact (.step (answer_within ..) rfl (.step (settle_within ..) rfl h1))
      · exact (.step (settle_within ..) rfl h1)
    · exact (.refl _ _)

theorem takeAckField_within {s t n ack} : Within [.regs, .trc, .swc, .brg, .lode, .host, .wtt, .dma, .outbox, .fresh] s (takeAckField s t n ack).1 := by
  unfold takeAckField
  try dsimp only
  split
  · try dsimp only
    exact (.foldl _ (fun s1 _ h1 => (.step (ackFlit_within ..) rfl h1)) (.step (sf_within ..) rfl (.step (setLink_within ..) rfl (.refl _ _))))
  · try dsimp only
    exact (.refl _ _)

theorem takeAckField_eq {s t n ack v₁ s'} (he : takeAckField s t n ack = (s', v₁)) : Within [.regs, .trc, .swc, .brg, .lode, .host, .wtt, .dma, .outbox, .fresh] s s' := by
  have e := takeAckField_within (s := s) (t := t) (n := n) (ack := ack)
  rw [he] at e
  exact e

theorem takeNak_within {s t n q} : Within [.regs, .lode] s (takeNak s t n q) := by
  unfold takeNak
  exact (.ite (.step (setLink_within ..) rfl (.refl _ _)) (.step (cf_within ..) rfl (.refl _ _)))

theorem takeCredits_within {s t n c total} : Within [.regs, .lode] s (takeCredits s t n c total).1 := by
  unfold takeCredits
  try dsimp only
  split
  · try dsimp only
    exact (.refl _ _)
  · try dsimp only
    exact (.step (sf_within ..) rfl (.step (sf_within ..) rfl (.step (sf_within ..) rfl (.step (setLink_within ..) rfl (.refl _ _)))))

theorem takeCredits_eq {s t n c total v₁ s'} (he : takeCredits s t n c total = (s', v₁)) : Within [.regs, .lode] s s' := by
  have e := takeCredits_within (s := s) (t := t) (n := n) (c := c) (total := total)
  rw [he] at e
  exact e

theorem countMalformed_within {s t n} : Within [.regs, .trc] s (countMalformed s t n) := by
  unfold countMalformed
  exact (.ite (.step (evt_within ..) rfl (.step (cf_within ..) rfl (.refl _ _))) (.refl _ _))

theorem takeLinkMsg_within {s t n m} : Within [.regs, .modes, .core, .mem, .evc, .flt, .trc, .swc, .brg, .lode, .host, .wtt, .ins, .dma, .outbox, .fresh] s (takeLinkMsg s t n m) := by
  unfold takeLinkMsg
  try dsimp only
  split
  · exact (.step (takeLcr_within ..) rfl (.refl _ _))
  · exact (.step (takeAck_within ..) rfl (.refl _ _))
  · exact (.step (takeRefuse_within ..) rfl (.refl _ _))
  · exact (.ite (.step (declareDown_within ..) rfl (.refl _ _)) (.refl _ _))
  · exact (.refl _ _)

theorem answerMalformed_within {s t n p} : Within [.swc, .brg, .lode, .wtt] s (answerMalformed s t n p) := by
  unfold answerMalformed
  exact (.step (rspOwn_within ..) rfl (.refl _ _))

theorem takeWire_within {s t n seq} : Within [.lode] s (takeWire s t n seq).2 := by
  unfold takeWire
  exact (.step (upd_lode ..) rfl (.refl _ _))

theorem takeWire_eq {s t n seq v₁ s'} (he : takeWire s t n seq = (v₁, s')) : Within [.lode] s s' := by
  have e := takeWire_within (s := s) (t := t) (n := n) (seq := seq)
  rw [he] at e
  exact e

theorem intoDone_within {s t} : Within [.regs, .trc, .swc, .brg, .lode, .host, .wtt, .dma, .outbox, .fresh] s (intoDone s t) := by
  unfold intoDone
  exact (.foldl _ (fun s1 _ h1 => (.step (deliver_within ..) rfl h1)) (.step (upd_swc ..) rfl (.refl _ _)))

theorem takeCut_within {s t n g} : Within [.swc, .lode] s (takeCut s t n g) := by
  unfold takeCut
  exact (.ite (.refl _ _) (.ite (.ite (.step (sendIn_within ..) rfl (.step (setLink_within ..) rfl (.refl _ _))) (.refl _ _)) (.ite (.step (mapFrame_within ..) rfl (.refl _ _)) (.refl _ _))))

theorem endCut_within {s t n serial bad} : Within [.regs, .trc, .swc, .brg, .lode, .host, .wtt, .dma, .outbox, .fresh] s (endCut s t n serial bad) := by
  unfold endCut
  exact (.ite (.step (mapFrame_within ..) rfl (.step (setLink_within ..) rfl (.refl _ _))) (.step (intoDone_within ..) rfl (.step (mapFrame_within ..) rfl (.step (setLink_within ..) rfl (.refl _ _)))))

theorem takePacket_within {s t n bytes aborted wire} : Within [.regs, .modes, .core, .mem, .evc, .flt, .trc, .swc, .brg, .lode, .host, .wtt, .ins, .dma, .outbox, .fresh] s (takePacket s t n bytes aborted wire) := by
  have e1 : ∀ {x u b r k}, Within [.regs, .modes, .core, .mem, .evc, .flt, .trc, .swc, .brg, .lode, .host, .wtt, .ins, .dma, .outbox, .fresh] s x → Within [.regs, .modes, .core, .mem, .evc, .flt, .trc, .swc, .brg, .lode, .host, .wtt, .ins, .dma, .outbox, .fresh] s (evt x u b r k) := fun h => .step evt_within rfl h
  have e2 : ∀ {x u o lo k}, Within [.regs, .modes, .core, .mem, .evc, .flt, .trc, .swc, .brg, .lode, .host, .wtt, .ins, .dma, .outbox, .fresh] s x → Within [.regs, .modes, .core, .mem, .evc, .flt, .trc, .swc, .brg, .lode, .host, .wtt, .ins, .dma, .outbox, .fresh] s (cf x u o lo k) := fun h => .step cf_within rfl h
  have e3 : ∀ {x b u}, Within [.regs, .modes, .core, .mem, .evc, .flt, .trc, .swc, .brg, .lode, .host, .wtt, .ins, .dma, .outbox, .fresh] s x → Within [.regs, .modes, .core, .mem, .evc, .flt, .trc, .swc, .brg, .lode, .host, .wtt, .ins, .dma, .outbox, .fresh] s (creditReturn x t n b u) := fun h => .step creditReturn_within rfl h
  have e4 : ∀ {x k b}, Within [.regs, .modes, .core, .mem, .evc, .flt, .trc, .swc, .brg, .lode, .host, .wtt, .ins, .dma, .outbox, .fresh] s x → Within [.regs, .modes, .core, .mem, .evc, .flt, .trc, .swc, .brg, .lode, .host, .wtt, .ins, .dma, .outbox, .fresh] s (endCut x t n k b) := fun h => .step endCut_within rfl h
  have e5 : ∀ {x k}, Within [.regs, .modes, .core, .mem, .evc, .flt, .trc, .swc, .brg, .lode, .host, .wtt, .ins, .dma, .outbox, .fresh] s x → Within [.regs, .modes, .core, .mem, .evc, .flt, .trc, .swc, .brg, .lode, .host, .wtt, .ins, .dma, .outbox, .fresh] s (settle x k) := fun h => .step settle_within rfl h
  have e6 : ∀ {x a b g}, Within [.regs, .modes, .core, .mem, .evc, .flt, .trc, .swc, .brg, .lode, .host, .wtt, .ins, .dma, .outbox, .fresh] s x → Within [.regs, .modes, .core, .mem, .evc, .flt, .trc, .swc, .brg, .lode, .host, .wtt, .ins, .dma, .outbox, .fresh] s (offer x t a b g) := fun h => .step offer_within rfl h
  unfold takePacket
  split
  · exact .refl _ _
  · dsimp only
    refine .ite ?_ (.ite (.step recordFault_within rfl ?_) (.ite ?_ ?_))
    · split
      · exact .ite (e4 (e6 (e1 (e2 (.refl _ _))))) (e5 (e3 (e6 (e1 (e2 (.refl _ _))))))
      · exact e3 (e6 (e1 (e2 (.refl _ _))))
    · split
      · exact .ite (e4 (.ite (e1 (e2 (.refl _ _))) (.refl _ _))) (e5 (e3 (.ite (e1 (e2 (.refl _ _))) (.refl _ _))))
      · exact e3 (.ite (e1 (e2 (.refl _ _))) (.refl _ _))
    · exact .ite (.ite (.step answerMalformed_within rfl (e3 (.step countMalformed_within rfl (.refl _ _))))
        (e3 (.step countMalformed_within rfl (.refl _ _)))) (.step setLink_within rfl (.refl _ _))
    · split
      · exact .ite (e4 (.refl _ _)) (.step sendIn_within rfl (.refl _ _))
      · exact e3 (.refl _ _)

theorem deliverOne_within {l t n ep tot ab fr acc b} {a : State} (hs : Grp.sub [.regs, .modes, .core, .mem, .evc, .flt, .trc, .swc, .brg, .lode, .host, .wtt, .ins, .dma, .outbox, .fresh] l = true)
    (h : Within l a acc.1) : Within l a (deliverOne t n ep tot ab fr acc b).1 := by
  unfold deliverOne
  split
  · exact h
  · split
    · exact (Within.step takeLinkMsg_within rfl (.refl [.regs, .modes, .core, .mem, .evc, .flt, .trc, .swc, .brg, .lode, .host, .wtt, .ins, .dma, .outbox, .fresh] _)).step hs h
    · exact (Within.step takePacket_within rfl (.refl [.regs, .modes, .core, .mem, .evc, .flt, .trc, .swc, .brg, .lode, .host, .wtt, .ins, .dma, .outbox, .fresh] _)).step hs h

theorem deliverAll_within {s t n ab ended fr} : Within [.regs, .modes, .core, .mem, .evc, .flt, .trc, .swc, .brg, .lode, .host, .wtt, .ins, .dma, .outbox, .fresh] s (deliverAll s t n ab ended fr) := by
  unfold deliverAll
  exact .foldlFst _ (fun _ _ h => deliverOne_within rfl h) (.refl _ _)

theorem deliverFlit_within {s t n f} : Within [.regs, .modes, .core, .mem, .evc, .flt, .trc, .swc, .brg, .lode, .host, .wtt, .ins, .dma, .outbox, .fresh] s (deliverFlit s t n f).1 := by
  have e : ∀ x : State, Within [.regs, .modes, .core, .mem, .evc, .flt, .trc, .swc, .brg, .lode, .host, .wtt, .ins, .dma, .outbox, .fresh] s x → Within [.regs, .modes, .core, .mem, .evc, .flt, .trc, .swc, .brg, .lode, .host, .wtt, .ins, .dma, .outbox, .fresh] s (if 8 ≤ n then takeWire x t n f.seq else ([], x)).2 := by
    intro x h
    split
    · exact .step takeWire_within rfl h
    · exact h
  have b : ∀ x o v, Within [.regs, .modes, .core, .mem, .evc, .flt, .trc, .swc, .brg, .lode, .host, .wtt, .ins, .dma, .outbox, .fresh] s (sf (setLink s t n x) t o 16 12 v) :=
    fun _ _ _ => .step sf_within rfl (.step setLink_within rfl (.refl _ _))
  unfold deliverFlit
  dsimp only
  split
  · exact .ite (.step evt_within rfl (b _ _ _)) (b _ _ _)
  · split
    · exact b _ _ _
    · split
      · exact .ite (.step takeCut_within rfl (.step deliverAll_within rfl (e _ (b _ _ _)))) (.step deliverAll_within rfl (e _ (b _ _ _)))
      · exact .step deliverAll_within rfl (e _ (b _ _ _))

theorem deliverFlit_eq {s t n f s' x} (he : deliverFlit s t n f = (s', x)) : Within [.regs, .modes, .core, .mem, .evc, .flt, .trc, .swc, .brg, .lode, .host, .wtt, .ins, .dma, .outbox, .fresh] s s' := by
  have e := deliverFlit_within (s := s) (t := t) (n := n) (f := f)
  rw [he] at e
  exact e

theorem drainReorder_within {s t n ep k} : Within [.regs, .modes, .core, .mem, .evc, .flt, .trc, .swc, .brg, .lode, .host, .wtt, .ins, .dma, .outbox, .fresh] s (drainReorder s t n ep k).1 := by
  induction k generalizing s with
  | zero => exact .refl _ _
  | succ k ih =>
    unfold drainReorder
    try dsimp only
    split
    · exact .refl _ _
    · split
      · exact .step (deliverFlit_eq (by assumption)) rfl (.step setLink_within rfl (.refl _ _))
      · split
        · exact .step (deliverFlit_eq (by assumption)) rfl (.step setLink_within rfl (.refl _ _))
        · exact .trans (.step (deliverFlit_eq (by assumption)) rfl (.step setLink_within rfl (.refl _ _))) ih

theorem drainReorder_eq {s t n ep k s' b} (h : drainReorder s t n ep k = (s', b)) : Within [.regs, .modes, .core, .mem, .evc, .flt, .trc, .swc, .brg, .lode, .host, .wtt, .ins, .dma, .outbox, .fresh] s s' := by
  have e := drainReorder_within (s := s) (t := t) (n := n) (ep := ep) (k := k)
  rw [h] at e
  exact e

theorem reorderCount_within {s t n} : Within [.regs] s (reorderCount s t n) := by
  unfold reorderCount
  exact (.step (sf_within ..) rfl (.refl _ _))

theorem takeData_within {s t n h payload} : Within [.regs, .modes, .core, .mem, .evc, .flt, .trc, .swc, .brg, .lode, .host, .wtt, .ins, .dma, .outbox, .fresh] s (takeData s t n h payload).1 := by
  unfold takeData
  try dsimp only
  split
  · try dsimp only
    try dsimp only
    split
    · try dsimp only
      exact (.step (cf_within ..) rfl (.refl _ _))
    · try dsimp only
      exact (.refl _ _)
  · try dsimp only
    try dsimp only
    split
    · try dsimp only
      try dsimp only
      split
      · try dsimp only
        exact (.step (deliverFlit_eq (by assumption)) rfl (.step (markSeen_within ..) rfl (.refl _ _)))
      · try dsimp only
        try dsimp only
        split
        · try dsimp only
          exact (.step (deliverFlit_eq (by assumption)) rfl (.step (markSeen_within ..) rfl (.refl _ _)))
        · try dsimp only
          try dsimp only
          split
          · try dsimp only
            exact (.step (drainReorder_eq (by assumption)) rfl (.step (deliverFlit_eq (by assumption)) rfl (.step (markSeen_within ..) rfl (.refl _ _))))
          · try dsimp only
            exact (.ite (.step (reorderCount_within ..) rfl (.step (drainReorder_eq (by assumption)) rfl (.step (deliverFlit_eq (by assumption)) rfl (.step (markSeen_within ..) rfl (.refl _ _))))) (.step (drainReorder_eq (by assumption)) rfl (.step (deliverFlit_eq (by assumption)) rfl (.step (markSeen_within ..) rfl (.refl _ _)))))
    · try dsimp only
      try dsimp only
      split
      · try dsimp only
        exact (.step (cf_within ..) rfl (.step (markSeen_within ..) rfl (.refl _ _)))
      · try dsimp only
        exact (.step (reorderCount_within ..) rfl (.step (setLink_within ..) rfl (.step (markSeen_within ..) rfl (.refl _ _))))

theorem takeData_eq {s t n h payload v₁ s'} (he : takeData s t n h payload = (s', v₁)) : Within [.regs, .modes, .core, .mem, .evc, .flt, .trc, .swc, .brg, .lode, .host, .wtt, .ins, .dma, .outbox, .fresh] s s' := by
  have e := takeData_within (s := s) (t := t) (n := n) (h := h) (payload := payload)
  rw [he] at e
  exact e

theorem takeCodewords.cwCount_within {t n s o} : Within [.regs] s (takeCodewords.cwCount t n s o) := by
  unfold takeCodewords.cwCount
  exact .step (wreg_within ..) rfl (.refl _ _)

theorem takeCodewords_within {s t n l} : Within [.regs, .trc, .lode] s (takeCodewords s t n l) := by
  unfold takeCodewords
  refine .ite ?_ ?_
  · exact (.refl _ _)
  · refine .foldl _ (fun s1 _ h1 => ?_) ?_
    · refine .ite ?_ ?_
      · refine .step (loseLock_within ..) rfl ?_
        refine .step (setLink_within ..) rfl ?_
        try dsimp only
        split
        · exact h1
        · exact (.step (takeCodewords.cwCount_within ..) rfl h1)
        · exact (.step (takeCodewords.cwCount_within ..) rfl h1)
      · refine .step (setLink_within ..) rfl ?_
        try dsimp only
        split
        · exact h1
        · exact (.step (takeCodewords.cwCount_within ..) rfl h1)
        · exact (.step (takeCodewords.cwCount_within ..) rfl h1)
    · exact (.refl _ _)

theorem flitTake_within {s t n codewords bytes} : Within [.regs, .modes, .core, .mem, .evc, .flt, .trc, .swc, .brg, .lode, .host, .wtt, .ins, .dma, .outbox, .fresh] s (flitTake s t n codewords bytes) := by
  unfold flitTake
  refine .ite ?_ ?_
  · exact (.ite (.ite (.step (loseLock_within ..) rfl (.step (cf_within ..) rfl (.step (takeCodewords_within ..) rfl (.refl _ _)))) (.step (setLink_within ..) rfl (.step (cf_within ..) rfl (.step (takeCodewords_within ..) rfl (.refl _ _))))) (.step (cf_within ..) rfl (.step (takeCodewords_within ..) rfl (.refl _ _))))
  · refine .ite ?_ ?_
    · exact (.step (takeCodewords_within ..) rfl (.refl _ _))
    · refine .ite ?_ ?_
      · exact (.step (stf_within ..) rfl (.step (setLink_within ..) rfl (.step (takeCodewords_within ..) rfl (.refl _ _))))
      · try dsimp only
        split
        · exact (.step (protoError_within ..) rfl (.step (takeAckField_eq (by assumption)) rfl (.step (setLink_within ..) rfl (.step (takeCodewords_within ..) rfl (.refl _ _)))))
        · try dsimp only
          split
          · refine .step (protoError_within ..) rfl ?_
            refine .step (takeCredits_eq (by assumption)) rfl ?_
            try dsimp only
            split
            · exact (.step (takeNak_within ..) rfl (.step (takeAckField_eq (by assumption)) rfl (.step (setLink_within ..) rfl (.step (takeCodewords_within ..) rfl (.refl _ _)))))
            · exact (.step (takeAckField_eq (by assumption)) rfl (.step (setLink_within ..) rfl (.step (takeCodewords_within ..) rfl (.refl _ _))))
          · refine .ite ?_ ?_
            · refine .step (markSeen_within ..) rfl ?_
              refine .ite ?_ ?_
              · refine .step (setLink_within ..) rfl ?_
                refine .step (takeCredits_eq (by assumption)) rfl ?_
                try dsimp only
                split
                · exact (.step (takeNak_within ..) rfl (.step (takeAckField_eq (by assumption)) rfl (.step (setLink_within ..) rfl (.step (takeCodewords_within ..) rfl (.refl _ _)))))
                · exact (.step (takeAckField_eq (by assumption)) rfl (.step (setLink_within ..) rfl (.step (takeCodewords_within ..) rfl (.refl _ _))))
              · refine .step (takeCredits_eq (by assumption)) rfl ?_
                try dsimp only
                split
                · exact (.step (takeNak_within ..) rfl (.step (takeAckField_eq (by assumption)) rfl (.step (setLink_within ..) rfl (.step (takeCodewords_within ..) rfl (.refl _ _)))))
                · exact (.step (takeAckField_eq (by assumption)) rfl (.step (setLink_within ..) rfl (.step (takeCodewords_within ..) rfl (.refl _ _))))
            · try dsimp only
              split
              · refine .step (protoError_within ..) rfl ?_
                refine .step (takeData_eq (by assumption)) rfl ?_
                refine .ite ?_ ?_
                · refine .step (setLink_within ..) rfl ?_
                  refine .step (takeCredits_eq (by assumption)) rfl ?_
                  try dsimp only
                  split
                  · exact (.step (takeNak_within ..) rfl (.step (takeAckField_eq (by assumption)) rfl (.step (setLink_within ..) rfl (.step (takeCodewords_within ..) rfl (.refl _ _)))))
                  · exact (.step (takeAckField_eq (by assumption)) rfl (.step (setLink_within ..) rfl (.step (takeCodewords_within ..) rfl (.refl _ _))))
                · refine .step (takeCredits_eq (by assumption)) rfl ?_
                  try dsimp only
                  split
                  · exact (.step (takeNak_within ..) rfl (.step (takeAckField_eq (by assumption)) rfl (.step (setLink_within ..) rfl (.step (takeCodewords_within ..) rfl (.refl _ _)))))
                  · exact (.step (takeAckField_eq (by assumption)) rfl (.step (setLink_within ..) rfl (.step (takeCodewords_within ..) rfl (.refl _ _))))
              · refine .step (takeData_eq (by assumption)) rfl ?_
                refine .ite ?_ ?_
                · refine .step (setLink_within ..) rfl ?_
                  refine .step (takeCredits_eq (by assumption)) rfl ?_
                  try dsimp only
                  split
                  · exact (.step (takeNak_within ..) rfl (.step (takeAckField_eq (by assumption)) rfl (.step (setLink_within ..) rfl (.step (takeCodewords_within ..) rfl (.refl _ _)))))
                  · exact (.step (takeAckField_eq (by assumption)) rfl (.step (setLink_within ..) rfl (.step (takeCodewords_within ..) rfl (.refl _ _))))
                · refine .step (takeCredits_eq (by assumption)) rfl ?_
                  try dsimp only
                  split
                  · exact (.step (takeNak_within ..) rfl (.step (takeAckField_eq (by assumption)) rfl (.step (setLink_within ..) rfl (.step (takeCodewords_within ..) rfl (.refl _ _)))))
                  · exact (.step (takeAckField_eq (by assumption)) rfl (.step (setLink_within ..) rfl (.step (takeCodewords_within ..) rfl (.refl _ _))))

theorem nakTimer_within {s t n q} : Within [.lode] s (nakTimer s t n q) := by
  unfold nakTimer
  exact (.ite (.step (setLink_within ..) rfl (.refl _ _)) (.refl _ _))

theorem replayTimer_within {s t n} : Within [.lode] s (replayTimer s t n) := by
  unfold replayTimer
  try dsimp only
  split
  · exact (.ite (.refl _ _) (.step (setLink_within ..) rfl (.refl _ _)))
  · exact (.refl _ _)

end Sys2Proof.Laws
end

