-- ==== Sys2Proof/Laws/FrameLtp.lean ====
section
/-! SUPPORT. What the operations of Machine/Ltp.lean may change: one lemma for each. -/

namespace Sys2Proof.Laws

open Sys2Proof Sys2Proof.Machine

theorem takeRx_eq {s t n p r s'} (h : takeRx s t n p = some (r, s')) : Within [.lode] s s' := by
  unfold takeRx at h
  try dsimp only at h
  split at h
  · cases h
  · split at h
    · cases h
      exact .step setLink_within rfl (.refl _ _)
    · cases h

theorem localRead_within {s u off t n} : Within [.evc] s (localRead s u off t n).2 := by
  unfold localRead
  try dsimp only
  split
  · try dsimp only
    exact (.step (pendRead_within ..) rfl (.refl _ _))
  · try dsimp only
    try dsimp only
    split
    · try dsimp only
      exact (.refl _ _)
    · try dsimp only
      try dsimp only
      split
      · try dsimp only
        exact (.refl _ _)
      · try dsimp only
        try dsimp only
        split
        · try dsimp only
          exact (.refl _ _)
        · try dsimp only
          exact (.refl _ _)

theorem localRead_eq {s u off t n v₁ s'} (he : localRead s u off t n = (v₁, s')) : Within [.evc] s s' := by
  have e := localRead_within (s := s) (u := u) (off := off) (t := t) (n := n)
  rw [he] at e
  exact e

theorem reservedWrite_within {s t off} : Within [.regs] s (reservedWrite s t off) := by
  unfold reservedWrite
  exact (.step (wreg_within ..) rfl (.step (cf_within ..) rfl (.refl _ _)))

theorem localWrite_within {s u off t n v} : Within [.regs, .evc] s (localWrite s u off t n v) := by
  unfold localWrite
  exact (.ite (.step (pendWrite_within ..) rfl (.refl _ _)) (.ite (.step (maskWrite_within ..) rfl (.refl _ _)) (.ite (.step (lostWrite_within ..) rfl (.refl _ _)) (.ite (.ite (.step (cf_within ..) rfl (.refl _ _)) (.ite (.ite (.refl _ _) (.step (targetDone_within ..) rfl (.refl _ _))) (.refl _ _))) (.step (reservedWrite_within ..) rfl (.refl _ _))))))

theorem upEcc_within {s p e} : Within [.regs, .modes, .core, .mem, .evc, .flt, .trc, .swc, .brg, .lode, .host, .wtt, .ins, .dma, .outbox, .fresh] s (upEcc s p e) := by
  unfold upEcc
  exact (.step (wttEcc_within ..) rfl (.ite (.step (tickFresh_within ..) rfl (.refl _ _)) (.refl _ _)))

theorem takeWr_within {s t n e} : Within [.regs, .modes, .core, .mem, .evc, .flt, .trc, .swc, .brg, .lode, .host, .wtt, .ins, .dma, .outbox, .fresh] s (takeWr s t n e) := by
  unfold takeWr
  try dsimp only
  split
  · exact (.refl _ _)
  · refine .ite ?_ ?_
    · refine .ite ?_ ?_
      · try dsimp only
        exact (.step (enter_within ..) rfl (.step (newSerial_within ..) rfl (.step (takeRx_eq (by assumption)) rfl (.refl _ _))))
      · exact (.step (creditReturn_within ..) rfl (.step (cf_within ..) rfl (.step (takeRx_eq (by assumption)) rfl (.refl _ _))))
    · try dsimp only
      split
      · exact (.step (creditReturn_within ..) rfl (.step (cf_within ..) rfl (.step (takeRx_eq (by assumption)) rfl (.refl _ _))))
      · exact (.step (creditReturn_within ..) rfl (.step (cf_within ..) rfl (.step (takeRx_eq (by assumption)) rfl (.refl _ _))))
      · exact (.step (creditReturn_within ..) rfl (.step (upEcc_within ..) rfl (.step (miss_within ..) rfl (.step (takeRx_eq (by assumption)) rfl (.refl _ _)))))
      · try dsimp only
        exact (.step (enter_within ..) rfl (.step (logWrite_within ..) rfl (.step (notePosted_within ..) rfl (.step (newSerial_within ..) rfl (.step (upEcc_within ..) rfl (.step (takeRx_eq (by assumption)) rfl (.refl _ _)))))))

theorem takeRd_within {s t n} : Within [.regs, .trc, .swc, .brg, .lode, .wtt] s (takeRd s t n) := by
  unfold takeRd
  try dsimp only
  split
  · exact (.refl _ _)
  · exact (.ite (.step (answerMalformed_within ..) rfl (.step (creditReturn_within ..) rfl (.step (countMalformed_within ..) rfl (.step (takeRx_eq (by assumption)) rfl (.refl _ _))))) (.ite (.step (evt_within ..) rfl (.step (setLink_within ..) rfl (.step (takeRx_eq (by assumption)) rfl (.refl _ _)))) (.step (setLink_within ..) rfl (.step (takeRx_eq (by assumption)) rfl (.refl _ _)))))

theorem answerHeld_within {s t n k p status} : Within [.swc, .brg, .lode, .wtt] s (answerHeld s t n k p status) := by
  unfold answerHeld
  exact (.step (rspOwn_within ..) rfl (.refl _ _))

theorem sendHeld_within {s t n k h f a p} : Within [.swc, .brg, .lode, .wtt] s (sendHeld s t n k h f a p) := by
  unfold sendHeld
  refine .foldl _ (fun s1 _ h1 => ?_) ?_
  · try dsimp only
    exact (.step (enter_within ..) rfl (.step (newSerial_within ..) rfl h1))
  · exact (.step (setHeld_within ..) rfl (.refl _ _))

theorem takeSlot_within {s t n e} : Within [.regs, .modes, .core, .mem, .evc, .flt, .trc, .swc, .brg, .lode, .host, .wtt, .ins, .dma, .outbox, .fresh] s (takeSlot s t n e) := by
  unfold takeSlot
  try dsimp only
  split
  · refine .ite ?_ ?_
    · refine .ite ?_ ?_
      · try dsimp only
        exact (.step (enter_within ..) rfl (.step (newSerial_within ..) rfl (.step (heldCount_within ..) rfl (.step (setHeld_within ..) rfl (.step (creditReturn_within ..) rfl (.step (setLink_within ..) rfl (.refl _ _)))))))
      · exact (.step (answerHeld_within ..) rfl (.step (heldCount_within ..) rfl (.step (setHeld_within ..) rfl (.step (creditReturn_within ..) rfl (.step (setLink_within ..) rfl (.refl _ _))))))
    · try dsimp only
      split
      · exact (.step (answerHeld_within ..) rfl (.step (upEcc_within ..) rfl (.step (miss_within ..) rfl (.step (heldCount_within ..) rfl (.step (setHeld_within ..) rfl (.step (creditReturn_within ..) rfl (.step (setLink_within ..) rfl (.refl _ _))))))))
      · exact (.step (answerHeld_within ..) rfl (.step (heldCount_within ..) rfl (.step (setHeld_within ..) rfl (.step (creditReturn_within ..) rfl (.step (setLink_within ..) rfl (.refl _ _))))))
      · exact (.step (sendHeld_within ..) rfl (.step (upEcc_within ..) rfl (.step (heldCount_within ..) rfl (.step (setHeld_within ..) rfl (.step (creditReturn_within ..) rfl (.step (setLink_within ..) rfl (.refl _ _)))))))
  · exact (.refl _ _)

theorem readHeld_within {s t n} : Within [.regs, .outbox] s (readHeld s t n) := by
  unfold readHeld
  exact (.step (emit_within ..) rfl (.step (sf_within ..) rfl (.refl _ _)))

theorem takeEvent_within {s t n opx} : Within [.regs, .evc, .trc, .swc, .brg, .lode, .host] s (takeEvent s t n opx) := by
  unfold takeEvent
  try dsimp only
  split
  · exact (.refl _ _)
  · exact (.step (holdOr_within ..) rfl (.step (creditReturn_within ..) rfl (.step (takeRx_eq (by assumption)) rfl (.refl _ _))))

theorem lockTaken_within {s t n} : Within [.regs, .swc, .brg, .lode] s (lockTaken s t n) := by
  unfold lockTaken
  try dsimp only
  split
  · exact (.refl _ _)
  · exact (.ite (.step (setLock_within ..) rfl (.refl _ _)) (.step (sendLockEnd_within ..) rfl (.step (purge_within ..) rfl (.step (setLock_within ..) rfl (.refl _ _)))))

theorem forwardRsp_within {s t n r p st units} : Within [.regs, .trc, .swc, .brg, .lode, .host, .wtt, .dma, .outbox, .fresh] s (forwardRsp s t n r p st units) := by
  unfold forwardRsp
  try dsimp only
  try dsimp only
  split
  · exact (.step (enterAfter_within ..) rfl (.step (newSerial_within ..) rfl (.refl _ _)))
  · exact (.step (enterAfter_within ..) rfl (.step (newSerial_within ..) rfl (.refl _ _)))
  · exact (.step (enter_within ..) rfl (.step (newSerial_within ..) rfl (.refl _ _)))
  · exact (.step (answer_within ..) rfl (.step (creditReturn_within ..) rfl (.step (newSerial_within ..) rfl (.refl _ _))))

theorem lateRsp_within {s t n} : Within [.regs, .trc] s (lateRsp s t n) := by
  unfold lateRsp
  exact (.step (evt_within ..) rfl (.step (cf_within ..) rfl (.refl _ _)))

theorem takeRsp_within {s t n} : Within [.regs, .trc, .swc, .brg, .lode, .host, .wtt, .dma, .outbox, .fresh] s (takeRsp s t n) := by
  unfold takeRsp
  try dsimp only
  split
  · exact (.refl _ _)
  · try dsimp only
    split
    · exact (.step (lateRsp_within ..) rfl (.step (creditReturn_within ..) rfl (.step (endQuarantine_within ..) rfl (.step (ltpTags_within ..) rfl (.step (upd_lode ..) rfl (.step (takeRx_eq (by assumption)) rfl (.refl _ _)))))))
    · refine .ite ?_ ?_
      · exact (.step (lateRsp_within ..) rfl (.step (creditReturn_within ..) rfl (.step (upd_lode ..) rfl (.step (takeRx_eq (by assumption)) rfl (.refl _ _)))))
      · try dsimp only
        split
        · exact (.step (countMalformed_within ..) rfl (.step (creditReturn_within ..) rfl (.step (takeRx_eq (by assumption)) rfl (.refl _ _))))
        · try dsimp only
          try dsimp only
          split
          · exact (.ite (.step (lockTaken_within ..) rfl (.step (uncross_within ..) rfl (.step (creditReturn_within ..) rfl (.ite (.step (cf_within ..) rfl (.step (ltpTags_within ..) rfl (.step (upd_lode ..) rfl (.step (takeRx_eq (by assumption)) rfl (.refl _ _))))) (.step (ltpTags_within ..) rfl (.step (upd_lode ..) rfl (.step (takeRx_eq (by assumption)) rfl (.refl _ _)))))))) (.step (answer_within ..) rfl (.step (creditReturn_within ..) rfl (.ite (.step (cf_within ..) rfl (.step (ltpTags_within ..) rfl (.step (upd_lode ..) rfl (.step (takeRx_eq (by assumption)) rfl (.refl _ _))))) (.step (ltpTags_within ..) rfl (.step (upd_lode ..) rfl (.step (takeRx_eq (by assumption)) rfl (.refl _ _))))))))
          · exact (.step (forwardRsp_within ..) rfl (.ite (.step (cf_within ..) rfl (.step (ltpTags_within ..) rfl (.step (upd_lode ..) rfl (.step (takeRx_eq (by assumption)) rfl (.refl _ _))))) (.step (ltpTags_within ..) rfl (.step (upd_lode ..) rfl (.step (takeRx_eq (by assumption)) rfl (.refl _ _))))))

theorem rspTimeout_within {s t n tag} : Within [.regs, .trc, .swc, .brg, .lode, .host, .wtt, .dma, .outbox, .fresh] s (rspTimeout s t n tag) := by
  unfold rspTimeout
  try dsimp only
  split
  · exact (.refl _ _)
  · exact (.step (answer_within ..) rfl (.step (evt_within ..) rfl (.step (cf_within ..) rfl (.step (ltpTags_within ..) rfl (.step (upd_lode ..) rfl (.refl _ _))))))

theorem lockBegin_within {s t n} : Within [.regs, .trc, .swc, .brg, .lode] s (lockBegin s t n) := by
  unfold lockBegin
  try dsimp only
  split
  · try dsimp only
    try dsimp only
    split
    · refine .ite ?_ ?_
      · try dsimp only
        exact (.step (enqueue_within ..) rfl (.step (storeFrame_within ..) rfl (.step (setLock_within ..) rfl (.step (newSerial_within ..) rfl (.refl _ _)))))
      · exact (.refl _ _)
    · exact (.refl _ _)
  · exact (.refl _ _)

theorem lockExpiry_within {s t n} : Within [.regs, .trc, .swc, .brg, .lode, .host, .wtt, .dma, .outbox, .fresh] s (lockExpiry s t n) := by
  unfold lockExpiry
  try dsimp only
  split
  · exact (.refl _ _)
  · exact (.step (answer_within ..) rfl (.step (cf_within ..) rfl (.step (cancelLocked_within ..) rfl (.refl _ _))))

end Sys2Proof.Laws
end

