-- ==== Sys2Proof/Laws/FrameFault.lean ====
section
/-! SUPPORT. What the operations of Machine/Fault.lean may change: one lemma for each. -/

namespace Sys2Proof.Laws

open Sys2Proof Sys2Proof.Machine

theorem faultService_within {s t} : Within [.regs, .evc, .trc] s (faultService s t) := by
  unfold faultService
  refine .ite ?_ ?_
  · exact (.refl _ _)
  · try dsimp only
    split
    · exact (.refl _ _)
    · exact (.step (targetDone_within ..) rfl (.step (evcRefresh_within ..) rfl (.foldl _ (fun s1 _ h1 => (.step (wreg_within ..) rfl (.foldl _ (fun s2 _ h2 => (.ite (.step (alarm_within ..) rfl h2) h2)) h1))) (.step (upd_evc ..) rfl (.refl _ _)))))

theorem faultAck_within {s t b bits} : Within [.regs, .flt] s (faultAck s t b bits) := by
  unfold faultAck
  exact (.step (upd_flt ..) rfl (.step (wreg_within ..) rfl (.refl _ _)))

theorem expireB_within {s t b i} : Within [.regs, .mem, .flt, .trc, .swc, .brg, .lode, .host, .wtt, .ins, .dma, .outbox, .fresh] s (expireB s t b i) := by
  unfold expireB
  refine .ite ?_ ?_
  · exact (.refl _ _)
  · try dsimp only
    split
    · exact (.refl _ _)
    · exact (.step (startReset_within ..) rfl (.step (upd_flt ..) rfl (.step (recordFaultRec_within ..) rfl (.step (cf_within ..) rfl (.refl _ _)))))

theorem expireC_within {s t b} : Within [.regs, .modes, .core, .mem, .evc, .flt, .trc, .swc, .brg, .lode, .host, .wtt, .ins, .dma, .outbox, .fresh] s (expireC s t b) := by
  unfold expireC
  refine .ite ?_ ?_
  · exact (.refl _ _)
  · try dsimp only
    split
    · exact (.refl _ _)
    · exact (.step (fenceBy_within ..) rfl (.step (upd_flt ..) rfl (.refl _ _)))

theorem dumpStart_within {s} : Within [.regs, .mem, .flt, .trc, .fresh] s (dumpStart s) := by
  unfold dumpStart
  refine .ite ?_ ?_
  · exact (.refl _ _)
  · try dsimp only
    split
    · exact (.refl _ _)
    · try dsimp only
      split
      · exact (.step (alarm_within ..) rfl (.step (sf_within ..) rfl (.step (upd_flt ..) rfl (.refl _ _))))
      · exact (.step (sf_within ..) rfl (.step (sf_within ..) rfl (.step (upd_flt ..) rfl (.step (tickFresh_within ..) rfl (.step (flashWrite_within ..) rfl (.step (flashErase_within ..) rfl (.step (upd_flt ..) rfl (.refl _ _))))))))

theorem dumpNext_within {s} : Within [.regs, .flt] s (dumpNext s) := by
  unfold dumpNext
  exact (.step (sf_within ..) rfl (.step (upd_flt ..) rfl (.refl _ _)))

theorem dumpFinish_within {s} : Within [.regs, .mem, .flt] s (dumpFinish s) := by
  unfold dumpFinish
  try dsimp only
  split
  · exact (.refl _ _)
  · exact (.step (dumpNext_within ..) rfl (.step (wreg_within ..) rfl (.step (sf_within ..) rfl (.step (sf_within ..) rfl (.step (sf_within ..) rfl (.step (flashWrite_within ..) rfl (.step (flashWrite_within ..) rfl (.foldl _ (fun s1 _ h1 => (.step (flashWrite_within ..) rfl h1)) (.refl _ _)))))))))

theorem dumpFree_within {s k} : Within [.regs, .mem] s (dumpFree s k) := by
  unfold dumpFree
  exact (.ite (.step (sf_within ..) rfl (.step (flashWrite_within ..) rfl (.refl _ _))) (.refl _ _))

theorem faultSummary_within {s t b} : Within [.regs, .mem, .flt, .trc] s (faultSummary s t b) := by
  unfold faultSummary
  exact (.ite (.refl _ _) (.step (trcEvent_within ..) rfl (.step (cf_within ..) rfl (.step (alarm_within ..) rfl (.step (upd_flt ..) rfl (.step (recordPut_within ..) rfl (.refl _ _)))))))

theorem causeFound_within {s t b c inst detail} : Within [.regs, .trc, .ins] s (causeFound s t b c inst detail) := by
  unfold causeFound
  try dsimp only
  split
  · exact (.step (evt_within ..) rfl (.step (cf_within ..) rfl (.refl _ _)))
  · exact (.step (evt_within ..) rfl (.step (cf_within ..) rfl (.refl _ _)))
  · exact (.step (evt_within ..) rfl (.step (cf_within ..) rfl (.refl _ _)))
  · exact (.step (sf_within ..) rfl (.step (upd_ins ..) rfl (.refl _ _)))
  · exact (.refl _ _)

end Sys2Proof.Laws
end

