-- ==== Sys2Proof/Laws/FrameModes.lean ====
section
/-! SUPPORT. What the operations of Machine/Modes.lean may change: one lemma for each. -/

namespace Sys2Proof.Laws

open Sys2Proof Sys2Proof.Machine

theorem modeCmd_within {s t c} : Within [.regs, .core] s (modeCmd s t c) := by
  unfold modeCmd
  exact (.ite (.refl _ _) (.step (sf_within ..) rfl (.step (setTile_within ..) rfl (.refl _ _))))

theorem wakeMessages_within {s t} : Within [.evc] s (wakeMessages s t) := by
  unfold wakeMessages
  exact (.foldl _ (fun s1 _ h1 => (.step (retryPba_within ..) rfl h1)) (.refl _ _))

theorem modeDone_within {s t} : Within [.regs, .modes, .core, .evc, .trc] s (modeDone s t) := by
  unfold modeDone
  try dsimp only
  split
  · exact (.refl _ _)
  · try dsimp only
    split
    · exact (.step (sf_within ..) rfl (.step (sf_within ..) rfl (.step (setTile_within ..) rfl (.refl _ _))))
    · exact (.step (wakeMessages_within ..) rfl (.step (setMode_within ..) rfl (.step (sf_within ..) rfl (.step (sf_within ..) rfl (.step (setTile_within ..) rfl (.refl _ _))))))

theorem testStart_within {s t code ports} : Within [.regs, .core] s (testStart s t code ports) := by
  unfold testStart
  exact (.ite (.refl _ _) (.step (wreg_within ..) rfl (.step (setTile_within ..) rfl (.step (wreg_within ..) rfl (.refl _ _)))))

theorem testEnd_within {s t errors failed} : Within [.regs, .core] s (testEnd s t errors failed) := by
  unfold testEnd
  exact (.step (wreg_within ..) rfl (.step (setTile_within ..) rfl (.refl _ _)))

theorem testStop_within {s t errors failed} : Within [.regs, .core] s (testStop s t errors failed) := by
  unfold testStop
  try dsimp only
  split
  · exact (.ite (.refl _ _) (.step (testEnd_within ..) rfl (.step (sf_within ..) rfl (.refl _ _))))
  · exact (.refl _ _)

theorem bistMem_within {s t} : Within [.trc, .lode, .host, .wtt, .ins, .dma] s (bistMem s t) :=
  ⟨fun g hg => by cases g <;> first | rfl | exact absurd hg (by decide),
    ⟨rfl, fun _ => .refl _, rfl, rfl, List.prefix_rfl, Nat.le_refl _, Nat.le_refl _, Nat.le_refl _, fun _ h => h, id, id⟩⟩

theorem bistHost_within {s t} : Within [.host] s (bistHost s t) := by
  unfold bistHost
  exact (.step (upd_host ..) rfl (.refl _ _))

theorem bistFrames_within {s t} : Within [.regs, .trc, .swc, .brg, .lode, .host, .wtt, .dma, .outbox, .fresh] s (bistFrames s t) := by
  unfold bistFrames
  refine .foldl _ (fun s1 _ h1 => ?_) ?_
  · exact (.step (lostWhole_within ..) rfl h1)
  · refine .step (purge_within ..) rfl ?_
    exact ⟨fun g hg => by cases g <;> first | rfl | exact absurd hg (by decide), ⟨rfl, fun _ => .refl _, rfl, rfl, List.prefix_rfl, Nat.le_refl _, Nat.le_refl _, Nat.le_refl _, fun _ h => h, id, id⟩⟩

theorem bistClear_within {s t} : Within [.regs, .evc, .trc, .swc, .brg, .lode, .host, .wtt, .ins, .dma, .outbox, .fresh] s (bistClear s t) := by
  unfold bistClear
  exact (.step (evcRefresh_within ..) rfl (.ite (.step (wreg_within ..) rfl (.step (wreg_within ..) rfl (.step (stageRefresh_within ..) rfl (.step (tagsRefresh_within ..) rfl (.step (bistMem_within ..) rfl (.step (evcClear_within ..) rfl (.step (bistHost_within ..) rfl (.step (bistFrames_within ..) rfl (.foldl _ (fun s1 _ h1 => (.step (unbindInst_within ..) rfl h1)) (.refl _ _)))))))))) (.step (applyEvc_within ..) rfl (.step (wreg_within ..) rfl (.step (wreg_within ..) rfl (.step (stageRefresh_within ..) rfl (.step (tagsRefresh_within ..) rfl (.step (bistMem_within ..) rfl (.step (evcClear_within ..) rfl (.step (bistHost_within ..) rfl (.step (bistFrames_within ..) rfl (.foldl _ (fun s2 _ h2 => (.step (unbindInst_within ..) rfl h2)) (.refl _ _)))))))))))))

theorem bistDone_within {s t errors} : Within [.regs, .core, .evc, .trc, .swc, .brg, .lode, .host, .wtt, .ins, .dma, .outbox, .fresh] s (bistDone s t errors) := by
  unfold bistDone
  try dsimp only
  split
  · exact (.ite (.step (testEnd_within ..) rfl (.step (bistClear_within ..) rfl (.refl _ _))) (.refl _ _))
  · exact (.refl _ _)

theorem startLocals_within {s t} : Within [.regs] s (startLocals s t) := by
  unfold startLocals
  exact (.foldl _ (fun s1 _ h1 => (.ite (.step (setLinkState_within ..) rfl h1) h1)) (.refl _ _))

theorem startHosts_within {s t} : Within [.regs] s (startHosts s t) := by
  unfold startHosts
  exact (.foldl _ (fun s1 _ h1 => (.ite (.step (setHls_within ..) rfl h1) h1)) (.refl _ _))

theorem bareState_modes (s : State) (t : Nat) : ModeMoves (Tbl.get 0 s.modes t) (Tbl.get 0 (bareState s).modes t) := by
  have key : ∀ m : Tbl Word, (Tbl.find? (m.map (fun e => (e.1, setFld e.2 16 8 0))) t) = (Tbl.find? m t).map (fun w => setFld w 16 8 0) := by
    intro m
    induction m with
    | nil => rfl
    | cons e r ih =>
      simp only [List.map_cons, Tbl.find?]
      split
      · rfl
      · exact ih
  show ModeMoves (Tbl.get 0 s.modes t) (Tbl.get 0 (s.modes.map (fun e => (e.1, setFld e.2 16 8 0))) t)
  unfold Tbl.get
  rw [key]
  cases Tbl.find? s.modes t with
  | none => exact .refl _
  | some w => exact .held (.refl _)

theorem bareState_within {s} : Within [.regs, .modes, .core, .bus, .evc, .flt, .trc, .swc, .brg, .lode, .host, .wtt, .ins, .dma, .str, .age, .gal, .pwr] s (bareState s) :=
  ⟨fun g hg => by cases g <;> first | rfl | exact absurd hg (by decide),
    ⟨rfl, bareState_modes s, rfl, rfl, List.prefix_rfl, Nat.le_refl _, Nat.le_refl _, Nat.le_refl _, fun _ h => h, fun _ => rfl, id⟩⟩

theorem keepBits_within {old s t off m} : Within [.regs] s (keepBits old s t off m) := wreg_within ..

theorem keepPlaces_within {old s bits} : Within [.regs] s (keepPlaces old s bits) := by
  unfold keepPlaces
  exact (.foldl _ (fun s1 _ h1 => (.ite (.step (sf_within ..) rfl h1) h1)) (.step (keepBits_within ..) rfl (.step (keepBits_within ..) rfl (.foldl _ (fun s2 _ h2 => (.foldl _ (fun s3 _ h3 => (.step (keepBits_within ..) rfl h3)) (.step (keepBits_within ..) rfl (.step (keepBits_within ..) rfl h2)))) (.refl _ _)))))

theorem releaseWakes_within {s mine} : Within [.host, .outbox] s (releaseWakes s mine) := by
  unfold releaseWakes
  exact (.foldl _ (fun s1 _ h1 => (.step (emit_within ..) rfl h1)) (.step (upd_host ..) rfl (.refl _ _)))

theorem packageReset_within {s} : Within [.regs, .modes, .core, .bus, .evc, .flt, .trc, .swc, .brg, .lode, .host, .wtt, .ins, .dma, .str, .age, .gal, .pwr, .outbox] s (packageReset s) := by
  unfold packageReset
  exact (.ite (.refl _ _) (.foldl _ (fun s1 _ h1 => (.step (sf_within ..) rfl (.step (keepBits_within ..) rfl (.step (keepBits_within ..) rfl h1)))) (.step (keepPlaces_within ..) rfl (.step (bareState_within ..) rfl (.step (releaseWakes_within ..) rfl (.refl _ _))))))

theorem powerDown_within {s} : Within [.regs, .modes, .core, .bus, .evc, .flt, .trc, .swc, .brg, .lode, .host, .wtt, .ins, .dma, .str, .cal, .age, .gal, .pwr, .outbox] s (powerDown s) := by
  have h : ∀ (b : State) (c : CoreSt) (d : CalSt), c.fuses = b.core.fuses →
      Within [.regs, .modes, .core, .bus, .evc, .flt, .trc, .swc, .brg, .lode, .host, .wtt, .ins, .dma, .str, .cal, .age, .gal, .pwr, .outbox] b { b with modes := [], core := c, cal := d } :=
    fun b c d e => ⟨fun g hg => by cases g <;> first | rfl | exact absurd hg (by decide),
      ⟨rfl, fun _ => .off _, e, rfl, List.prefix_rfl, Nat.le_refl _, Nat.le_refl _, Nat.le_refl _, fun _ h => h, id, id⟩⟩
  unfold powerDown
  exact .ite (.refl _ _) (.step keepPlaces_within rfl (.step (h (bareState (releaseWakes s (fun _ => true))) _ _ rfl) rfl (.step bareState_within rfl
    (.step releaseWakes_within rfl (.refl _ _)))))

theorem powerGood_within {s} : Within [.core, .cal] s (powerGood s) := by
  unfold powerGood
  exact .ite (.refl _ _) ⟨fun g hg => by cases g <;> first | rfl | exact absurd hg (by decide),
    ⟨rfl, fun _ => .refl _, rfl, rfl, List.prefix_rfl, Nat.le_refl _, Nat.le_refl _, Nat.le_refl _, fun _ h => h, id, id⟩⟩

theorem vbatLost_within {s} : Within [.cal] s (vbatLost s) := by
  unfold vbatLost
  exact (.ite (.refl _ _) (.step (upd_cal ..) rfl (.refl _ _)))

theorem galStraps_within {s mgrSel pkgId} : Within [.regs] s (galStraps s mgrSel pkgId) := by
  unfold galStraps
  exact (.step (wreg_within ..) rfl (.step (wreg_within ..) rfl (.refl _ _)))

theorem galImage_within {s g} : Within [.regs] s (galImage s g) := by
  unfold galImage
  try dsimp only
  split
  · exact (.refl _ _)
  · exact (.ite (.ite (.refl _ _) (.step (sf_within ..) rfl (.step (sf_within ..) rfl (.refl _ _)))) (.step (wreg_within ..) rfl (.step (sf_within ..) rfl (.step (sf_within ..) rfl (.ite (.refl _ _) (.step (sf_within ..) rfl (.step (sf_within ..) rfl (.refl _ _))))))))

theorem startCore_within {s} : Within [.regs, .mem, .age, .outbox] s (startCore s) := by
  unfold startCore
  exact (.step (histPut_within ..) rfl (.ite (.foldl _ (fun s1 _ h1 => (.step (setVreq_within ..) rfl h1)) (.step (setVreq_within ..) rfl (.step (pmbusSend_within ..) rfl (.refl _ _)))) (.step (setVreq_within ..) rfl (.foldl _ (fun s2 _ h2 => (.step (setVreq_within ..) rfl h2)) (.step (setVreq_within ..) rfl (.step (pmbusSend_within ..) rfl (.refl _ _)))))))

theorem bootStage_within {s n} : Within [.regs] s (bootStage s n) := by
  unfold bootStage
  exact (.step (sf_within ..) rfl (.refl _ _))

theorem enableTiles_within {s} : Within [.regs, .modes, .core, .evc, .trc] s (enableTiles s) := by
  unfold enableTiles
  exact (.foldl _ (fun s1 _ h1 => (.ite (.step (sf_within ..) rfl h1) (.step (setMode_within ..) rfl (.step (sf_within ..) rfl h1)))) (.step (bootStage_within ..) rfl (.refl _ _)))

theorem startTileLinks_within {s} : Within [.regs] s (startTileLinks s) := by
  unfold startTileLinks
  exact (.foldl _ (fun s1 _ h1 => (.foldl _ (fun s2 _ h2 => (.step (setLinkState_within ..) rfl (.step (sf_within ..) rfl (.step (sf_within ..) rfl h2)))) h1)) (.step (bootStage_within ..) rfl (.refl _ _)))

theorem fatalBoot_within {s} : Within [.regs, .modes, .core, .evc, .trc] s (fatalBoot s) := by
  unfold fatalBoot
  exact (.foldl _ (fun s1 _ h1 => (.step (sf_within ..) rfl (.step (setTile_within ..) rfl (.step (setMode_within ..) rfl h1)))) (.refl _ _))

theorem startRecovery_within {s} : Within [.regs, .modes, .core, .evc, .trc, .swc, .brg, .lode, .host, .ins] s (startRecovery s) := by
  unfold startRecovery
  exact (.ite (.step (setHls_within ..) rfl (.step (setMode_within ..) rfl (.step (bootStage_within ..) rfl (.step (loadTables_within ..) rfl (.step (bootStage_within ..) rfl (.refl _ _)))))) (.step (setMode_within ..) rfl (.step (bootStage_within ..) rfl (.step (loadTables_within ..) rfl (.step (bootStage_within ..) rfl (.refl _ _))))))

theorem startImage_within {s} : Within [.regs, .modes, .core, .evc, .trc, .swc, .brg, .lode, .host, .ins, .str] s (startImage s) := by
  unfold startImage
  exact (.foldl _ (fun s1 _ h1 => (.step (startLocals_within ..) rfl (.step (startHosts_within ..) rfl (.ite (.step (setMode_within ..) rfl h1) (.step (setMode_within ..) rfl h1))))) (.step (upd_str ..) rfl (.step (galImage_within ..) rfl (.step (bootStage_within ..) rfl (.step (loadTables_within ..) rfl (.step (bootStage_within ..) rfl (.refl _ _)))))))

theorem startShape_within {s} : Within [.regs, .modes, .core, .mem, .evc, .trc, .swc, .brg, .lode, .host, .ins, .otp, .str, .fresh] s (startShape s) := by
  unfold startShape
  try dsimp only
  exact (.ite (.step (startRecovery_within ..) rfl (.step (sf_within ..) rfl (.step (chooseImage_within ..) rfl (.step (bootStage_within ..) rfl (.refl _ _))))) (.step (startImage_within ..) rfl (.step (sf_within ..) rfl (.step (chooseImage_within ..) rfl (.step (bootStage_within ..) rfl (.refl _ _))))))

theorem packageStart_within {s mgrSel pkgId} : Within [.regs, .modes, .core, .mem, .evc, .flt, .trc, .swc, .brg, .lode, .host, .wtt, .ins, .dma, .otp, .str, .cal, .age, .outbox, .fresh] s (packageStart s mgrSel pkgId) := by
  unfold packageStart
  exact (.ite (.refl _ _) (.ite (.step (sf_within ..) rfl (.step (bootStage_within ..) rfl (.step (startTileLinks_within ..) rfl (.step (enableTiles_within ..) rfl (.step (startCore_within ..) rfl (.ite (.step (recordFault_within ..) rfl (.step (upd_cal ..) rfl (.step (setMode_within ..) rfl (.step (galStraps_within ..) rfl (.step (upd_core _ _ rfl) rfl (.refl _ _)))))) (.step (setMode_within ..) rfl (.step (galStraps_within ..) rfl (.step (upd_core _ _ rfl) rfl (.refl _ _)))))))))) (.ite (.step (fatalBoot_within ..) rfl (.step (sf_within ..) rfl (.step (bootStage_within ..) rfl (.step (startTileLinks_within ..) rfl (.step (enableTiles_within ..) rfl (.step (startCore_within ..) rfl (.ite (.step (recordFault_within ..) rfl (.step (upd_cal ..) rfl (.step (setMode_within ..) rfl (.step (galStraps_within ..) rfl (.step (upd_core _ _ rfl) rfl (.refl _ _)))))) (.step (setMode_within ..) rfl (.step (galStraps_within ..) rfl (.step (upd_core _ _ rfl) rfl (.refl _ _))))))))))) (.step (startShape_within ..) rfl (.step (sf_within ..) rfl (.step (bootStage_within ..) rfl (.step (startTileLinks_within ..) rfl (.step (enableTiles_within ..) rfl (.step (startCore_within ..) rfl (.ite (.step (recordFault_within ..) rfl (.step (upd_cal ..) rfl (.step (setMode_within ..) rfl (.step (galStraps_within ..) rfl (.step (upd_core _ _ rfl) rfl (.refl _ _)))))) (.step (setMode_within ..) rfl (.step (galStraps_within ..) rfl (.step (upd_core _ _ rfl) rfl (.refl _ _))))))))))))))

theorem traceReset_within {s u t} : Within [.regs, .trc] s (traceReset s u t) := by
  unfold traceReset
  exact (.step (ringPut_within ..) rfl (.refl _ _))

theorem dumpLose_within {s u} : Within [.flt] s (dumpLose s u) := by
  unfold dumpLose
  exact (.step (upd_flt ..) rfl (.refl _ _))

theorem preemptTile_within {s u} : Within [.regs, .bus, .trc, .wtt, .ins, .fresh] s (preemptTile s u) := by
  unfold preemptTile
  try dsimp only
  split
  · exact (.step (wttEnd_within ..) rfl (.step (setWttRun_within ..) rfl (.ite (.step (stampAll_within ..) rfl (.step (tickFresh_within ..) rfl (.step (upd_ins ..) rfl (.foldl _ (fun s1 _ h1 => (.ite (.step (insMbFinish_within ..) rfl (.step (insRefuse_within ..) rfl h1)) h1)) (.refl _ _))))) (.step (tickFresh_within ..) rfl (.step (upd_ins ..) rfl (.foldl _ (fun s2 _ h2 => (.ite (.step (insMbFinish_within ..) rfl (.step (insRefuse_within ..) rfl h2)) h2)) (.refl _ _)))))))
  · exact (.step (upd_ins ..) rfl (.foldl _ (fun s3 _ h3 => (.ite (.step (insMbFinish_within ..) rfl (.step (insRefuse_within ..) rfl h3)) h3)) (.refl _ _)))

theorem beginTileReset_within {s u t} : Within [.regs, .modes, .core, .bus, .evc, .flt, .trc, .swc, .brg, .lode, .host, .wtt, .ins, .dma, .age, .outbox, .fresh] s (beginTileReset s u t) := by
  unfold beginTileReset
  refine .foldl _ (fun s1 _ h1 => ?_) ?_
  · exact (.step (startReset_within ..) rfl (.step (logEnd_within ..) rfl h1))
  · refine .foldl _ (fun s2 _ h2 => ?_) ?_
    · try dsimp only
      split
      · exact (.ite h2 (.step (quarantine_within ..) rfl h2))
      · exact h2
    · exact (.step (releaseWakes_within ..) rfl (.step (clearOwn_within ..) rfl (.foldl _ (fun s3 _ h3 => (.step (holdLink_within ..) rfl h3)) (.foldl _ (fun s4 _ h4 => (.step (hostLinkReset_within ..) rfl h4)) (.step (planForget_within ..) rfl (.step (preemptTile_within ..) rfl (.step (dropDeadlines_within ..) rfl (.step (setTile_within ..) rfl (.step (setMode_within ..) rfl (.ite (.step (dumpLose_within ..) rfl (.step (sf_within ..) rfl (.step (sf_within ..) rfl (.step (traceReset_within ..) rfl (.refl _ _))))) (.step (sf_within ..) rfl (.step (traceReset_within ..) rfl (.refl _ _)))))))))))))

theorem tileReset_within {s t tiles} : Within [.regs, .modes, .core, .bus, .evc, .flt, .trc, .swc, .brg, .lode, .host, .wtt, .ins, .dma, .age, .outbox, .fresh] s (tileReset s t tiles) := by
  unfold tileReset
  exact (.foldl _ (fun s1 _ h1 => (.ite h1 (.step (beginTileReset_within ..) rfl h1))) (.step (wreg_within ..) rfl (.refl _ _)))

theorem reinitRegs_wf (s : State) (u : Nat) (h : Registers.wf s.regs = true) : Registers.wf (reinitRegs s u) = true := by
  rw [Registers.wf, rising_iff] at h ⊢
  unfold reinitRegs
  refine List.Pairwise.filterMap _ (fun a b hab x hx y hy => ?_) h
  have hx' : x.1 = a.1 := by
    try dsimp only at hx
    split at hx
    · split at hx
      · cases hx
      · cases hx; rfl
    · cases hx; rfl
  have hy' : y.1 = b.1 := by
    try dsimp only at hy
    split at hy
    · split at hy
      · cases hy
      · cases hy; rfl
    · cases hy; rfl
  rw [hx', hy']
  exact hab

theorem reinitTile_within {s u} : Within [.regs, .bus, .trc, .swc, .ins, .dma, .age] s (reinitTile s u) :=
  ⟨fun g hg => by cases g <;> first | rfl | exact absurd hg (by decide),
    ⟨rfl, fun _ => .refl _, rfl, rfl, List.prefix_rfl, Nat.le_refl _, Nat.le_refl _, Nat.le_refl _, fun _ h => h, reinitRegs_wf s u, id⟩⟩

theorem shrinkPool_within {s u p n} : Within [.regs, .evc, .trc, .swc, .brg, .lode, .host, .ins] s (shrinkPool s u p n) := by
  induction n generalizing s with
  | zero => exact .refl _ _
  | succ n ih =>
    unfold shrinkPool
    refine .ite (.refl _ _) ?_
    split
    · exact .trans (.step insEvent_within rfl (.step freeInst_within rfl (.step unbindInst_within rfl (.refl _ _)))) ih
    · exact .refl _ _

theorem endTileReset_within {s u} : Within [.regs, .modes, .core, .bus, .evc, .trc, .swc, .brg, .lode, .host, .ins, .dma, .age] s (endTileReset s u) := by
  unfold endTileReset
  exact (.ite (.refl _ _) (.ite (.ite (.ite (.step (setHls_within ..) rfl (.step (setMode_within ..) rfl (.step (setTile_within ..) rfl (.foldl _ (fun s1 _ h1 => (.step (shrinkPool_within ..) rfl h1)) (.step (stageRefresh_within ..) rfl (.step (applyTile_within ..) rfl (.step (reinitTile_within ..) rfl (.refl _ _)))))))) (.step (setMode_within ..) rfl (.step (setTile_within ..) rfl (.foldl _ (fun s2 _ h2 => (.step (shrinkPool_within ..) rfl h2)) (.step (stageRefresh_within ..) rfl (.step (applyTile_within ..) rfl (.step (reinitTile_within ..) rfl (.refl _ _)))))))) (.step (setTile_within ..) rfl (.foldl _ (fun s3 _ h3 => (.step (shrinkPool_within ..) rfl h3)) (.step (stageRefresh_within ..) rfl (.step (applyTile_within ..) rfl (.step (reinitTile_within ..) rfl (.refl _ _))))))) (.step (startLocals_within ..) rfl (.step (startHosts_within ..) rfl (.ite (.step (setMode_within ..) rfl (.step (setTile_within ..) rfl (.foldl _ (fun s4 _ h4 => (.step (shrinkPool_within ..) rfl h4)) (.step (stageRefresh_within ..) rfl (.step (applyTile_within ..) rfl (.step (reinitTile_within ..) rfl (.refl _ _))))))) (.step (setMode_within ..) rfl (.step (setTile_within ..) rfl (.foldl _ (fun s5 _ h5 => (.step (shrinkPool_within ..) rfl h5)) (.step (stageRefresh_within ..) rfl (.step (applyTile_within ..) rfl (.step (reinitTile_within ..) rfl (.refl _ _))))))))))))

theorem boundaryScan_within {s} : Within [.regs, .modes, .core, .evc, .trc] s (boundaryScan s) := by
  unfold boundaryScan
  exact (.foldl _ (fun s1 _ h1 => (.ite h1 (.step (setTile_within ..) rfl (.step (setMode_within ..) rfl h1)))) (.step (upd_core _ _ rfl) rfl (.refl _ _)))

end Sys2Proof.Laws
end

