-- ==== Sys2Proof/Laws/FramePwr.lean ====
section
/-! SUPPORT. What the operations of Machine/Pwr.lean may change: one lemma for each. -/

namespace Sys2Proof.Laws

open Sys2Proof Sys2Proof.Machine

theorem govHold_within {s t held} : Within [.regs, .modes, .core, .mem, .evc, .flt, .trc, .swc, .brg, .lode, .host, .wtt, .ins, .dma, .pwr, .outbox, .fresh] s (govHold s t held) := by
  unfold govHold
  exact (.ite (.step (upd_pwr ..) rfl (.refl _ _)) (.step (evt_within ..) rfl (.step (recordFault_within ..) rfl (.step (upd_pwr ..) rfl (.refl _ _)))))

theorem govCount_within {s t held} : Within [.regs, .pwr] s (govCount s t held) := by
  unfold govCount
  exact (.ite (.step (upd_pwr ..) rfl (.refl _ _)) (.ite (.step (upd_pwr ..) rfl (.refl _ _)) (.step (cf_within ..) rfl (.step (upd_pwr ..) rfl (.refl _ _)))))

theorem govWindow_within {s t wanted} : Within [.regs, .modes, .core, .mem, .evc, .flt, .trc, .swc, .brg, .lode, .host, .wtt, .ins, .dma, .pwr, .outbox, .fresh] s (govWindow s t wanted) := by
  unfold govWindow
  exact (.ite (.refl _ _) (.step (govHold_within ..) rfl (.step (govCount_within ..) rfl (.ite (.step (evt_within ..) rfl (.step (wreg_within ..) rfl (.step (upd_pwr ..) rfl (.refl _ _)))) (.ite (.step (cf_within ..) rfl (.step (wreg_within ..) rfl (.step (upd_pwr ..) rfl (.refl _ _)))) (.step (wreg_within ..) rfl (.step (upd_pwr ..) rfl (.refl _ _))))))))

theorem tempSample_within {s t r0 r1 r2 r3} : Within [.regs, .modes, .core, .mem, .evc, .flt, .trc, .swc, .brg, .lode, .host, .wtt, .ins, .dma, .outbox, .fresh] s (tempSample s t r0 r1 r2 r3) := by
  unfold tempSample
  refine .ite ?_ ?_
  · exact (.refl _ _)
  · try dsimp only
    exact (.ite (.ite (.step (recordFault_within ..) rfl (.ite (.step (evt_within ..) rfl (.step (wreg_within ..) rfl (.refl _ _))) (.step (wreg_within ..) rfl (.refl _ _)))) (.step (emit_within ..) rfl (.step (upd_core _ _ rfl) rfl (.step (recordFault_within ..) rfl (.ite (.step (evt_within ..) rfl (.step (wreg_within ..) rfl (.refl _ _))) (.step (wreg_within ..) rfl (.refl _ _))))))) (.ite (.step (evt_within ..) rfl (.step (wreg_within ..) rfl (.refl _ _))) (.step (wreg_within ..) rfl (.refl _ _))))

theorem chargeRefresh_within {s} : Within [.regs] s (chargeRefresh s) := by
  unfold chargeRefresh
  exact (.step (sf_within ..) rfl (.refl _ _))

theorem vbatSample_within {s mv} : Within [.regs, .trc] s (vbatSample s mv) := by
  unfold vbatSample
  exact (.ite (.refl _ _) (.ite (.step (evt_within ..) rfl (.step (chargeRefresh_within ..) rfl (.step (sf_within ..) rfl (.step (sf_within ..) rfl (.refl _ _))))) (.step (chargeRefresh_within ..) rfl (.step (sf_within ..) rfl (.step (sf_within ..) rfl (.refl _ _))))))

theorem chargeWrite_within {s be v} : Within [.regs] s (chargeWrite s be v) := by
  unfold chargeWrite
  exact (.ite (.refl _ _) (.ite (.step (chargeRefresh_within ..) rfl (.step (sf_within ..) rfl (.refl _ _))) (.refl _ _)))

theorem pmbusRetry_within {s acked} : Within [.regs, .trc, .pwr, .outbox] s (pmbusRetry s acked) := by
  unfold pmbusRetry
  try dsimp only
  split
  · exact (.step (pmbusEnd_within ..) rfl (.step (pmbusSend_within ..) rfl (.refl _ _)))
  · exact (.refl _ _)

theorem readVout_within {s acked readback} : Within [.regs, .trc, .pwr, .outbox] s (readVout s acked readback) := by
  unfold readVout
  exact (.ite (.refl _ _) (.ite (.step (sf_within ..) rfl (.step (pmbusEnd_within ..) rfl (.step (pmbusSend_within ..) rfl (.refl _ _)))) (.step (pmbusEnd_within ..) rfl (.step (pmbusSend_within ..) rfl (.refl _ _)))))

end Sys2Proof.Laws
end

