-- ==== Sys2Proof/Laws/FrameTrc.lean ====
section
/-! SUPPORT. What the operations of Machine/Trc.lean may change: one lemma for each. -/

namespace Sys2Proof.Laws

open Sys2Proof Sys2Proof.Machine

theorem alarmCmd_within {l a s t op k} (h : Within l a s) (hs : Grp.sub [.regs, .bus] l = true)
    (hk : ∀ x n, Within l a x → Within l a (k x n)) : Within l a (alarmCmd s t op k) := by
  unfold alarmCmd
  exact mbCmd_within h hs (fun x hx =>
    .ite ((Within.step mbEnd_within rfl (.refl [.regs, .bus] x)).step hs hx) (hk _ _ hx))

theorem alarmRead_within {s t} : Within [.regs, .bus] s (alarmRead s t) := by
  unfold alarmRead
  exact (alarmCmd_within (.refl _ _) rfl (fun s1 _ h1 => (.step (mbEnd_within ..) rfl h1)))

theorem alarmAck_within {s t} : Within [.regs, .bus, .trc] s (alarmAck s t) := by
  unfold alarmAck
  exact (alarmCmd_within (.refl _ _) rfl (fun s1 _ h1 => (.ite (.step (mbEnd_within ..) rfl (.step (setAlarm_within ..) rfl h1)) (.step (mbEnd_within ..) rfl h1))))

theorem alarmWrite_within {s t} : Within [.regs, .bus] s (alarmWrite s t) := by
  unfold alarmWrite
  exact (alarmCmd_within (.refl _ _) rfl (fun s1 _ h1 => (.step (mbEnd_within ..) rfl h1)))

theorem smbusRead_within {s cmd} : Within [.outbox] s (smbusRead s cmd) := by
  unfold smbusRead
  refine .ite ?_ ?_
  · exact (.refl _ _)
  · try dsimp only
    split
    · exact (.step (emit_within ..) rfl (.refl _ _))
    · exact (.refl _ _)

end Sys2Proof.Laws
end

