-- ==== Sys2Proof/Laws/FramePageRegs.lean ====
section
/-! SUPPORT. What the operations of Machine/PageRegs.lean may change: one lemma for each. -/

namespace Sys2Proof.Laws

open Sys2Proof Sys2Proof.Machine

theorem evWinRead_within {s i o} : Within [.evc] s (evWinRead s i o).2 := by
  unfold evWinRead
  try dsimp only
  split
  · try dsimp only
    exact (.foldl _ (fun s1 _ h1 => (.step (upd_evc ..) rfl h1)) (.refl _ _))
  · try dsimp only
    try dsimp only
    split
    · try dsimp only
      exact (.refl _ _)
    · try dsimp only
      try dsimp only
      split
      · try dsimp only
        exact (.refl _ _)
      · try dsimp only
        try dsimp only
        split
        · try dsimp only
          try dsimp only
          split
          · try dsimp only
            exact (.refl _ _)
          · try dsimp only
            exact (.refl _ _)
        · try dsimp only
          try dsimp only
          split
          · try dsimp only
            try dsimp only
            split
            · try dsimp only
              exact (.refl _ _)
            · try dsimp only
              exact (.refl _ _)
            · try dsimp only
              exact (.refl _ _)
            · try dsimp only
              exact (.refl _ _)
          · try dsimp only
            exact (.refl _ _)

theorem evWinRead_eq {s i o v₁ s'} (he : evWinRead s i o = (v₁, s')) : Within [.evc] s s' := by
  have e := evWinRead_within (s := s) (i := i) (o := o)
  rw [he] at e
  exact e

theorem winTgtWrite_within {s i x be v} : Within [.regs, .evc] s (winTgtWrite s i x be v) := by
  unfold winTgtWrite
  exact (.ite (.refl _ _) (.step (evcRefresh_within ..) rfl (.ite (.step (sf_within ..) rfl (.refl _ _)) (.step (sf_within ..) rfl (.step (sf_within ..) rfl (.refl _ _))))))

theorem winRouteWrite_within {s i src v} : Within [.regs, .evc] s (winRouteWrite s i src v) := by
  unfold winRouteWrite
  exact (.ite (.step (routeWrite_within ..) rfl (.refl _ _)) (.ite (.step (routeWrite_within ..) rfl (.refl _ _)) (.refl _ _)))

theorem evWinWrite_eq {s i o be v s'} (h : evWinWrite s i o be v = some s') : Within [.regs, .evc] s s' := by
  unfold evWinWrite at h
  try dsimp only at h
  split at h
  · try dsimp only at h
    split at h
    · cases h
    · cases h
      exact (.step (evcRefresh_within ..) rfl (.foldl _ (fun s1 _ h1 => (.ite (.step (pendWriteBit_within ..) rfl h1) h1)) (.refl _ _)))
  · try dsimp only at h
    split at h
    · try dsimp only at h
      split at h
      · cases h
      · cases h
        exact (.step (evcRefresh_within ..) rfl (.foldl _ (fun s2 _ h2 => (.ite (.ite h2 (.step (sf_within ..) rfl h2)) h2)) (.refl _ _)))
    · try dsimp only at h
      split at h
      · try dsimp only at h
        split at h
        · cases h
        · cases h
          exact (.step (evcRefresh_within ..) rfl (.foldl _ (fun s3 _ h3 => (.ite (.ite (.step (sf_within ..) rfl h3) h3) h3)) (.refl _ _)))
      · try dsimp only at h
        split at h
        · obtain ⟨_, _, rfl⟩ := Option.map_eq_some_iff.1 h
          exact (.ite (.step (winRouteWrite_within ..) rfl (.refl _ _)) (.refl _ _))
        · try dsimp only at h
          split at h
          · try dsimp only at h
            split at h
            · cases h
              exact (.step (winTgtWrite_within ..) rfl (.refl _ _))
            · cases h
              exact (.ite (.refl _ _) (.step (targetDone_within ..) rfl (.refl _ _)))
            · cases h
              exact (.refl _ _)
          · cases h

theorem logCfgWrite_within {s i be v} : Within [.swc, .brg, .ins] s (logCfgWrite s i be v) := by
  unfold logCfgWrite
  exact (.ite (.ite (.refl _ _) (.step (setLog_within ..) rfl (.refl _ _))) (.ite (.step (logEnable_within ..) rfl (.ite (.refl _ _) (.step (setLog_within ..) rfl (.refl _ _)))) (.step (logEnd_within ..) rfl (.ite (.refl _ _) (.step (setLog_within ..) rfl (.refl _ _))))))

theorem ctlWrite_eq {s i o be v s'} (h : ctlWrite s i o be v = some s') : Within [.regs, .evc, .trc, .swc, .brg, .ins] s s' := by
  unfold ctlWrite at h
  try dsimp only at h
  split at h
  · cases h
    exact (.refl _ _)
  · try dsimp only at h
    split at h
    · cases h
      exact (.ite (.step (releaseInst_within ..) rfl (.refl _ _)) (.refl _ _))
    · cases h
      exact (.step (evcRefresh_within ..) rfl (.step (setInst_within ..) rfl (.refl _ _)))
    · cases h
      exact (.refl _ _)
    · cases h
      exact (.ite (.refl _ _) (.step (setLog_within ..) rfl (.refl _ _)))
    · cases h
      exact (.ite (.refl _ _) (.step (setLog_within ..) rfl (.refl _ _)))
    · cases h
      exact (.step (logCfgWrite_within ..) rfl (.refl _ _))
    · cases h
      exact (.ite (.refl _ _) (.step (setLog_within ..) rfl (.refl _ _)))
    · cases h
      exact (.refl _ _)
    · cases h
      exact (.ite (.step (logCmdClear_within ..) rfl (.refl _ _)) (.refl _ _))
    · cases h
      exact (.refl _ _)
    · cases h

theorem pageRead_within {s i o} : Within [.evc] s (pageRead s i o).2 := by
  unfold pageRead
  try dsimp only
  split
  · try dsimp only
    exact (.refl _ _)
  · try dsimp only
    try dsimp only
    split
    · try dsimp only
      exact (.refl _ _)
    · try dsimp only
      try dsimp only
      split
      · try dsimp only
        exact (.refl _ _)
      · try dsimp only
        try dsimp only
        split
        · try dsimp only
          exact (.step (evWinRead_within ..) rfl (.refl _ _))
        · try dsimp only
          try dsimp only
          split
          · try dsimp only
            exact (.refl _ _)
          · try dsimp only
            try dsimp only
            split
            · try dsimp only
              exact (.refl _ _)
            · try dsimp only
              exact (.refl _ _)

theorem pageRead_eq {s i o v₁ s'} (he : pageRead s i o = (v₁, s')) : Within [.evc] s s' := by
  have e := pageRead_within (s := s) (i := i) (o := o)
  rw [he] at e
  exact e

theorem vecWrite_within {s i v k be x} : Within [.evc, .host] s (vecWrite s i v k be x) := by
  unfold vecWrite
  exact (.ite (.step (retryVec_within ..) rfl (.step (upd_host ..) rfl (.refl _ _))) (.step (upd_host ..) rfl (.refl _ _)))

theorem pageWrite_eq {s i o be v s'} (h : pageWrite s i o be v = some s') : Within [.regs, .evc, .trc, .swc, .brg, .host, .ins, .dma] s s' := by
  unfold pageWrite at h
  try dsimp only at h
  split at h
  · try dsimp only at h
    split at h
    · cases h
      exact (.step (doorbell_within ..) rfl (.refl _ _))
    · cases h
  · try dsimp only at h
    split at h
    · try dsimp only at h
      split at h
      · cases h
        exact (.step (qctxDriverWrite_within ..) rfl (.refl _ _))
      · cases h
    · try dsimp only at h
      split at h
      · exact .step (ctlWrite_eq h) rfl (.refl _ _)
      · try dsimp only at h
        split at h
        · exact .step (evWinWrite_eq h) rfl (.refl _ _)
        · try dsimp only at h
          split at h
          · try dsimp only at h
            split at h
            · cases h
              exact (.refl _ _)
            · cases h
          · try dsimp only at h
            split at h
            · cases h
              exact (.step (vecWrite_within ..) rfl (.refl _ _))
            · cases h

end Sys2Proof.Laws
end

