-- ==== Sys2Proof/Laws/FrameBusWrite.lean ====
section
/-! SUPPORT. What the operations of Machine/BusWrite.lean may change: one lemma for each. -/

namespace Sys2Proof.Laws

open Sys2Proof Sys2Proof.Machine

theorem plainWrite_within {s t off be v} : Within [.regs, .bus, .evc] s (plainWrite s t off be v) := by
  unfold plainWrite
  try dsimp only
  split
  · exact (.refl _ _)
  · exact (.ite (.step (upd_bus ..) rfl (.step (wreg_within ..) rfl (.refl _ _))) (.step (evcRefresh_within ..) rfl (.step (upd_bus ..) rfl (.step (wreg_within ..) rfl (.refl _ _)))))

theorem mgrTableWrite_within {s off be v} : Within [.evc, .host] s (mgrTableWrite s off be v) := by
  unfold mgrTableWrite
  exact (.ite (.refl _ _) (.ite (.step (retryVec_within ..) rfl (.step (upd_host ..) rfl (.refl _ _))) (.step (upd_host ..) rfl (.refl _ _))))

theorem testWrite_within {s t be v} : Within [.regs, .core, .bus, .evc, .fresh] s (testWrite s t be v) := by
  unfold testWrite
  exact (.ite (.refl _ _) (.ite (.ite (.step (testStop_within ..) rfl (.step (tickFresh_within ..) rfl (.refl _ _))) (.refl _ _)) (.ite (.step (testStart_within ..) rfl (.step (plainWrite_within ..) rfl (.refl _ _))) (.step (plainWrite_within ..) rfl (.refl _ _)))))

theorem glbWrite_within {s t off be v} : Within [.regs, .modes, .core, .bus, .evc, .flt, .trc, .swc, .brg, .lode, .host, .wtt, .ins, .dma, .age, .outbox, .fresh] s (glbWrite s t off be v) := by
  unfold glbWrite
  try dsimp only
  split
  · refine .ite ?_ ?_
    · exact (.step (stf_within ..) rfl (.refl _ _))
    · refine .ite ?_ ?_
      · exact (.step (plainWrite_within ..) rfl (.refl _ _))
      · try dsimp only
        split
        · exact (.step (modeCmd_within ..) rfl (.step (plainWrite_within ..) rfl (.refl _ _)))
        · exact (.step (modeCmd_within ..) rfl (.step (plainWrite_within ..) rfl (.refl _ _)))
        · exact (.step (modeCmd_within ..) rfl (.step (plainWrite_within ..) rfl (.refl _ _)))
        · exact (.step (plainWrite_within ..) rfl (.refl _ _))
  · exact (.ite (.step (stf_within ..) rfl (.refl _ _)) (.ite (.step (tileReset_within ..) rfl (.step (plainWrite_within ..) rfl (.refl _ _))) (.step (plainWrite_within ..) rfl (.refl _ _))))
  · exact (.step (testWrite_within ..) rfl (.refl _ _))
  · exact (.step (plainWrite_within ..) rfl (.refl _ _))

theorem linkCtrlWrite_within {s h be v} : Within [.regs, .host, .outbox] s (linkCtrlWrite s h be v) := by
  unfold linkCtrlWrite
  exact (.ite (.step (writeRetrain_within ..) rfl (.ite (.step (wakeOn_within ..) rfl (.ite (.ite (.refl _ _) (.step (writeRateCap_within ..) rfl (.refl _ _))) (.step (writeNarrow_within ..) rfl (.ite (.refl _ _) (.step (writeRateCap_within ..) rfl (.refl _ _)))))) (.ite (.ite (.refl _ _) (.step (writeRateCap_within ..) rfl (.refl _ _))) (.step (writeNarrow_within ..) rfl (.ite (.refl _ _) (.step (writeRateCap_within ..) rfl (.refl _ _))))))) (.ite (.step (wakeOn_within ..) rfl (.ite (.ite (.refl _ _) (.step (writeRateCap_within ..) rfl (.refl _ _))) (.step (writeNarrow_within ..) rfl (.ite (.refl _ _) (.step (writeRateCap_within ..) rfl (.refl _ _)))))) (.ite (.ite (.refl _ _) (.step (writeRateCap_within ..) rfl (.refl _ _))) (.step (writeNarrow_within ..) rfl (.ite (.refl _ _) (.step (writeRateCap_within ..) rfl (.refl _ _)))))))

theorem hptWrite_within {s t off be v} : Within [.regs, .bus, .evc, .host, .outbox] s (hptWrite s t off be v) := by
  unfold hptWrite
  exact (.ite (.step (linkCtrlWrite_within ..) rfl (.refl _ _)) (.ite (.step (writeLtr_within ..) rfl (.refl _ _)) (.step (plainWrite_within ..) rfl (.refl _ _))))

theorem enableLink_within {s t n} : Within [.regs] s (enableLink s t n) := by
  unfold enableLink
  exact (.ite (.step (setLinkState_within ..) rfl (.refl _ _)) (.refl _ _))

theorem phyCtrlWrite_within {s t n be v} : Within [.regs, .modes, .core, .mem, .evc, .flt, .trc, .swc, .brg, .lode, .host, .wtt, .ins, .dma, .outbox, .fresh] s (phyCtrlWrite s t n be v) := by
  unfold phyCtrlWrite
  exact (.ite (.step (writeChange_within ..) rfl (.ite (.step (commandDown_within ..) rfl (.ite (.ite (.refl _ _) (.step (sf_within ..) rfl (.step (sf_within ..) rfl (.step (sf_within ..) rfl (.refl _ _))))) (.ite (.step (disableLink_within ..) rfl (.ite (.refl _ _) (.step (sf_within ..) rfl (.step (sf_within ..) rfl (.step (sf_within ..) rfl (.refl _ _)))))) (.ite (.step (enableLink_within ..) rfl (.step (sf_within ..) rfl (.ite (.refl _ _) (.step (sf_within ..) rfl (.step (sf_within ..) rfl (.step (sf_within ..) rfl (.refl _ _))))))) (.ite (.refl _ _) (.step (sf_within ..) rfl (.step (sf_within ..) rfl (.step (sf_within ..) rfl (.refl _ _))))))))) (.ite (.ite (.refl _ _) (.step (sf_within ..) rfl (.step (sf_within ..) rfl (.step (sf_within ..) rfl (.refl _ _))))) (.ite (.step (disableLink_within ..) rfl (.ite (.refl _ _) (.step (sf_within ..) rfl (.step (sf_within ..) rfl (.step (sf_within ..) rfl (.refl _ _)))))) (.ite (.step (enableLink_within ..) rfl (.step (sf_within ..) rfl (.ite (.refl _ _) (.step (sf_within ..) rfl (.step (sf_within ..) rfl (.step (sf_within ..) rfl (.refl _ _))))))) (.ite (.refl _ _) (.step (sf_within ..) rfl (.step (sf_within ..) rfl (.step (sf_within ..) rfl (.refl _ _)))))))))) (.ite (.step (commandDown_within ..) rfl (.ite (.ite (.refl _ _) (.step (sf_within ..) rfl (.step (sf_within ..) rfl (.step (sf_within ..) rfl (.refl _ _))))) (.ite (.step (disableLink_within ..) rfl (.ite (.refl _ _) (.step (sf_within ..) rfl (.step (sf_within ..) rfl (.step (sf_within ..) rfl (.refl _ _)))))) (.ite (.step (enableLink_within ..) rfl (.step (sf_within ..) rfl (.ite (.refl _ _) (.step (sf_within ..) rfl (.step (sf_within ..) rfl (.step (sf_within ..) rfl (.refl _ _))))))) (.ite (.refl _ _) (.step (sf_within ..) rfl (.step (sf_within ..) rfl (.step (sf_within ..) rfl (.refl _ _))))))))) (.ite (.ite (.refl _ _) (.step (sf_within ..) rfl (.step (sf_within ..) rfl (.step (sf_within ..) rfl (.refl _ _))))) (.ite (.step (disableLink_within ..) rfl (.ite (.refl _ _) (.step (sf_within ..) rfl (.step (sf_within ..) rfl (.step (sf_within ..) rfl (.refl _ _)))))) (.ite (.step (enableLink_within ..) rfl (.step (sf_within ..) rfl (.ite (.refl _ _) (.step (sf_within ..) rfl (.step (sf_within ..) rfl (.step (sf_within ..) rfl (.refl _ _))))))) (.ite (.refl _ _) (.step (sf_within ..) rfl (.step (sf_within ..) rfl (.step (sf_within ..) rfl (.refl _ _))))))))))

theorem lnkWrite_within {s t off be v} : Within [.regs, .modes, .core, .bus, .mem, .evc, .flt, .trc, .swc, .brg, .lode, .host, .wtt, .ins, .dma, .outbox, .fresh] s (lnkWrite s t off be v) := by
  unfold lnkWrite
  exact (.ite (.step (phyCtrlWrite_within ..) rfl (.refl _ _)) (.ite (.step (sf_within ..) rfl (.step (plainWrite_within ..) rfl (.refl _ _))) (.step (plainWrite_within ..) rfl (.refl _ _))))

theorem wttWrite_within {s t off be v} : Within [.regs, .bus, .evc, .trc, .host, .wtt] s (wttWrite s t off be v) := by
  unfold wttWrite
  exact (.ite (.ite (.refl _ _) (.ite (.step (wttCmd_within ..) rfl (.step (plainWrite_within ..) rfl (.refl _ _))) (.step (plainWrite_within ..) rfl (.refl _ _)))) (.step (plainWrite_within ..) rfl (.refl _ _)))

theorem evcWrite_within {s t off be v} : Within [.regs, .bus, .evc] s (evcWrite s t off be v) := by
  unfold evcWrite
  exact (.ite (.step (pendWrite_within ..) rfl (.refl _ _)) (.ite (.step (maskWrite_within ..) rfl (.refl _ _)) (.ite (.step (lostWrite_within ..) rfl (.refl _ _)) (.ite (.step (routeWrite_within ..) rfl (.refl _ _)) (.ite (.ite (.step (tgtCfgWrite_within ..) rfl (.refl _ _)) (.ite (.ite (.refl _ _) (.step (targetDone_within ..) rfl (.refl _ _))) (.refl _ _))) (.step (plainWrite_within ..) rfl (.refl _ _)))))))

theorem fltWrite_within {s t off be v} : Within [.regs, .bus, .mem, .evc, .flt] s (fltWrite s t off be v) := by
  unfold fltWrite
  exact (.ite (.step (faultAck_within ..) rfl (.refl _ _)) (.ite (.ite (.step (dumpFree_within ..) rfl (.refl _ _)) (.refl _ _)) (.ite (.refl _ _) (.step (plainWrite_within ..) rfl (.refl _ _)))))

theorem calWrite_within {s t off be v} : Within [.regs, .modes, .core, .bus, .mem, .evc, .flt, .trc, .swc, .brg, .lode, .host, .wtt, .ins, .dma, .age, .outbox, .fresh] s (calWrite s t off be v) := by
  unfold calWrite
  try dsimp only
  split
  · exact (.ite (.step (planNow_within ..) rfl (.ite (.step (sf_within ..) rfl (.refl _ _)) (.refl _ _))) (.ite (.step (sf_within ..) rfl (.refl _ _)) (.refl _ _)))
  · exact (.ite (.refl _ _) (.ite (.step (maintWrite_within ..) rfl (.refl _ _)) (.step (sf_within ..) rfl (.refl _ _))))
  · exact (.step (plainWrite_within ..) rfl (.refl _ _))

theorem strWrite_within {s t off be v} : Within [.regs, .bus, .mem, .evc, .str] s (strWrite s t off be v) := by
  unfold strWrite
  try dsimp only
  split
  · exact (.ite (.step (strCmd_within ..) rfl (.refl _ _)) (.refl _ _))
  · exact (.step (imgWrite_within ..) rfl (.refl _ _))
  · exact (.refl _ _)
  · exact (.step (plainWrite_within ..) rfl (.refl _ _))

theorem mbStart_eq {s t mb op s'} (h : mbStart s t mb op = some s') : Within [.regs, .bus, .evc, .flt, .trc, .swc, .brg, .lode, .host, .wtt, .ins, .dma, .cal, .gal, .outbox, .fresh] s s' := by
  unfold mbStart at h
  try dsimp only at h
  split at h
  · try dsimp only at h
    split at h
    · cases h
      exact (.step (swcCntRead_within ..) rfl (.refl _ _))
    · cases h
      exact (.step (swcCntWrite_within ..) rfl (.refl _ _))
    · cases h
  · try dsimp only at h
    split at h
    · try dsimp only at h
      split at h
      · cases h
        exact (.step (winRead_within ..) rfl (.refl _ _))
      · cases h
        exact (.step (winWrite_within ..) rfl (.refl _ _))
      · cases h
    · try dsimp only at h
      split at h
      · try dsimp only at h
        split at h
        · cases h
          exact (.step (entRead_within ..) rfl (.refl _ _))
        · cases h
          exact (.step (entWrite_within ..) rfl (.refl _ _))
        · cases h
          exact (.step (entFill_within ..) rfl (.refl _ _))
        · cases h
      · try dsimp only at h
        split at h
        · try dsimp only at h
          split at h
          · cases h
            exact (.step (qctxRead_within ..) rfl (.refl _ _))
          · cases h
            exact (.step (qctxWrite_within ..) rfl (.refl _ _))
          · cases h
            exact (.step (qctxShare_within ..) rfl (.refl _ _))
          · cases h
            exact (.step (qctxCmd_within ..) rfl (.refl _ _))
          · cases h
        · try dsimp only at h
          split at h
          · try dsimp only at h
            split at h
            · cases h
              exact (.step (dmaCntRead_within ..) rfl (.refl _ _))
            · cases h
              exact (.step (dmaCntWrite_within ..) rfl (.refl _ _))
            · cases h
          · try dsimp only at h
            split at h
            · try dsimp only at h
              split at h
              · cases h
                exact (.step (instRead_within ..) rfl (.refl _ _))
              · cases h
                exact (.step (instWrite_within ..) rfl (.refl _ _))
              · cases h
                exact (.step (create_within ..) rfl (.refl _ _))
              · cases h
                exact (.step (remove_within ..) rfl (.refl _ _))
              · cases h
                exact (.step (bindInst_within ..) rfl (.refl _ _))
              · cases h
                exact (.step (unbindCmd_within ..) rfl (.refl _ _))
              · cases h
                exact (.step (freezeCmd_within ..) rfl (.refl _ _))
              · cases h
                exact (.step (resumeCmd_within ..) rfl (.refl _ _))
              · cases h
                exact (.step (resetCmd_within ..) rfl (.refl _ _))
              · cases h
                exact (.step (setWeightCmd_within ..) rfl (.refl _ _))
              · cases h
                exact (.step (logClearCmd_within ..) rfl (.refl _ _))
              · cases h
            · try dsimp only at h
              split at h
              · try dsimp only at h
                split at h
                · cases h
                  exact (.step (tsRead_within ..) rfl (.refl _ _))
                · cases h
                  exact (.step (tsWrite_within ..) rfl (.refl _ _))
                · cases h
                  exact (.step (tsSlew_within ..) rfl (.refl _ _))
                · cases h
              · try dsimp only at h
                split at h
                · try dsimp only at h
                  split at h
                  · cases h
                  · try dsimp only at h
                    split at h
                    · cases h
                      exact (.step (rmtStart_within ..) rfl (.refl _ _))
                    · cases h
                      exact (mbCmd_within (.refl _ _) rfl (fun s1 h1 => (.step (mbEnd_within ..) rfl (.step (sf_within ..) rfl h1))))
                · try dsimp only at h
                  split at h
                  · cases h
                    exact (.step (alarmRead_within ..) rfl (.refl _ _))
                  · cases h
                    exact (.step (alarmWrite_within ..) rfl (.refl _ _))
                  · cases h
                    exact (.step (alarmAck_within ..) rfl (.refl _ _))
                  · cases h

theorem mbCtrlWrite_within {s t mb be v} : Within [.regs, .bus, .evc, .flt, .trc, .swc, .brg, .lode, .host, .wtt, .ins, .dma, .cal, .gal, .outbox, .fresh] s (mbCtrlWrite s t mb be v) := by
  unfold mbCtrlWrite
  refine .ite ?_ ?_
  · exact (.refl _ _)
  · try dsimp only
    split
    · exact (.step (mbStart_eq (by assumption)) rfl (.refl _ _))
    · exact (.step (sf_within ..) rfl (.refl _ _))

theorem mbIndexWrite_within {s t mb be v} : Within [.regs] s (mbIndexWrite s t mb be v) := by
  unfold mbIndexWrite
  exact (.ite (.refl _ _) (.step (wreg_within ..) rfl (.refl _ _)))

theorem mbDataPut_within {s t mb k be v} : Within [.regs] s (mbDataPut s t mb k be v) := by
  unfold mbDataPut
  exact (.ite (.refl _ _) (.step (wreg_within ..) rfl (.step (sf_within ..) rfl (.refl _ _))))

theorem blockWrite_within {s t off be v} : Within [.regs, .modes, .core, .bus, .mem, .evc, .flt, .trc, .swc, .brg, .lode, .host, .wtt, .ins, .dma, .str, .age, .outbox, .fresh] s (blockWrite s t off be v) := by
  unfold blockWrite
  try dsimp only
  split
  · exact (.step (glbWrite_within ..) rfl (.refl _ _))
  · exact (.step (hptWrite_within ..) rfl (.refl _ _))
  · exact (.step (lnkWrite_within ..) rfl (.refl _ _))
  · exact (.step (wttWrite_within ..) rfl (.refl _ _))
  · exact (.step (evcWrite_within ..) rfl (.refl _ _))
  · exact (.step (fltWrite_within ..) rfl (.refl _ _))
  · exact (.step (calWrite_within ..) rfl (.refl _ _))
  · exact (.step (strWrite_within ..) rfl (.refl _ _))
  · exact (.ite (.step (chargeWrite_within ..) rfl (.refl _ _)) (.step (plainWrite_within ..) rfl (.refl _ _)))
  · exact (.step (plainWrite_within ..) rfl (.refl _ _))

theorem post_within {s t dom p} : Within [.bus] s (post s t dom p) := by
  unfold post
  exact (.step (upd_bus ..) rfl (.refl _ _))

theorem indWrite_within {s t off be v} : Within [.regs, .bus] s (indWrite s t off be v) := by
  unfold indWrite
  exact (.step (wreg_within ..) rfl (.ite (.step (post_within ..) rfl (.refl _ _)) (.refl _ _)))

theorem busEffect_within {s t off be v} : Within [.regs, .modes, .core, .bus, .mem, .evc, .flt, .trc, .swc, .brg, .lode, .host, .wtt, .ins, .dma, .str, .cal, .age, .gal, .outbox, .fresh] s (busEffect s t off be v) := by
  unfold busEffect
  refine .ite ?_ ?_
  · exact (.refl _ _)
  · refine .ite ?_ ?_
    · exact (.step (mgrTableWrite_within ..) rfl (.refl _ _))
    · refine .ite ?_ ?_
      · exact (.step (indWrite_within ..) rfl (.refl _ _))
      · try dsimp only
        split
        · exact (.step (mbDataPut_within ..) rfl (.refl _ _))
        · exact (.ite (.step (mbCtrlWrite_within ..) rfl (.refl _ _)) (.step (mbIndexWrite_within ..) rfl (.refl _ _)))
        · exact (.step (blockWrite_within ..) rfl (.refl _ _))

theorem busWrite_within {s t off be v} : Within [.regs, .modes, .core, .bus, .mem, .evc, .flt, .trc, .swc, .brg, .lode, .host, .wtt, .ins, .dma, .str, .cal, .age, .gal, .outbox, .fresh] s (busWrite s t off be v) := by
  unfold busWrite
  exact (.ite (.refl _ _) (.ite (.step (reservedWrite_within ..) rfl (.refl _ _)) (.ite (.step (busEffect_within ..) rfl (.refl _ _)) (.step (post_within ..) rfl (.refl _ _)))))

theorem postedEffect_within {s t p} : Within [.regs, .modes, .core, .bus, .mem, .evc, .flt, .trc, .swc, .brg, .lode, .host, .wtt, .ins, .dma, .str, .cal, .age, .gal, .outbox, .fresh] s (postedEffect s t p) := by
  unfold postedEffect
  try dsimp only
  split
  · exact (.step (busEffect_within ..) rfl (.refl _ _))
  · refine optGetD (fun _ h => .step (pageWrite_eq h) rfl ?_) ?_
    · exact (.refl _ _)
    · exact (.refl _ _)
  · exact (.step (doorbell64_within ..) rfl (.refl _ _))
  · exact (.step (localWrite_within ..) rfl (.refl _ _))
  · exact (.step (writeTrim_within ..) rfl (.refl _ _))

theorem crossHead_within {s t dom} : Within [.regs, .modes, .core, .bus, .mem, .evc, .flt, .trc, .swc, .brg, .lode, .host, .wtt, .ins, .dma, .str, .cal, .age, .gal, .outbox, .fresh] s (crossHead s t dom) := by
  unfold crossHead
  try dsimp only
  split
  · exact (.refl _ _)
  · exact (.step (postedEffect_within ..) rfl (.step (upd_bus ..) rfl (.refl _ _)))

theorem crossAll_within {s t dom} : Within [.regs, .modes, .core, .bus, .mem, .evc, .flt, .trc, .swc, .brg, .lode, .host, .wtt, .ins, .dma, .str, .cal, .age, .gal, .outbox, .fresh] s (crossAll s t dom) := by
  unfold crossAll
  exact (.foldl _ (fun s1 _ h1 => (.step (crossHead_within ..) rfl h1)) (.refl _ _))

theorem busReach_within {l a s t k} (h : Within l a s) (hs : Grp.sub [.regs] l = true) (hk : Within l a k) :
    Within l a (busReach s t k) := by
  unfold busReach
  exact .ite h (.ite ((Within.step discDown_within rfl (.refl [.regs] s)).step hs h) hk)

end Sys2Proof.Laws
end

