-- ==== Sys2Proof/Laws/FrameBusRead.lean ====
section
/-! SUPPORT. What the operations of Machine/BusRead.lean may change: one lemma for each. -/

namespace Sys2Proof.Laws

open Sys2Proof Sys2Proof.Machine

theorem tvCorrect_within {s t off v} : Within [.regs, .bus] s (tvCorrect s t off v) := by
  unfold tvCorrect
  exact (.step (wreg_within ..) rfl (.step (cf_within ..) rfl (.step (upd_bus ..) rfl (.step (wreg_within ..) rfl (.refl _ _)))))

theorem tvVote_within {s t off} : Within [.regs, .modes, .core, .bus, .mem, .evc, .flt, .trc, .swc, .brg, .lode, .host, .wtt, .ins, .dma, .outbox, .fresh] s (tvVote s t off).2 := by
  unfold tvVote
  try dsimp only
  split
  · try dsimp only
    exact (.refl _ _)
  · try dsimp only
    try dsimp only
    split
    · try dsimp only
      exact (.step (upd_bus ..) rfl (.refl _ _))
    · try dsimp only
      try dsimp only
      split
      · try dsimp only
        exact (.step (tvCorrect_within ..) rfl (.refl _ _))
      · try dsimp only
        try dsimp only
        split
        · try dsimp only
          exact (.step (tvCorrect_within ..) rfl (.refl _ _))
        · try dsimp only
          exact (.step (recordFault_within ..) rfl (.step (cf_within ..) rfl (.refl _ _)))

theorem tvVote_eq {s t off v₁ s'} (he : tvVote s t off = (v₁, s')) : Within [.regs, .modes, .core, .bus, .mem, .evc, .flt, .trc, .swc, .brg, .lode, .host, .wtt, .ins, .dma, .outbox, .fresh] s s' := by
  have e := tvVote_within (s := s) (t := t) (off := off)
  rw [he] at e
  exact e

theorem tvScrub_within {s t} : Within [.regs, .modes, .core, .bus, .mem, .evc, .flt, .trc, .swc, .brg, .lode, .host, .wtt, .ins, .dma, .outbox, .fresh] s (tvScrub s t) := by
  unfold tvScrub
  exact (.foldl _ (fun s1 _ h1 => (.step (tvVote_within ..) rfl h1)) (.refl _ _))

theorem ixRead_within {s t off} : Within [.regs, .fresh] s (ixRead s t off).2 := by
  unfold ixRead
  try dsimp only
  split
  · try dsimp only
    exact (.step (wreg_within ..) rfl (.refl _ _))
  · try dsimp only
    exact (.step (wreg_within ..) rfl (.refl _ _))
  · try dsimp only
    exact (.step (wreg_within ..) rfl (.refl _ _))
  · try dsimp only
    exact (.step (wreg_within ..) rfl (.step (tickFresh_within ..) rfl (.refl _ _)))

theorem ixRead_eq {s t off v₁ s'} (he : ixRead s t off = (v₁, s')) : Within [.regs, .fresh] s s' := by
  have e := ixRead_within (s := s) (t := t) (off := off)
  rw [he] at e
  exact e

theorem busRead_within {s t off} : Within [.regs, .modes, .core, .bus, .mem, .evc, .flt, .trc, .swc, .brg, .lode, .host, .wtt, .ins, .dma, .outbox, .fresh] s (busRead s t off).2 := by
  unfold busRead
  try dsimp only
  split
  · try dsimp only
    exact (.refl _ _)
  · try dsimp only
    try dsimp only
    split
    · try dsimp only
      exact (.refl _ _)
    · try dsimp only
      try dsimp only
      split
      · try dsimp only
        exact (.refl _ _)
      · try dsimp only
        try dsimp only
        split
        · try dsimp only
          exact (.step (tvVote_within ..) rfl (.refl _ _))
        · try dsimp only
          try dsimp only
          split
          · try dsimp only
            exact (.step (ixRead_within ..) rfl (.refl _ _))
          · try dsimp only
            try dsimp only
            split
            · try dsimp only
              exact (.step (pendRead_within ..) rfl (.refl _ _))
            · try dsimp only
              try dsimp only
              split
              · try dsimp only
                exact (.step (sf_within ..) rfl (.refl _ _))
              · try dsimp only
                exact (.refl _ _)

theorem busRead_eq {s t off v₁ s'} (he : busRead s t off = (v₁, s')) : Within [.regs, .modes, .core, .bus, .mem, .evc, .flt, .trc, .swc, .brg, .lode, .host, .wtt, .ins, .dma, .outbox, .fresh] s s' := by
  have e := busRead_within (s := s) (t := t) (off := off)
  rw [he] at e
  exact e

theorem busReadNow_within {s t off} : Within [.regs, .modes, .core, .bus, .mem, .evc, .flt, .trc, .swc, .brg, .lode, .host, .wtt, .ins, .dma, .str, .cal, .age, .gal, .outbox, .fresh] s (busReadNow s t off).2 := by
  unfold busReadNow
  exact (.step (busRead_within ..) rfl (.ite (.step (crossAll_within ..) rfl (.step (crossAll_within ..) rfl (.refl _ _))) (.step (crossAll_within ..) rfl (.refl _ _))))

theorem busReadNow_eq {s t off v₁ s'} (he : busReadNow s t off = (v₁, s')) : Within [.regs, .modes, .core, .bus, .mem, .evc, .flt, .trc, .swc, .brg, .lode, .host, .wtt, .ins, .dma, .str, .cal, .age, .gal, .outbox, .fresh] s s' := by
  have e := busReadNow_within (s := s) (t := t) (off := off)
  rw [he] at e
  exact e

theorem readAnswer_within {s t off} : Within [.regs, .modes, .core, .bus, .mem, .evc, .flt, .trc, .swc, .brg, .lode, .host, .wtt, .ins, .dma, .str, .cal, .age, .gal, .outbox, .fresh] s (readAnswer s t off) := by
  unfold readAnswer
  exact (.step (emit_within ..) rfl (.step (busReadNow_within ..) rfl (.refl _ _)))

theorem busOpen_within {l a s t k} (h : Within l a s) (hk : Within l a k) : Within l a (busOpen s t k) := by
  unfold busOpen
  exact .ite h hk

end Sys2Proof.Laws
end

