-- ==== Sys2Proof/Laws/FramePage.lean ====
section
/-! SUPPORT. What the operations of Machine/Page.lean may change: one lemma for each. -/

namespace Sys2Proof.Laws

open Sys2Proof Sys2Proof.Machine

theorem readSeries_within {l rd n a s} (h : ∀ x b, Within l x (rd x b).2) : Within l s (readSeries rd n a s).2 := by
  induction n generalizing s a with
  | zero => exact .refl _ _
  | succ n ih =>
    unfold readSeries
    exact (h s a).trans ih

theorem ctlSpaceRead_within {s a} : Within [.regs, .modes, .core, .bus, .mem, .evc, .flt, .trc, .swc, .brg, .lode, .host, .wtt, .ins, .dma, .str, .cal, .age, .gal, .outbox, .fresh] s (ctlSpaceRead s a).2 := by
  unfold ctlSpaceRead
  try dsimp only
  split
  · try dsimp only
    exact (.step (busReadNow_within ..) rfl (.refl _ _))
  · try dsimp only
    exact (.refl _ _)

theorem ctlSpaceRead_eq {s a v₁ s'} (he : ctlSpaceRead s a = (v₁, s')) : Within [.regs, .modes, .core, .bus, .mem, .evc, .flt, .trc, .swc, .brg, .lode, .host, .wtt, .ins, .dma, .str, .cal, .age, .gal, .outbox, .fresh] s s' := by
  have e := ctlSpaceRead_within (s := s) (a := a)
  rw [he] at e
  exact e

theorem ctlSpaceWrite_within {s a be v} : Within [.regs, .modes, .core, .bus, .mem, .evc, .flt, .trc, .swc, .brg, .lode, .host, .wtt, .ins, .dma, .str, .cal, .age, .gal, .outbox, .fresh] s (ctlSpaceWrite s a be v) := by
  unfold ctlSpaceWrite
  exact (.ite (.refl _ _) (.ite (.step (discDown_within ..) rfl (.refl _ _)) (.step (busWrite_within ..) rfl (.refl _ _))))

theorem countRefused_within {s a kind} : Within [.regs] s (countRefused s a kind) := by
  unfold countRefused
  exact (.ite (.refl _ _) (.step (wreg_within ..) rfl (.ite (.step (cf_within ..) rfl (.refl _ _)) (.ite (.step (cf_within ..) rfl (.refl _ _)) (.step (cf_within ..) rfl (.refl _ _))))))

theorem abortReq_within {s r f} : Within [.regs, .host, .outbox, .fresh] s (abortReq s r f) := by
  unfold abortReq
  exact (.step (aerLog_within ..) rfl (.step (emit_within ..) rfl (.refl _ _)))

theorem unsupported_within {s r f} : Within [.regs, .host, .outbox, .fresh] s (unsupported s r f) := by
  unfold unsupported
  exact (.ite (.step (aerLog_within ..) rfl (.step (emit_within ..) rfl (.refl _ _))) (.step (aerLog_within ..) rfl (.refl _ _)))

theorem notLive_within {s r f} : Within [.regs, .host, .outbox, .fresh] s (notLive s r f) := by
  unfold notLive
  exact (.ite (.step (abortReq_within ..) rfl (.refl _ _)) (.step (cf_within ..) rfl (.refl _ _)))

theorem sendHost_within {s r f i x b dstTile dstPort a len glob posts cargo} : Within [.swc, .brg, .host] s (sendHost s r f i x b dstTile dstPort a len glob posts cargo) := by
  unfold sendHost
  refine .ite ?_ ?_
  · exact (.refl _ _)
  · try dsimp only
    refine .step (enter_within ..) rfl ?_
    refine .ite ?_ ?_
    · refine .step (notePosted_within ..) rfl ?_
      try dsimp only
      split
      · exact (.step (upd_host ..) rfl (.step (newSerial_within ..) rfl (.refl _ _)))
      · exact (.step (newSerial_within ..) rfl (.refl _ _))
    · try dsimp only
      split
      · exact (.step (upd_host ..) rfl (.step (newSerial_within ..) rfl (.refl _ _)))
      · exact (.step (newSerial_within ..) rfl (.refl _ _))

theorem zeroCpl_within {s r} : Within [.outbox] s (zeroCpl s r) := by
  unfold zeroCpl
  exact (.foldl _ (fun s1 _ h1 => (.step (emit_within ..) rfl h1)) (.refl _ _))

theorem toControl_within {s r f x} : Within [.regs, .swc, .brg, .host, .outbox, .fresh] s (toControl s r f x) := by
  unfold toControl
  refine .ite ?_ ?_
  · exact (.ite (.step (zeroCpl_within ..) rfl (.refl _ _)) (.refl _ _))
  · refine .ite ?_ ?_
    · try dsimp only
      split
      · exact (.ite (.step (abortReq_within ..) rfl (.refl _ _)) (.refl _ _))
      · exact (.ite (.step (zeroCpl_within ..) rfl (.refl _ _)) (.refl _ _))
    · exact (.step (sendHost_within ..) rfl (.refl _ _))

theorem toPage_within {s r f i x} : Within [.regs, .swc, .brg, .host, .outbox, .fresh] s (toPage s r f i x) := by
  unfold toPage
  try dsimp only
  split
  · exact (.ite (.step (abortReq_within ..) rfl (.step (cf_within ..) rfl (.refl _ _))) (.step (cf_within ..) rfl (.refl _ _)))
  · exact (.step (sendHost_within ..) rfl (.refl _ _))

theorem toWindow_within {s r f i b x} : Within [.swc, .brg, .host] s (toWindow s r f i b x) := by
  unfold toWindow
  exact (.step (sendHost_within ..) rfl (.refl _ _))

theorem toFunction_within {s r f b x} : Within [.regs, .swc, .brg, .host, .outbox, .fresh] s (toFunction s r f b x) := by
  unfold toFunction
  refine .ite ?_ ?_
  · exact (.step (abortReq_within ..) rfl (.ite (.step (countRefused_within ..) rfl (.refl _ _)) (.step (cf_within ..) rfl (.refl _ _))))
  · refine .ite ?_ ?_
    · exact (.step (unsupported_within ..) rfl (.refl _ _))
    · refine .ite ?_ ?_
      · exact (.step (toControl_within ..) rfl (.refl _ _))
      · try dsimp only
        split
        · exact (.step (notLive_within ..) rfl (.refl _ _))
        · exact (.ite (.step (notLive_within ..) rfl (.refl _ _)) (.ite (.step (toPage_within ..) rfl (.refl _ _)) (.ite (.step (notLive_within ..) rfl (.refl _ _)) (.step (toWindow_within ..) rfl (.refl _ _)))))

theorem hostRequest_within {s r} : Within [.regs, .swc, .brg, .host, .outbox, .fresh] s (hostRequest s r) := by
  unfold hostRequest
  refine .ite ?_ ?_
  · exact (.refl _ _)
  · try dsimp only
    split
    · exact (.step (aerLog_within ..) rfl (.step (leaveL1_within ..) rfl (.refl _ _)))
    · try dsimp only
      split
      · exact (.step (unsupported_within ..) rfl (.step (leaveL1_within ..) rfl (.refl _ _)))
      · exact (.step (toFunction_within ..) rfl (.step (leaveL1_within ..) rfl (.refl _ _)))

theorem mgmtRsp_within {s t f status data} : Within [.swc, .brg, .lode, .wtt] s (mgmtRsp s t f status data) := by
  unfold mgmtRsp
  try dsimp only
  try dsimp only
  split
  · try dsimp only
    split
    · exact (.step (enter_within ..) rfl (.step (heldSent_within ..) rfl (.step (newSerial_within ..) rfl (.refl _ _))))
    · exact (.step (newSerial_within ..) rfl (.refl _ _))
  · exact (.step (enter_within ..) rfl (.step (newSerial_within ..) rfl (.refl _ _)))

theorem ctlAccess_within {s t f r} : Within [.regs, .modes, .core, .bus, .mem, .evc, .flt, .trc, .swc, .brg, .lode, .host, .wtt, .ins, .dma, .str, .cal, .age, .gal, .outbox, .fresh] s (ctlAccess s t f r) := by
  unfold ctlAccess
  try dsimp only
  split
  · exact (.ite (.step (countRefused_within ..) rfl (.refl _ _)) (.step (mgmtRsp_within ..) rfl (.step (countRefused_within ..) rfl (.refl _ _))))
  · exact (.ite (.foldl _ (fun s1 _ h1 => (.step (ctlSpaceWrite_within ..) rfl h1)) (.refl _ _)) (.step (mgmtRsp_within ..) rfl (.step (readSeries_within (l := [.regs, .modes, .core, .bus, .mem, .evc, .flt, .trc, .swc, .brg, .lode, .host, .wtt, .ins, .dma, .str, .cal, .age, .gal, .outbox, .fresh]) (fun _ _ => .step ctlSpaceRead_within rfl (.refl _ _))) rfl (.refl _ _))))

theorem pageReadNow_within {s i o} : Within [.regs, .modes, .core, .bus, .mem, .evc, .flt, .trc, .swc, .brg, .lode, .host, .wtt, .ins, .dma, .str, .cal, .age, .gal, .outbox, .fresh] s (pageReadNow s i o).2 := by
  unfold pageReadNow
  exact (.step (pageRead_within ..) rfl (.step (crossAll_within ..) rfl (.refl _ _)))

theorem pageReadNow_eq {s i o v₁ s'} (he : pageReadNow s i o = (v₁, s')) : Within [.regs, .modes, .core, .bus, .mem, .evc, .flt, .trc, .swc, .brg, .lode, .host, .wtt, .ins, .dma, .str, .cal, .age, .gal, .outbox, .fresh] s s' := by
  have e := pageReadNow_within (s := s) (i := i) (o := o)
  rw [he] at e
  exact e

theorem pagePost_within {s r o be v} : Within [.regs, .bus, .evc, .trc, .swc, .brg, .host, .ins, .dma] s (pagePost s r o be v) := by
  unfold pagePost
  exact (.ite (.step (post_within ..) rfl (.refl _ _)) (.step (cf_within ..) rfl (.refl _ _)))

theorem pageWrites_within {s r} : Within [.regs, .bus, .evc, .trc, .swc, .brg, .host, .ins, .dma] s (pageWrites s r) := by
  unfold pageWrites
  exact (.ite (.ite (.step (post_within ..) rfl (.refl _ _)) (.step (cf_within ..) rfl (.refl _ _))) (.foldl _ (fun s1 _ h1 => (.step (pagePost_within ..) rfl h1)) (.refl _ _)))

theorem pageAccess_within {s t f r} : Within [.regs, .modes, .core, .bus, .mem, .evc, .flt, .trc, .swc, .brg, .lode, .host, .wtt, .ins, .dma, .str, .cal, .age, .gal, .outbox, .fresh] s (pageAccess s t f r) := by
  unfold pageAccess
  exact (.ite (.step (pageWrites_within ..) rfl (.refl _ _)) (.step (mgmtRsp_within ..) rfl (.step (readSeries_within (l := [.regs, .modes, .core, .bus, .mem, .evc, .flt, .trc, .swc, .brg, .lode, .host, .wtt, .ins, .dma, .str, .cal, .age, .gal, .outbox, .fresh]) (fun _ _ => .step pageReadNow_within rfl (.refl _ _))) rfl (.refl _ _))))

theorem localAccess_within {s t f u n} : Within [.regs, .modes, .core, .bus, .mem, .evc, .flt, .trc, .swc, .brg, .lode, .host, .wtt, .ins, .dma, .str, .cal, .age, .gal, .outbox, .fresh] s (localAccess s t f u n) := by
  unfold localAccess
  exact (.ite (.step (post_within ..) rfl (.refl _ _)) (.step (mgmtRsp_within ..) rfl (.step (localRead_within ..) rfl (.step (crossAll_within ..) rfl (.refl _ _)))))

theorem mgmtAct_within {t s f} : Within [.regs, .modes, .core, .bus, .mem, .evc, .flt, .trc, .swc, .brg, .lode, .host, .wtt, .ins, .dma, .str, .cal, .age, .gal, .outbox, .fresh] s (mgmtAct t s f) := by
  unfold mgmtAct
  try dsimp only
  split
  · exact (.step (ctlAccess_within ..) rfl (.refl _ _))
  · exact (.step (pageAccess_within ..) rfl (.refl _ _))
  · exact (.step (localAccess_within ..) rfl (.refl _ _))
  · exact (.step (settle_within ..) rfl (.refl _ _))
  · exact (.step (settle_within ..) rfl (.refl _ _))
  · exact (.step (settle_within ..) rfl (.refl _ _))
  · exact (.step (settle_within ..) rfl (.refl _ _))

theorem mgmtRun_within {s t} : Within [.regs, .modes, .core, .bus, .mem, .evc, .flt, .trc, .swc, .brg, .lode, .host, .wtt, .ins, .dma, .str, .cal, .age, .gal, .outbox, .fresh] s (mgmtRun s t) := by
  unfold mgmtRun
  exact (.foldl _ (fun s1 _ h1 => (.step (mgmtAct_within ..) rfl h1)) (.step (upd_swc ..) rfl (.refl _ _)))

end Sys2Proof.Laws
end

