-- ==== Sys2Proof/Laws/FrameRegRows.lean ====
section
/-! SUPPORT. What the operations of Machine/RegRows.lean may change: one lemma for each. -/

namespace Sys2Proof.Laws

open Sys2Proof Sys2Proof.Machine

theorem regRow_within {l a s t off f} (h : Within l a s) (hs : Grp.sub [.regs, .modes, .core, .bus, .mem, .evc, .flt, .trc, .swc, .brg, .lode, .host, .wtt, .ins, .dma, .str, .cal, .age, .gal, .outbox, .fresh] l = true)
    (hf : ∀ x, Within l a x → Within l a (f x)) : Within l a (regRow s t off f) := by
  have e := hf _ ((Within.step crossAll_within rfl (.refl [.regs, .modes, .core, .bus, .mem, .evc, .flt, .trc, .swc, .brg, .lode, .host, .wtt, .ins, .dma, .str, .cal, .age, .gal, .outbox, .fresh] s)).step hs h (c := crossAll s t (blockDomain (off / 0x1000000))))
  unfold regRow
  exact busReach_within h (Grp.sub_trans (m := [.regs, .modes, .core, .bus, .mem, .evc, .flt, .trc, .swc, .brg, .lode, .host, .wtt, .ins, .dma, .str, .cal, .age, .gal, .outbox, .fresh]) rfl hs) (.ite e h)

theorem readRow_within {l a s t off f} (h : Within l a s) (hs : Grp.sub [.regs, .modes, .core, .bus, .mem, .evc, .flt, .trc, .swc, .brg, .lode, .host, .wtt, .ins, .dma, .str, .cal, .age, .gal, .outbox, .fresh] l = true)
    (hf : ∀ x, Within l a x → Within l a (f x)) : Within l a (readRow s t off f) := by
  have e := hf _ ((Within.step crossAll_within rfl (.refl [.regs, .modes, .core, .bus, .mem, .evc, .flt, .trc, .swc, .brg, .lode, .host, .wtt, .ins, .dma, .str, .cal, .age, .gal, .outbox, .fresh] s)).step hs h (c := crossAll s t (blockDomain (off / 0x1000000))))
  unfold readRow
  exact busOpen_within h (.ite e h)

theorem pageRow_within {l a s i dom f} (h : Within l a s) (hs : Grp.sub [.regs, .modes, .core, .bus, .mem, .evc, .flt, .trc, .swc, .brg, .lode, .host, .wtt, .ins, .dma, .str, .cal, .age, .gal, .outbox, .fresh] l = true)
    (hf : ∀ x, Within l a x → Within l a (f x)) : Within l a (pageRow s i dom f) := by
  unfold pageRow
  split
  · exact .ite (hf _ ((Within.step crossAll_within rfl (.refl [.regs, .modes, .core, .bus, .mem, .evc, .flt, .trc, .swc, .brg, .lode, .host, .wtt, .ins, .dma, .str, .cal, .age, .gal, .outbox, .fresh] s)).step hs h))
      ((Within.step cf_within rfl (.refl [.regs, .modes, .core, .bus, .mem, .evc, .flt, .trc, .swc, .brg, .lode, .host, .wtt, .ins, .dma, .str, .cal, .age, .gal, .outbox, .fresh] s)).step hs h)
  · exact h

theorem slotRow_within {l a s i q f} (h : Within l a s) (hs : Grp.sub [.regs, .modes, .core, .bus, .mem, .evc, .flt, .trc, .swc, .brg, .lode, .host, .wtt, .ins, .dma, .str, .cal, .age, .gal, .outbox, .fresh] l = true)
    (hf : ∀ x, Within l a x → Within l a (f x)) : Within l a (slotRow s i q f) := by
  unfold slotRow
  refine pageRow_within h (Grp.sub_trans (m := [.regs, .modes, .core, .bus, .mem, .evc, .flt, .trc, .swc, .brg, .lode, .host, .wtt, .ins, .dma, .str, .cal, .age, .gal, .outbox, .fresh]) rfl hs) (fun x hx => .ite (hf _ hx) ?_)
  split
  · exact (Within.step cf_within rfl (.refl [.regs, .modes, .core, .bus, .mem, .evc, .flt, .trc, .swc, .brg, .lode, .host, .wtt, .ins, .dma, .str, .cal, .age, .gal, .outbox, .fresh] x)).step hs hx
  · exact hx

theorem queueRow_within {l a s t q f} (h : Within l a s) (hs : Grp.sub [.regs, .modes, .core, .bus, .mem, .evc, .flt, .trc, .swc, .brg, .lode, .host, .wtt, .ins, .dma, .str, .cal, .age, .gal, .outbox, .fresh] l = true)
    (hf : ∀ x, Within l a x → Within l a (f x)) : Within l a (queueRow s t q f) := by
  unfold queueRow
  split
  · exact pageRow_within h (Grp.sub_trans (m := [.regs, .modes, .core, .bus, .mem, .evc, .flt, .trc, .swc, .brg, .lode, .host, .wtt, .ins, .dma, .str, .cal, .age, .gal, .outbox, .fresh]) rfl hs) hf
  · exact h

end Sys2Proof.Laws
end

