-- ==== Sys2Proof/Laws/FrameRemote.lean ====
section
/-! SUPPORT. What the operations of Machine/Remote.lean may change: one lemma for each. -/

namespace Sys2Proof.Laws

open Sys2Proof Sys2Proof.Machine

theorem writeInForce_within {s t off w} : Within [.regs, .modes, .core, .bus, .mem, .evc, .flt, .trc, .swc, .brg, .lode, .host, .wtt, .ins, .dma, .str, .cal, .age, .gal, .outbox, .fresh] s (writeInForce s t off w) := by
  unfold writeInForce
  exact (.ite (.step (crossAll_within ..) rfl (.step (crossAll_within ..) rfl (.step (busWrite_within ..) rfl (.refl _ _)))) (.step (crossAll_within ..) rfl (.step (busWrite_within ..) rfl (.refl _ _))))

theorem remoteReads_within {n a s} : Within [.regs, .modes, .core, .bus, .mem, .evc, .flt, .trc, .swc, .brg, .lode, .host, .wtt, .ins, .dma, .str, .cal, .age, .gal, .outbox, .fresh] s (remoteReads n a s).1 := by
  induction n generalizing a s with
  | zero => exact .refl _ _
  | succ n ih =>
    unfold remoteReads
    try dsimp only
    split
    · exact .refl _ _
    · split
      · exact .trans (.step busReadNow_within rfl (.refl _ _)) ih
      · exact ih

theorem remoteWrites_within {rm ws a s} : Within [.regs, .modes, .core, .bus, .mem, .evc, .flt, .trc, .swc, .brg, .lode, .host, .wtt, .ins, .dma, .str, .cal, .age, .gal, .outbox, .fresh] s (remoteWrites rm ws a s).1 := by
  induction ws generalizing a s with
  | nil => exact .refl _ _
  | cons w r ih =>
    unfold remoteWrites
    try dsimp only
    split
    · exact .refl _ _
    · exact .trans (.ite (.refl _ _) (.step (writeInForce_within ..) rfl (.refl _ _))) ih

theorem distImg_within {s off data} : Within [.regs, .mem] s (distImg s off data).1 := by
  unfold distImg
  try dsimp only
  split
  · try dsimp only
    exact (.refl _ _)
  · try dsimp only
    try dsimp only
    split
    · try dsimp only
      exact (.refl _ _)
    · try dsimp only
      exact (.foldl _ (fun s1 _ h1 => (.step (imgWrite_within ..) rfl h1)) (.step (wreg_within ..) rfl (.refl _ _)))

theorem distImg_eq {s off data v₁ v₂ s'} (he : distImg s off data = (s', v₁, v₂)) : Within [.regs, .mem] s s' := by
  have e := distImg_within (s := s) (off := off) (data := data)
  rw [he] at e
  exact e

theorem headframeOp_within {s op c off data} : Within [.mem, .gal] s (headframeOp s op c off data).1 := by
  unfold headframeOp
  try dsimp only
  split
  · try dsimp only
    try dsimp only
    split
    · try dsimp only
      exact (.step (upd_gal ..) rfl (.refl _ _))
    · try dsimp only
      exact (.refl _ _)
  · try dsimp only
    try dsimp only
    split
    · try dsimp only
      exact (.refl _ _)
    · try dsimp only
      try dsimp only
      split
      · try dsimp only
        exact (.step (upd_gal ..) rfl (.step (flashErase_within ..) rfl (.refl _ _)))
      · try dsimp only
        exact (.step (flashWrite_within ..) rfl (.refl _ _))

theorem headframeOp_eq {s op c off data v₁ v₂ s'} (he : headframeOp s op c off data = (s', v₁, v₂)) : Within [.mem, .gal] s s' := by
  have e := headframeOp_within (s := s) (op := op) (c := c) (off := off) (data := data)
  rw [he] at e
  exact e

theorem serveReq_within {s remote x} : Within [.regs, .modes, .core, .bus, .mem, .evc, .flt, .trc, .swc, .brg, .lode, .host, .wtt, .ins, .dma, .str, .cal, .age, .gal, .outbox, .fresh] s (serveReq s remote x).1 := by
  unfold serveReq
  try dsimp only
  split
  · try dsimp only
    exact (.step (remoteReads_within ..) rfl (.refl _ _))
  · try dsimp only
    exact (.step (remoteWrites_within ..) rfl (.refl _ _))
  · try dsimp only
    exact (.step (distImg_within ..) rfl (.refl _ _))
  · try dsimp only
    exact (.step (headframeOp_within ..) rfl (.refl _ _))

theorem serveReq_eq {s remote x v₁ v₂ s'} (he : serveReq s remote x = (s', v₁, v₂)) : Within [.regs, .modes, .core, .bus, .mem, .evc, .flt, .trc, .swc, .brg, .lode, .host, .wtt, .ins, .dma, .str, .cal, .age, .gal, .outbox, .fresh] s s' := by
  have e := serveReq_within (s := s) (remote := remote) (x := x)
  rw [he] at e
  exact e

theorem takeRequest_within {s f} : Within [.regs, .modes, .core, .bus, .mem, .evc, .flt, .trc, .swc, .brg, .lode, .host, .wtt, .ins, .dma, .str, .cal, .age, .gal, .outbox, .fresh] s (takeRequest s f) := by
  have e : ∀ (p : Prop) [Decidable p] (y : State) (x : Rmt), Within [.regs, .modes, .core, .bus, .mem, .evc, .flt, .trc, .swc, .brg, .lode, .host, .wtt, .ins, .dma, .str, .cal, .age, .gal, .outbox, .fresh] s y →
      Within [.regs, .modes, .core, .bus, .mem, .evc, .flt, .trc, .swc, .brg, .lode, .host, .wtt, .ins, .dma, .str, .cal, .age, .gal, .outbox, .fresh] s (if p then serveReq y true x else ((y, whyNotAccepted, []) : Served)).1 := by
    intro p _ y x h
    split
    · exact .step serveReq_within rfl h
    · exact h
  unfold takeRequest
  exact .step ringSend_within rfl (e _ _ _ (.step cf_within rfl (.refl _ _)))

theorem takeFrame_within {s f} : Within [.regs, .modes, .core, .bus, .mem, .evc, .flt, .trc, .swc, .brg, .lode, .host, .wtt, .ins, .dma, .str, .cal, .age, .gal, .outbox, .fresh] s (takeFrame s f) := by
  unfold takeFrame
  exact (.ite (.step (takeHello_within ..) rfl (.refl _ _)) (.ite (.refl _ _) (.ite (.ite (.step (upd_gal ..) rfl (.refl _ _)) (.refl _ _)) (.ite (.step (takeResponse_within ..) rfl (.refl _ _)) (.step (takeRequest_within ..) rfl (.refl _ _))))))

theorem noteTaken_within {s f} : Within [.gal] s (noteTaken s f) := by
  unfold noteTaken
  exact (.step (upd_gal ..) rfl (.refl _ _))

theorem ringReceive_within {s ringB bytes} : Within [.regs, .modes, .core, .bus, .mem, .evc, .flt, .trc, .swc, .brg, .lode, .host, .wtt, .ins, .dma, .str, .cal, .age, .gal, .outbox, .fresh] s (ringReceive s ringB bytes) := by
  unfold ringReceive
  exact (.ite (.refl _ _) (.ite (.step (cf_within ..) rfl (.refl _ _)) (.ite (.ite (.refl _ _) (.step (setGalBit_within ..) rfl (.refl _ _))) (.ite (.refl _ _) (.ite (.ite (.step (emit_within ..) rfl (.refl _ _)) (.refl _ _)) (.ite (.step (cf_within ..) rfl (.ite (.step (emit_within ..) rfl (.refl _ _)) (.refl _ _))) (.step (takeFrame_within ..) rfl (.step (noteTaken_within ..) rfl (.ite (.step (emit_within ..) rfl (.refl _ _)) (.refl _ _))))))))))

theorem serveLocal_within {s m} : Within [.regs, .modes, .core, .bus, .mem, .evc, .flt, .trc, .swc, .brg, .lode, .host, .wtt, .ins, .dma, .str, .cal, .age, .gal, .outbox, .fresh] s (serveLocal s m) := by
  unfold serveLocal
  try dsimp only
  split
  · exact (.ite (.step (rmtEnd_within ..) rfl (.step (serveReq_within ..) rfl (.refl _ _))) (.refl _ _))
  · exact (.refl _ _)

theorem commandEnd_within {s t mb} : Within [.regs, .modes, .core, .bus, .mem, .evc, .flt, .trc, .swc, .brg, .lode, .host, .wtt, .ins, .dma, .str, .cal, .age, .gal, .outbox, .fresh] s (commandEnd s t mb) := by
  unfold commandEnd
  exact (.ite (.refl _ _) (.ite (.step (insMbFinish_within ..) rfl (.refl _ _)) (.ite (.ite (.refl _ _) (.ite (.step (evt_within ..) rfl (.step (mbFinish_within ..) rfl (.step (serveLocal_within ..) rfl (.refl _ _)))) (.step (mbFinish_within ..) rfl (.step (serveLocal_within ..) rfl (.refl _ _))))) (.step (mbFinish_within ..) rfl (.refl _ _)))))

end Sys2Proof.Laws
end

