-- ==== Sys2Proof/Laws/FrameTick.lean ====
section
/-! SUPPORT. What the operations of Machine/Tick.lean may change: one lemma for each. -/

namespace Sys2Proof.Laws

open Sys2Proof Sys2Proof.Machine

theorem refillTile_within {s t} : Within [.flt, .trc] s (refillTile s t) := by
  unfold refillTile
  exact (.step (upd_flt ..) rfl (.step (upd_trc ..) rfl (.refl _ _)))

theorem runDeadlines_within {s} : Within [.flt] s (runDeadlines s) := by
  unfold runDeadlines
  exact (.step (upd_flt ..) rfl (.refl _ _))

theorem maintMinute_within {s t} : Within [.regs, .age] s (maintMinute s t) := by
  unfold maintMinute
  exact (.ite (.refl _ _) (.ite (.step (upd_age ..) rfl (.refl _ _)) (.step (sf_within ..) rfl (.step (upd_age ..) rfl (.refl _ _)))))

theorem calendarTick_within {s} : Within [.cal, .gal, .outbox] s (calendarTick s) := by
  unfold calendarTick
  exact (.ite (.refl _ _) (.ite (.step (emit_within ..) rfl (.step (upd_gal ..) rfl (.step (upd_cal ..) rfl (.refl _ _)))) (.step (upd_cal ..) rfl (.refl _ _))))

theorem crystalTick_within {s} : Within [.regs, .evc, .flt, .trc, .cal, .age, .gal, .outbox, .ticks] s (crystalTick s) := by
  unfold crystalTick
  exact (.ite (.step (upd_ticks _ _ (Nat.le_succ _)) rfl (.step (calendarTick_within ..) rfl (.refl _ _))) (.foldl _ (fun s1 _ h1 => (.ite h1 (.step (evcRefresh_within ..) rfl (.step (maintMinute_within ..) rfl (.step (refillTile_within ..) rfl h1))))) (.step (runDeadlines_within ..) rfl (.step (upd_ticks _ _ (Nat.le_succ _)) rfl (.step (calendarTick_within ..) rfl (.refl _ _))))))

end Sys2Proof.Laws
end

