-- ==== Sys2Proof/Laws/FrameExec.lean ====
section
/-! SUPPORT. What the meanings of the commands may change: one lemma for each. -/

namespace Sys2Proof.Laws

open Sys2Proof Sys2Proof.Machine

theorem onUnit_next {b k s'} (h : onUnit b k = .next s') : s' = k := by
  unfold onUnit at h
  split at h
  · cases h; rfl
  · cases h

theorem onTile_next {s t k s'} (h : onTile s t k = .next s') : s' = k := by
  unfold onTile at h
  split at h
  · cases h; rfl
  · cases h

theorem onLink_next {s n k s'} (h : onLink s n k = .next s') : s' = k ∨ s' = s := by
  have e := onUnit_next h
  split at e
  · exact .inl e
  · exact .inr e

theorem execEventPinChange_within {t p level s s'} (h : execEventPinChange t p level s = .next s') : Within [.regs, .evc] s s' := by
  unfold execEventPinChange at h
  obtain rfl := onUnit_next h
  exact (.ite (.refl _ _) (.ite (.step (sf_within ..) rfl (.step (upd_evc ..) rfl (.refl _ _))) (.ite (.step (evcRefresh_within ..) rfl (.step (sf_within ..) rfl (.step (upd_evc ..) rfl (.refl _ _)))) (.ite (.step (edge_within ..) rfl (.step (sf_within ..) rfl (.step (upd_evc ..) rfl (.refl _ _)))) (.step (sf_within ..) rfl (.step (upd_evc ..) rfl (.refl _ _)))))))

theorem execEvcDelivery_within {t s s'} (h : execEvcDelivery t s = .next s') : Within [.regs, .evc, .swc, .brg] s s' := by
  unfold execEvcDelivery at h
  obtain rfl := onTile_next h
  exact (.step (evcDeliver_within ..) rfl (.refl _ _))

theorem execHoldoffExpiry_within {t g s s'} (h : execHoldoffExpiry t g s = .next s') : Within [.regs, .evc] s s' := by
  unfold execHoldoffExpiry at h
  obtain rfl := onUnit_next h
  exact (unfenced_within (.refl _ _) (.step (evcRefresh_within ..) rfl (.step (sf_within ..) rfl (.refl _ _))))

theorem execQueueResetComplete_within {t q s s'} (h : execQueueResetComplete t q s = .next s') : Within [.regs, .dma] s s' := by
  unfold execQueueResetComplete at h
  obtain rfl := onUnit_next h
  exact (unfenced_within (.refl _ _) (.step (queueResetEnd_within ..) rfl (.refl _ _)))

theorem execDescriptorFetch_within {t q s s'} (h : execDescriptorFetch t q s = .next s') : Within [.regs, .trc, .swc, .brg, .lode, .host, .wtt, .dma, .outbox, .fresh] s s' := by
  unfold execDescriptorFetch at h
  obtain rfl := onUnit_next h
  exact (unfenced_within (.refl _ _) (.step (fetch_within ..) rfl (.refl _ _)))

theorem execLocalRingPoll_within {t q s s'} (h : execLocalRingPoll t q s = .next s') : Within [.regs, .trc, .swc, .brg, .lode, .host, .wtt, .dma, .outbox, .fresh] s s' := by
  unfold execLocalRingPoll at h
  obtain rfl := onUnit_next h
  exact (unfenced_within (.refl _ _) (.step (poll_within ..) rfl (.refl _ _)))

theorem execDescriptorStart_within {t q s s'} (h : execDescriptorStart t q s = .next s') : Within [.regs, .dma] s s' := by
  unfold execDescriptorStart at h
  obtain rfl := onUnit_next h
  exact (unfenced_within (.refl _ _) (.step (startDesc_within ..) rfl (.refl _ _)))

theorem execCompletionEntryWrite_within {t q s s'} (h : execCompletionEntryWrite t q s = .next s') : Within [.regs, .evc, .trc, .swc, .brg, .lode, .host, .wtt, .ins, .dma, .outbox, .fresh] s s' := by
  unfold execCompletionEntryWrite at h
  obtain rfl := onUnit_next h
  exact (unfenced_within (.refl _ _) (.step (writeEntry_within ..) rfl (.refl _ _)))

theorem execReadIssue_within {t s s'} (h : execReadIssue t s = .next s') : Within [.regs, .trc, .swc, .brg, .lode, .host, .wtt, .dma, .outbox, .fresh] s s' := by
  unfold execReadIssue at h
  obtain rfl := onTile_next h
  exact (unfenced_within (.refl _ _) (.step (readIssue_within ..) rfl (.refl _ _)))

theorem execDmaUrgent_within {t q prio s s'} (h : execDmaUrgent t q prio s = .next s') : Within [.dma] s s' := by
  unfold execDmaUrgent at h
  obtain rfl := onUnit_next h
  exact (.ite (.refl _ _) (.step (upd_dma ..) rfl (.refl _ _)))

theorem execDrrEpoch_within {t s s'} (h : execDrrEpoch t s = .next s') : Within [.dma] s s' := by
  unfold execDrrEpoch at h
  obtain rfl := onTile_next h
  exact (unfenced_within (.refl _ _) (.step (drrEpoch_within ..) rfl (.refl _ _)))

theorem execDmaReadData_within {t s s'} (h : execDmaReadData t s = .next s') : Within [.regs, .trc, .dma] s s' := by
  unfold execDmaReadData at h
  obtain rfl := onTile_next h
  exact (unfenced_within (.refl _ _) (.step (readData_within ..) rfl (.refl _ _)))

theorem execDmaReadTimeout_within {t tag s s'} (h : execDmaReadTimeout t tag s = .next s') : Within [.regs, .trc, .dma] s s' := by
  unfold execDmaReadTimeout at h
  obtain rfl := onUnit_next h
  exact (unfenced_within (.refl _ _) (.step (readTimeout_within ..) rfl (.refl _ _)))

theorem execWriteIssue_within {t s s'} (h : execWriteIssue t s = .next s') : Within [.regs, .evc, .trc, .swc, .brg, .lode, .host, .wtt, .ins, .dma, .outbox, .fresh] s s' := by
  unfold execWriteIssue at h
  obtain rfl := onTile_next h
  exact (unfenced_within (.refl _ _) (.step (writeIssue_within ..) rfl (.refl _ _)))

theorem execWriteSettle_within {t s s'} (h : execWriteSettle t s = .next s') : Within [.regs, .trc, .dma] s s' := by
  unfold execWriteSettle at h
  obtain rfl := onTile_next h
  exact (unfenced_within (.refl _ _) (.step (writeSettle_within ..) rfl (.refl _ _)))

theorem execWriteSettleTimeout_within {t w s s'} (h : execWriteSettleTimeout t w s = .next s') : Within [.regs, .trc, .dma] s s' := by
  unfold execWriteSettleTimeout at h
  obtain rfl := onTile_next h
  exact (unfenced_within (.refl _ _) (.step (settleWrite_within ..) rfl (.refl _ _)))

theorem execDmaAbortReport_within {t s s'} (h : execDmaAbortReport t s = .next s') : Within [.regs, .trc, .swc, .brg, .lode, .host, .wtt, .dma, .outbox, .fresh] s s' := by
  unfold execDmaAbortReport at h
  obtain rfl := onTile_next h
  exact (unfenced_within (.refl _ _) (.step (abortReport_within ..) rfl (.refl _ _)))

theorem execQueueHalt_within {t q s s'} (h : execQueueHalt t q s = .next s') : Within [.regs, .evc, .trc, .dma] s s' := by
  unfold execQueueHalt at h
  obtain rfl := onUnit_next h
  exact (unfenced_within (.refl _ _) (.step (queueHalt_within ..) rfl (.refl _ _)))

theorem execInstanceReset_within {i s s'} (h : execInstanceReset i s = .next s') : Within [.regs, .flt, .trc, .swc, .brg, .lode, .host, .wtt, .ins, .dma, .outbox, .fresh] s s' := by
  unfold execInstanceReset at h
  obtain rfl := onUnit_next h
  exact (.step (startReset_within ..) rfl (.refl _ _))

theorem execInstanceResetStallEnd_within {i s s'} (h : execInstanceResetStallEnd i s = .next s') : Within [.regs, .trc, .swc, .brg, .lode, .host, .wtt, .ins, .dma, .outbox, .fresh] s s' := by
  unfold execInstanceResetStallEnd at h
  obtain rfl := onUnit_next h
  try dsimp only
  split
  · try dsimp only
    exact (.ite (.step (resetStall_within ..) rfl (.refl _ _)) (.refl _ _))
  · try dsimp only
    exact (.refl _ _)

theorem execInstanceResetDrainEnd_within {i s s'} (h : execInstanceResetDrainEnd i s = .next s') : Within [.regs, .bus, .evc, .trc, .swc, .brg, .host, .ins, .dma] s s' := by
  unfold execInstanceResetDrainEnd at h
  obtain rfl := onUnit_next h
  exact (.step (drainEnd_within ..) rfl (.refl _ _))

theorem execFrameArrival_within {t p s s'} (h : execFrameArrival t p s = .next s') : Within [.regs, .trc, .swc, .brg, .lode, .host, .wtt, .dma, .outbox, .fresh] s s' := by
  unfold execFrameArrival at h
  obtain rfl := onUnit_next h
  exact (.step (arrive_within ..) rfl (.refl _ _))

theorem execFrameAdmit_within {t p s s'} (h : execFrameAdmit t p s = .next s') : Within [.regs, .trc, .swc, .brg, .lode, .host, .wtt, .dma, .outbox, .fresh] s s' := by
  unfold execFrameAdmit at h
  obtain rfl := onUnit_next h
  exact (.step (admitWaiting_within ..) rfl (.refl _ _))

theorem execPoolTransfer_within {t f s s'} (h : execPoolTransfer t f s = .next s') : Within [.regs, .trc, .swc, .lode] s s' := by
  unfold execPoolTransfer at h
  obtain rfl := onTile_next h
  exact (.step (transfer_within ..) rfl (.refl _ _))

theorem execTransitForward_within {t out s s'} (h : execTransitForward t out s = .next s') : Within [.regs, .modes, .core, .mem, .evc, .flt, .trc, .swc, .brg, .lode, .host, .wtt, .ins, .dma, .outbox, .fresh] s s' := by
  unfold execTransitForward at h
  obtain rfl := onUnit_next h
  exact (.step (forwardTransit_within ..) rfl (.refl _ _))

theorem execQueueUrgent_within {t out inp cls s s'} (h : execQueueUrgent t out inp cls s = .next s') : Within [.swc] s s' := by
  unfold execQueueUrgent at h
  obtain rfl := onUnit_next h
  exact (.step (makeUrgent_within ..) rfl (.refl _ _))

theorem execFrameAgeExpiry_within {t out inp cls s s'} (h : execFrameAgeExpiry t out inp cls s = .next s') : Within [.regs, .trc, .swc, .brg, .lode, .host, .wtt, .dma, .outbox, .fresh] s s' := by
  unfold execFrameAgeExpiry at h
  obtain rfl := onUnit_next h
  exact (.step (ageHead_within ..) rfl (.refl _ _))

theorem execFrameAbort_within {t f ecc s s'} (h : execFrameAbort t f ecc s = .next s') : Within [.regs, .modes, .core, .mem, .evc, .flt, .trc, .swc, .brg, .lode, .host, .wtt, .ins, .dma, .outbox, .fresh] s s' := by
  unfold execFrameAbort at h
  obtain rfl := onTile_next h
  exact (.step (abortFrame_within ..) rfl (.refl _ _))

theorem execHoldRelease_within {id s s'} (h : execHoldRelease id s = .next s') : Within [.regs, .evc, .trc, .swc, .brg, .host] s s' := by
  unfold execHoldRelease at h
  cases h
  exact (.step (releaseHold_within ..) rfl (.refl _ _))

theorem execZeroLengthReadComplete_within {t n s s'} (h : execZeroLengthReadComplete t n s = .next s') : Within [.regs, .trc, .swc, .brg, .lode, .host, .wtt, .dma, .outbox, .fresh] s s' := by
  unfold execZeroLengthReadComplete at h
  obtain rfl := onUnit_next h
  exact (unfenced_within (.refl _ _) (.step (zeroDone_within ..) rfl (.refl _ _)))

theorem execHostRequestResolve_within {t read s s'} (h : execHostRequestResolve t read s = .next s') : Within [.regs, .modes, .core, .mem, .evc, .flt, .trc, .swc, .brg, .lode, .host, .wtt, .ins, .dma, .outbox, .fresh] s s' := by
  unfold execHostRequestResolve at h
  obtain rfl := onTile_next h
  exact (unfenced_within (.refl _ _) (.step (resolveNext_within ..) rfl (.refl _ _)))

theorem execPrefetchAgeExpiry_within {t k s s'} (h : execPrefetchAgeExpiry t k s = .next s') : Within [.regs, .trc, .host, .wtt] s s' := by
  unfold execPrefetchAgeExpiry at h
  obtain rfl := onUnit_next h
  try dsimp only
  split
  · try dsimp only
    exact (.ite (unfenced_within (.refl _ _) (.step (dropStream_within ..) rfl (.refl _ _))) (.refl _ _))
  · try dsimp only
    exact (.refl _ _)

theorem execFenceComplete_within {t s s'} (h : execFenceComplete t s = .next s') : Within [.regs, .trc, .wtt] s s' := by
  unfold execFenceComplete at h
  obtain rfl := onTile_next h
  exact (unfenced_within (.refl _ _) (.step (fenceEnd_within ..) rfl (.refl _ _)))

theorem execRestampComplete_within {t s s'} (h : execRestampComplete t s = .next s') : Within [.regs, .trc, .wtt, .fresh] s s' := by
  unfold execRestampComplete at h
  obtain rfl := onTile_next h
  exact (unfenced_within (.refl _ _) (.step (restampEnd_within ..) rfl (.refl _ _)))

theorem execFreezeComplete_within {i s s'} (h : execFreezeComplete i s = .next s') : Within [.bus, .ins] s s' := by
  unfold execFreezeComplete at h
  obtain rfl := onUnit_next h
  exact (unfenced_within (.refl _ _) (.step (freezeEnd_within ..) rfl (.refl _ _)))

theorem execLogClearComplete_within {i s s'} (h : execLogClearComplete i s = .next s') : Within [.regs, .bus, .ins] s s' := by
  unfold execLogClearComplete at h
  obtain rfl := onUnit_next h
  exact (unfenced_within (.refl _ _) (.step (logClearEnd_within ..) rfl (.refl _ _)))

theorem execDirtyLogEntryWrite_within {i s s'} (h : execDirtyLogEntryWrite i s = .next s') : Within [.swc, .brg, .ins] s s' := by
  unfold execDirtyLogEntryWrite at h
  obtain rfl := onUnit_next h
  exact (unfenced_within (.refl _ _) (.step (logDrain_within ..) rfl (.refl _ _)))

theorem execStrCommandDone_within {s s'} (h : execStrCommandDone s = .next s') : Within [.regs, .mem, .swc, .otp, .str, .fresh] s s' := by
  unfold execStrCommandDone at h
  cases h
  exact (.step (strDone_within ..) rfl (.refl _ _))

theorem execFlashCopyDone_within {s s'} (h : execFlashCopyDone s = .next s') : Within [.regs, .mem, .str] s s' := by
  unfold execFlashCopyDone at h
  cases h
  exact (.step (copyDone_within ..) rfl (.refl _ _))

theorem execConfigRequest_within {h f bus off wr s s'} (h : execConfigRequest h f bus off wr s = .next s') : Within [.regs, .evc, .flt, .trc, .swc, .brg, .lode, .host, .wtt, .ins, .dma, .outbox, .fresh] s s' := by
  unfold execConfigRequest at h
  obtain rfl | rfl := onLink_next h
  · exact (.step (configRequest_within ..) rfl (.refl _ _))
  · exact .refl _ _

theorem execDeviceReadinessStatus_within {h s s'} (h : execDeviceReadinessStatus h s = .next s') : Within [.host, .outbox] s s' := by
  unfold execDeviceReadinessStatus at h
  obtain rfl | rfl := onLink_next h
  · exact (.step (sayReady_within ..) rfl (.refl _ _))
  · exact .refl _ _

theorem execHostIssue_within {h s s'} (h : execHostIssue h s = .next s') : Within [.regs, .evc, .trc, .swc, .brg, .lode, .host, .wtt, .ins, .dma, .outbox, .fresh] s s' := by
  unfold execHostIssue at h
  obtain rfl | rfl := onLink_next h
  · exact (unfenced_within (.refl _ _) (.step (hostIssue_within ..) rfl (.refl _ _)))
  · exact .refl _ _

theorem execHostTagWait_within {t s s'} (h : execHostTagWait t s = .next s') : Within [.regs, .evc, .trc, .swc, .brg, .lode, .host, .wtt, .ins, .dma, .outbox, .fresh] s s' := by
  unfold execHostTagWait at h
  obtain rfl := onTile_next h
  exact (unfenced_within (.refl _ _) (.step (tagWaitGo_within ..) rfl (.refl _ _)))

theorem execHostCompletion_within {h c s s'} (h : execHostCompletion h c s = .next s') : Within [.regs, .trc, .swc, .brg, .lode, .host, .wtt, .dma, .outbox, .fresh] s s' := by
  unfold execHostCompletion at h
  obtain rfl | rfl := onLink_next h
  · exact (.ite (.step (takeCpl_within ..) rfl (.refl _ _)) (.refl _ _))
  · exact .refl _ _

theorem execHostReadTimeout_within {t e s s'} (h : execHostReadTimeout t e s = .next s') : Within [.regs, .trc, .swc, .brg, .lode, .host, .wtt, .dma, .outbox, .fresh] s s' := by
  unfold execHostReadTimeout at h
  obtain rfl := onUnit_next h
  exact (unfenced_within (.refl _ _) (.step (readExpires_within ..) rfl (.refl _ _)))

theorem execHostTagQuarantineEnd_within {t e s s'} (h : execHostTagQuarantineEnd t e s = .next s') : Within [.regs, .host, .dma] s s' := by
  unfold execHostTagQuarantineEnd at h
  obtain rfl := onUnit_next h
  exact (unfenced_within (.refl _ _) (.step (quarantineEnds_within ..) rfl (.refl _ _)))

theorem execMsixSend_within {i v s s'} (h : execMsixSend i v s = .next s') : Within [.regs, .evc, .host, .outbox] s s' := by
  unfold execMsixSend at h
  obtain rfl := onUnit_next h
  exact (.step (msixSend_within ..) rfl (.refl _ _))

theorem execAspmL1Entry_within {h s s'} (h : execAspmL1Entry h s = .next s') : Within [.regs] s s' := by
  unfold execAspmL1Entry at h
  obtain rfl | rfl := onLink_next h
  · exact (.step (enterL1_within ..) rfl (.refl _ _))
  · exact .refl _ _

theorem execHostL0pRequest_within {h width s s'} (h : execHostL0pRequest h width s = .next s') : Within [.outbox] s s' := by
  unfold execHostL0pRequest at h
  obtain rfl | rfl := onLink_next h
  · exact (.step (hostL0p_within ..) rfl (.refl _ _))
  · exact .refl _ _

theorem execWakeTimeout_within {h s s'} (h : execWakeTimeout h s = .next s') : Within [.regs, .host, .outbox] s s' := by
  unfold execWakeTimeout at h
  obtain rfl | rfl := onLink_next h
  · exact (unfenced_within (.refl _ _) (.step (wakeOff_within ..) rfl (.refl _ _)))
  · exact .refl _ _

theorem execSpdmRequest_within {h object s s'} (h : execSpdmRequest h object s = .next s') : Within [.regs, .host, .outbox, .fresh] s s' := by
  unfold execSpdmRequest at h
  obtain rfl | rfl := onLink_next h
  · exact (.step (spdm_within ..) rfl (.refl _ _))
  · exact .refl _ _

theorem execIdeCheckFail_within {h stream s s'} (h : execIdeCheckFail h stream s = .next s') : Within [.regs, .trc, .host, .outbox, .fresh] s s' := by
  unfold execIdeCheckFail at h
  obtain rfl := onUnit_next h
  exact (.step (ideFail_within ..) rfl (.refl _ _))

theorem execPerstAssert_within {h s s'} (h : execPerstAssert h s = .next s') : Within [.regs, .evc, .flt, .trc, .swc, .brg, .lode, .host, .wtt, .ins, .dma, .outbox, .fresh] s s' := by
  unfold execPerstAssert at h
  obtain rfl | rfl := onLink_next h
  · exact (.step (perstLow_within ..) rfl (.refl _ _))
  · exact .refl _ _

theorem execPerstDeassert_within {h s s'} (h : execPerstDeassert h s = .next s') : Within [.regs, .trc, .swc, .brg, .lode, .host, .ins] s s' := by
  unfold execPerstDeassert at h
  obtain rfl | rfl := onLink_next h
  · exact (.step (perstHigh_within ..) rfl (.refl _ _))
  · exact .refl _ _

theorem execHotReset_within {h s s'} (h : execHotReset h s = .next s') : Within [.regs, .evc, .flt, .trc, .swc, .brg, .lode, .host, .wtt, .ins, .dma, .outbox, .fresh] s s' := by
  unfold execHotReset at h
  obtain rfl | rfl := onLink_next h
  · exact (.step (hotReset_within ..) rfl (.refl _ _))
  · exact .refl _ _

theorem execDlDown_within {h s s'} (h : execDlDown h s = .next s') : Within [.regs, .evc, .flt, .trc, .swc, .brg, .lode, .host, .wtt, .ins, .dma, .outbox, .fresh] s s' := by
  unfold execDlDown at h
  obtain rfl | rfl := onLink_next h
  · exact (.step (dlDown_within ..) rfl (.refl _ _))
  · exact .refl _ _

theorem execFlrInstanceFunction_within {h f s s'} (h : execFlrInstanceFunction h f s = .next s') : Within [.regs, .flt, .trc, .swc, .brg, .lode, .host, .wtt, .ins, .dma, .outbox, .fresh] s s' := by
  unfold execFlrInstanceFunction at h
  obtain rfl | rfl := onLink_next h
  · exact (.step (flr_within ..) rfl (.refl _ _))
  · exact .refl _ _

theorem execFlrPf_within {h f s s'} (h : execFlrPf h f s = .next s') : Within [.regs, .flt, .trc, .swc, .brg, .lode, .host, .wtt, .ins, .dma, .outbox, .fresh] s s' := by
  unfold execFlrPf at h
  obtain rfl | rfl := onLink_next h
  · exact (.ite (.step (flr_within ..) rfl (.refl _ _)) (.refl _ _))
  · exact .refl _ _

theorem execFlrManagerFunction_within {s s'} (h : execFlrManagerFunction s = .next s') : Within [.regs, .flt, .trc, .swc, .brg, .lode, .host, .wtt, .ins, .dma, .outbox, .fresh] s s' := by
  unfold execFlrManagerFunction at h
  cases h
  try dsimp only
  split
  · try dsimp only
    exact (.step (flr_within ..) rfl (.refl _ _))
  · try dsimp only
    exact (.refl _ _)

theorem execDlUp_within {h rate width flit s s'} (h : execDlUp h rate width flit s = .next s') : Within [.regs, .outbox] s s' := by
  unfold execDlUp at h
  obtain rfl | rfl := onLink_next h
  · exact (.step (linkUp_within ..) rfl (.refl _ _))
  · exact .refl _ _

theorem execRateChanged_within {h rate s s'} (h : execRateChanged h rate s = .next s') : Within [.regs, .trc] s s' := by
  unfold execRateChanged at h
  obtain rfl | rfl := onLink_next h
  · exact (.step (rateDone_within ..) rfl (.refl _ _))
  · exact .refl _ _

theorem execL0pChanged_within {h width s s'} (h : execL0pChanged h width s = .next s') : Within [.regs, .trc] s s' := by
  unfold execL0pChanged at h
  obtain rfl | rfl := onLink_next h
  · exact (.step (l0pDone_within ..) rfl (.refl _ _))
  · exact .refl _ _

theorem execLinkTraining_within {t n steps s s'} (h : execLinkTraining t n steps s = .next s') : Within [.regs, .trc, .lode, .outbox] s s' := by
  unfold execLinkTraining at h
  obtain rfl := onUnit_next h
  exact (.step (trainBoard_within ..) rfl (.refl _ _))

theorem execTrainingStepTimeout_within {t n s s'} (h : execTrainingStepTimeout t n s = .next s') : Within [.regs, .trc, .lode] s s' := by
  unfold execTrainingStepTimeout at h
  obtain rfl := onUnit_next h
  exact (.ite (.step (trainFail_within ..) rfl (.refl _ _)) (.refl _ _))

theorem execIdentifyRetry_within {t n identity s s'} (h : execIdentifyRetry t n identity s = .next s') : Within [.regs, .trc] s s' := by
  unfold execIdentifyRetry at h
  obtain rfl := onUnit_next h
  exact (.ite (.ite (.step (evt_within ..) rfl (.step (sf_within ..) rfl (.step (sf_within ..) rfl (.refl _ _)))) (.step (sf_within ..) rfl (.step (sf_within ..) rfl (.refl _ _)))) (.refl _ _))

theorem execTileLinkTraining_within {t n steps s s'} (h : execTileLinkTraining t n steps s = .next s') : Within [.regs, .modes, .core, .mem, .evc, .flt, .trc, .swc, .brg, .lode, .host, .wtt, .ins, .dma, .outbox, .fresh] s s' := by
  unfold execTileLinkTraining at h
  obtain rfl := onUnit_next h
  exact (.step (trainTile_within ..) rfl (.refl _ _))

theorem execLcrReceive_within {t n reqNum identity rate width s s'} (h : execLcrReceive t n reqNum identity rate width s = .next s') : Within [.regs, .trc, .lode] s s' := by
  unfold execLcrReceive at h
  obtain rfl := onUnit_next h
  exact (.step (takeLcr_within ..) rfl (.refl _ _))

theorem execLcrAckReceive_within {t n reqNum s s'} (h : execLcrAckReceive t n reqNum s = .next s') : Within [.regs, .lode] s s' := by
  unfold execLcrAckReceive at h
  obtain rfl := onUnit_next h
  exact (.step (takeAck_within ..) rfl (.refl _ _))

theorem execLcrRefuseReceive_within {t n reqNum s s'} (h : execLcrRefuseReceive t n reqNum s = .next s') : Within [.regs, .trc, .lode] s s' := by
  unfold execLcrRefuseReceive at h
  obtain rfl := onUnit_next h
  exact (.step (takeRefuse_within ..) rfl (.refl _ _))

theorem execLcrTimeout_within {t n s s'} (h : execLcrTimeout t n s = .next s') : Within [.regs, .lode] s s' := by
  unfold execLcrTimeout at h
  obtain rfl := onUnit_next h
  exact (.step (changeTimeout_within ..) rfl (.refl _ _))

theorem execLiveChangeComplete_within {t n s s'} (h : execLiveChangeComplete t n s = .next s') : Within [.regs, .trc, .lode, .outbox] s s' := by
  unfold execLiveChangeComplete at h
  obtain rfl := onUnit_next h
  exact (.step (finishChange_within ..) rfl (.refl _ _))

theorem execDownReceive_within {t n s s'} (h : execDownReceive t n s = .next s') : Within [.regs, .modes, .core, .mem, .evc, .flt, .trc, .swc, .brg, .lode, .host, .wtt, .ins, .dma, .outbox, .fresh] s s' := by
  unfold execDownReceive at h
  obtain rfl := onUnit_next h
  exact (.ite (.step (declareDown_within ..) rfl (.refl _ _)) (.refl _ _))

theorem execLockLoss_within {t n s s'} (h : execLockLoss t n s = .next s') : Within [.regs, .trc, .lode] s s' := by
  unfold execLockLoss at h
  obtain rfl := onUnit_next h
  exact (.step (loseLock_within ..) rfl (.refl _ _))

theorem execRecoveryComplete_within {t n steps s s'} (h : execRecoveryComplete t n steps s = .next s') : Within [.regs, .modes, .core, .mem, .evc, .flt, .trc, .swc, .brg, .lode, .host, .wtt, .ins, .dma, .outbox, .fresh] s s' := by
  unfold execRecoveryComplete at h
  obtain rfl := onUnit_next h
  exact (.step (recover_within ..) rfl (.refl _ _))

theorem execLocklossTimerExpiry_within {t n s s'} (h : execLocklossTimerExpiry t n s = .next s') : Within [.regs, .modes, .core, .mem, .evc, .flt, .trc, .swc, .brg, .lode, .host, .wtt, .ins, .dma, .outbox, .fresh] s s' := by
  unfold execLocklossTimerExpiry at h
  obtain rfl := onUnit_next h
  exact (.step (lockTimer_within ..) rfl (.refl _ _))

theorem execCrystalStop_within {s s'} (h : execCrystalStop s = .next s') : Within [.regs, .modes, .core, .mem, .evc, .flt, .trc, .swc, .brg, .lode, .host, .wtt, .ins, .dma, .cal, .outbox, .fresh] s s' := by
  unfold execCrystalStop at h
  cases h
  exact (.step (crystalStop_within ..) rfl (.refl _ _))

theorem execCrystalResume_within {s s'} (h : execCrystalResume s = .next s') : Within [.cal] s s' := by
  unfold execCrystalResume at h
  cases h
  exact (.step (crystalResume_within ..) rfl (.refl _ _))

theorem execSlewEnd_within {s s'} (h : execSlewEnd s = .next s') : Within [.cal] s s' := by
  unfold execSlewEnd at h
  cases h
  exact (.step (slewDone_within ..) rfl (.refl _ _))

theorem execCanarySample_within {readings s s'} (h : execCanarySample readings s = .next s') : Within [.regs, .modes, .core, .mem, .evc, .flt, .trc, .swc, .brg, .lode, .host, .wtt, .ins, .dma, .age, .outbox, .fresh] s s' := by
  unfold execCanarySample at h
  cases h
  exact (.step (canarySample_within ..) rfl (.refl _ _))

theorem execVoltageRaiseStep_within {readings acked s s'} (h : execVoltageRaiseStep readings acked s = .next s') : Within [.regs, .modes, .core, .mem, .evc, .flt, .trc, .swc, .brg, .lode, .host, .wtt, .ins, .dma, .age, .pwr, .outbox, .fresh] s s' := by
  unfold execVoltageRaiseStep at h
  cases h
  exact (.step (voltStep_within ..) rfl (.refl _ _))

theorem execReplanStart_within {readings s s'} (h : execReplanStart readings s = .next s') : Within [.regs, .modes, .core, .mem, .evc, .flt, .trc, .swc, .brg, .lode, .host, .wtt, .ins, .dma, .age, .outbox, .fresh] s s' := by
  unfold execReplanStart at h
  cases h
  exact (.step (replanStart_within ..) rfl (.refl _ _))

theorem execEqTrialEnd_within {t n trial s s'} (h : execEqTrialEnd t n trial s = .next s') : Within [.age, .fresh] s s' := by
  unfold execEqTrialEnd at h
  obtain rfl := onUnit_next h
  exact (unfenced_within (.refl _ _) (.step (eqTrial_within ..) rfl (.refl _ _)))

theorem execReplanEnd_within {eyes s s'} (h : execReplanEnd eyes s = .next s') : Within [.regs, .modes, .core, .mem, .evc, .flt, .trc, .swc, .brg, .lode, .host, .wtt, .ins, .dma, .age, .outbox, .fresh] s s' := by
  unfold execReplanEnd at h
  cases h
  exact (.step (replanEnd_within ..) rfl (.refl _ _))

theorem execMaintWindowEnd_within {t s s'} (h : execMaintWindowEnd t s = .next s') : Within [.regs, .trc, .age] s s' := by
  unfold execMaintWindowEnd at h
  obtain rfl := onTile_next h
  exact (unfenced_within (.refl _ _) (.step (maintEnd_within ..) rfl (.refl _ _)))

theorem execHelloSend_within {s s'} (h : execHelloSend s = .next s') : Within [.gal, .outbox] s s' := by
  unfold execHelloSend at h
  cases h
  exact (.step (helloSend_within ..) rfl (.refl _ _))

theorem execRingRxDown_within {ringB s s'} (h : execRingRxDown ringB s = .next s') : Within [.regs, .modes, .core, .mem, .evc, .flt, .trc, .swc, .brg, .lode, .host, .wtt, .ins, .dma, .outbox, .fresh] s s' := by
  unfold execRingRxDown at h
  cases h
  exact (.step (rxDown_within ..) rfl (.refl _ _))

theorem execRingRxUp_within {ringB s s'} (h : execRingRxUp ringB s = .next s') : Within [.regs] s s' := by
  unfold execRingRxUp at h
  cases h
  exact (.step (rxUp_within ..) rfl (.refl _ _))

theorem execPackageLost_within {p s s'} (h : execPackageLost p s = .next s') : Within [.regs, .trc, .gal] s s' := by
  unfold execPackageLost at h
  obtain rfl := onUnit_next h
  exact (.step (packageLost_within ..) rfl (.refl _ _))

theorem execRemoteTimeout_within {m s s'} (h : execRemoteTimeout m s = .next s') : Within [.regs, .bus, .gal] s s' := by
  unfold execRemoteTimeout at h
  obtain rfl := onUnit_next h
  exact (.step (rmtTimeout_within ..) rfl (.refl _ _))

theorem execTimeSend_within {s s'} (h : execTimeSend s = .next s') : Within [.regs, .gal, .outbox] s s' := by
  unfold execTimeSend at h
  cases h
  exact (.step (timeSend_within ..) rfl (.refl _ _))

theorem execGalSyncEdge_within {s s'} (h : execGalSyncEdge s = .next s') : Within [.regs, .trc, .cal, .gal, .fresh] s s' := by
  unfold execGalSyncEdge at h
  cases h
  exact (.step (syncEdge_within ..) rfl (.refl _ _))

theorem execSyncLost_within {s s'} (h : execSyncLost s = .next s') : Within [.regs, .trc] s s' := by
  unfold execSyncLost at h
  cases h
  exact (.step (syncLost_within ..) rfl (.refl _ _))

theorem execFollowingTimeout_within {s s'} (h : execFollowingTimeout s = .next s') : Within [.cal] s s' := by
  unfold execFollowingTimeout at h
  cases h
  exact (.step (followEnd_within ..) rfl (.refl _ _))

theorem execFlitTransmit_within {t n s s'} (h : execFlitTransmit t n s = .next s') : Within [.regs, .trc, .lode, .outbox] s s' := by
  unfold execFlitTransmit at h
  obtain rfl := onUnit_next h
  exact (.step (flitSend_within ..) rfl (.refl _ _))

theorem execFlitReceive_within {t n codewords bytes s s'} (h : execFlitReceive t n codewords bytes s = .next s') : Within [.regs, .modes, .core, .mem, .evc, .flt, .trc, .swc, .brg, .lode, .host, .wtt, .ins, .dma, .outbox, .fresh] s s' := by
  unfold execFlitReceive at h
  obtain rfl := onUnit_next h
  exact (.step (flitTake_within ..) rfl (.refl _ _))

theorem execNakTimerExpiry_within {t n seq s s'} (h : execNakTimerExpiry t n seq s = .next s') : Within [.lode] s s' := by
  unfold execNakTimerExpiry at h
  obtain rfl := onUnit_next h
  exact (.step (nakTimer_within ..) rfl (.refl _ _))

theorem execNakResume_within {t n s s'} (h : execNakResume t n s = .next s') : Within [.lode] s s' := by
  unfold execNakResume at h
  obtain rfl := onUnit_next h
  exact (.ite (.step (setLink_within ..) rfl (.refl _ _)) (.refl _ _))

theorem execReplayTimerExpiry_within {t n s s'} (h : execReplayTimerExpiry t n s = .next s') : Within [.lode] s s' := by
  unfold execReplayTimerExpiry at h
  obtain rfl := onUnit_next h
  exact (.ite (.step (replayTimer_within ..) rfl (.refl _ _)) (.refl _ _))

theorem execCreditStallTimer_within {t n cls s s'} (h : execCreditStallTimer t n cls s = .next s') : Within [.regs, .trc] s s' := by
  unfold execCreditStallTimer at h
  obtain rfl := onUnit_next h
  exact (.ite (.step (evt_within ..) rfl (.refl _ _)) (.refl _ _))

theorem execWrReceive_within {t n read s s'} (h : execWrReceive t n read s = .next s') : Within [.regs, .modes, .core, .mem, .evc, .flt, .trc, .swc, .brg, .lode, .host, .wtt, .ins, .dma, .outbox, .fresh] s s' := by
  unfold execWrReceive at h
  obtain rfl := onUnit_next h
  exact (unfenced_within (.refl _ _) (.step (takeWr_within ..) rfl (.refl _ _)))

theorem execRdReceive_within {t n s s'} (h : execRdReceive t n s = .next s') : Within [.regs, .trc, .swc, .brg, .lode, .wtt] s s' := by
  unfold execRdReceive at h
  obtain rfl := onUnit_next h
  exact (unfenced_within (.refl _ _) (.step (takeRd_within ..) rfl (.refl _ _)))

theorem execHeldReadSlotTake_within {t n read s s'} (h : execHeldReadSlotTake t n read s = .next s') : Within [.regs, .modes, .core, .mem, .evc, .flt, .trc, .swc, .brg, .lode, .host, .wtt, .ins, .dma, .outbox, .fresh] s s' := by
  unfold execHeldReadSlotTake at h
  obtain rfl := onUnit_next h
  exact (unfenced_within (.refl _ _) (.step (takeSlot_within ..) rfl (.refl _ _)))

theorem execEventAssert_within {t n s s'} (h : execEventAssert t n s = .next s') : Within [.regs, .evc, .trc, .swc, .brg, .lode, .host] s s' := by
  unfold execEventAssert at h
  obtain rfl := onUnit_next h
  exact (unfenced_within (.refl _ _) (.step (takeEvent_within ..) rfl (.refl _ _)))

theorem execEventDeassert_within {t n s s'} (h : execEventDeassert t n s = .next s') : Within [.regs, .evc, .trc, .swc, .brg, .lode, .host] s s' := by
  unfold execEventDeassert at h
  obtain rfl := onUnit_next h
  exact (unfenced_within (.refl _ _) (.step (takeEvent_within ..) rfl (.refl _ _)))

theorem execEventEdge_within {t n s s'} (h : execEventEdge t n s = .next s') : Within [.regs, .evc, .trc, .swc, .brg, .lode, .host] s s' := by
  unfold execEventEdge at h
  obtain rfl := onUnit_next h
  exact (unfenced_within (.refl _ _) (.step (takeEvent_within ..) rfl (.refl _ _)))

theorem execRspReceive_within {t n s s'} (h : execRspReceive t n s = .next s') : Within [.regs, .trc, .swc, .brg, .lode, .host, .wtt, .dma, .outbox, .fresh] s s' := by
  unfold execRspReceive at h
  obtain rfl := onUnit_next h
  exact (unfenced_within (.refl _ _) (.step (takeRsp_within ..) rfl (.refl _ _)))

theorem execLtpRspTimeout_within {t n tag s s'} (h : execLtpRspTimeout t n tag s = .next s') : Within [.regs, .trc, .swc, .brg, .lode, .host, .wtt, .dma, .outbox, .fresh] s s' := by
  unfold execLtpRspTimeout at h
  obtain rfl := onUnit_next h
  exact (unfenced_within (.refl _ _) (.step (rspTimeout_within ..) rfl (.refl _ _)))

theorem execLockBeginSend_within {t n s s'} (h : execLockBeginSend t n s = .next s') : Within [.regs, .trc, .swc, .brg, .lode] s s' := by
  unfold execLockBeginSend at h
  obtain rfl := onUnit_next h
  exact (unfenced_within (.refl _ _) (.step (lockBegin_within ..) rfl (.refl _ _)))

theorem execLockWaitExpiry_within {t n s s'} (h : execLockWaitExpiry t n s = .next s') : Within [.regs, .trc, .swc, .brg, .lode, .host, .wtt, .dma, .outbox, .fresh] s s' := by
  unfold execLockWaitExpiry at h
  obtain rfl := onUnit_next h
  exact (unfenced_within (.refl _ _) (.step (lockExpiry_within ..) rfl (.refl _ _)))

theorem execUnlockMessage_within {h f s s'} (h : execUnlockMessage h f s = .next s') : Within [.swc, .brg, .lode] s s' := by
  unfold execUnlockMessage at h
  obtain rfl := onUnit_next h
  exact (.ite (.step (unlock_within ..) rfl (.refl _ _)) (.refl _ _))

theorem execFaultRecord_within {t b c inst detail s s'} (h : execFaultRecord t b c inst detail s = .next s') : Within [.regs, .modes, .core, .mem, .evc, .flt, .trc, .swc, .brg, .lode, .host, .wtt, .ins, .dma, .outbox, .fresh] s s' := by
  unfold execFaultRecord at h
  obtain rfl := onUnit_next h
  try dsimp only
  split
  · try dsimp only
    exact (.ite (.refl _ _) (.step (recordFault_within ..) rfl (.step (causeFound_within ..) rfl (.refl _ _))))
  · try dsimp only
    exact (.refl _ _)

theorem execHeadframeFaultService_within {t s s'} (h : execHeadframeFaultService t s = .next s') : Within [.regs, .evc, .trc] s s' := by
  unfold execHeadframeFaultService at h
  obtain rfl := onTile_next h
  exact (.step (faultService_within ..) rfl (.refl _ _))

theorem execClassBExpiry_within {t b i s s'} (h : execClassBExpiry t b i s = .next s') : Within [.regs, .mem, .flt, .trc, .swc, .brg, .lode, .host, .wtt, .ins, .dma, .outbox, .fresh] s s' := by
  unfold execClassBExpiry at h
  obtain rfl := onUnit_next h
  exact (.step (expireB_within ..) rfl (.refl _ _))

theorem execClassCExpiry_within {t b s s'} (h : execClassCExpiry t b s = .next s') : Within [.regs, .modes, .core, .mem, .evc, .flt, .trc, .swc, .brg, .lode, .host, .wtt, .ins, .dma, .outbox, .fresh] s s' := by
  unfold execClassCExpiry at h
  obtain rfl := onUnit_next h
  exact (.step (expireC_within ..) rfl (.refl _ _))

theorem execHfWatchdog_within {t s s'} (h : execHfWatchdog t s = .next s') : Within [.regs, .modes, .core, .mem, .evc, .flt, .trc, .swc, .brg, .lode, .host, .wtt, .ins, .dma, .outbox, .fresh] s s' := by
  unfold execHfWatchdog at h
  obtain rfl := onTile_next h
  exact (.ite (.refl _ _) (.step (recordFault_within ..) rfl (.refl _ _)))

theorem execDumpWrite_within {s s'} (h : execDumpWrite s = .next s') : Within [.regs, .mem, .flt, .trc, .fresh] s s' := by
  unfold execDumpWrite at h
  cases h
  exact (.step (dumpStart_within ..) rfl (.refl _ _))

theorem execDumpComplete_within {s s'} (h : execDumpComplete s = .next s') : Within [.regs, .mem, .flt] s s' := by
  unfold execDumpComplete at h
  cases h
  exact (.step (dumpFinish_within ..) rfl (.refl _ _))

theorem execFaultLossSummary_within {t b s s'} (h : execFaultLossSummary t b s = .next s') : Within [.regs, .mem, .flt, .trc] s s' := by
  unfold execFaultLossSummary at h
  obtain rfl := onUnit_next h
  exact (.step (faultSummary_within ..) rfl (.refl _ _))

theorem execPowerGoodRise_within {s s'} (h : execPowerGoodRise s = .next s') : Within [.core, .cal] s s' := by
  unfold execPowerGoodRise at h
  cases h
  exact (.step (powerGood_within ..) rfl (.refl _ _))

theorem execPackageStart_within {mgrSel pkgId s s'} (h : execPackageStart mgrSel pkgId s = .next s') : Within [.regs, .modes, .core, .mem, .evc, .flt, .trc, .swc, .brg, .lode, .host, .wtt, .ins, .dma, .otp, .str, .cal, .age, .outbox, .fresh] s s' := by
  unfold execPackageStart at h
  cases h
  exact (.step (packageStart_within ..) rfl (.refl _ _))

theorem execPackageReset_within {s s'} (h : execPackageReset s = .next s') : Within [.regs, .modes, .core, .bus, .evc, .flt, .trc, .swc, .brg, .lode, .host, .wtt, .ins, .dma, .str, .age, .gal, .pwr, .outbox] s s' := by
  unfold execPackageReset at h
  cases h
  exact (.step (packageReset_within ..) rfl (.refl _ _))

theorem execPowerDown_within {s s'} (h : execPowerDown s = .next s') : Within [.regs, .modes, .core, .bus, .evc, .flt, .trc, .swc, .brg, .lode, .host, .wtt, .ins, .dma, .str, .cal, .age, .gal, .pwr, .outbox] s s' := by
  unfold execPowerDown at h
  cases h
  exact (.step (powerDown_within ..) rfl (.refl _ _))

theorem execModeCommandDone_within {t s s'} (h : execModeCommandDone t s = .next s') : Within [.regs, .modes, .core, .evc, .trc] s s' := by
  unfold execModeCommandDone at h
  obtain rfl := onTile_next h
  exact (.step (modeDone_within ..) rfl (.refl _ _))

theorem execTileResetComplete_within {t s s'} (h : execTileResetComplete t s = .next s') : Within [.regs, .modes, .core, .bus, .evc, .trc, .swc, .brg, .lode, .host, .ins, .dma, .age] s s' := by
  unfold execTileResetComplete at h
  obtain rfl := onTile_next h
  exact (.step (endTileReset_within ..) rfl (.refl _ _))

theorem execBistDone_within {t errors s s'} (h : execBistDone t errors s = .next s') : Within [.regs, .core, .evc, .trc, .swc, .brg, .lode, .host, .wtt, .ins, .dma, .outbox, .fresh] s s' := by
  unfold execBistDone at h
  obtain rfl := onTile_next h
  exact (.step (bistDone_within ..) rfl (.refl _ _))

theorem execJtagBoundaryScan_within {s s'} (h : execJtagBoundaryScan s = .next s') : Within [.regs, .modes, .core, .evc, .trc] s s' := by
  unfold execJtagBoundaryScan at h
  cases h
  exact (.step (boundaryScan_within ..) rfl (.refl _ _))

theorem execTapReset_within {s s'} (h : execTapReset s = .next s') : Within [.core] s s' := by
  unfold execTapReset at h
  cases h
  exact (.step (upd_core _ _ rfl) rfl (.refl _ _))

theorem execVbatLost_within {s s'} (h : execVbatLost s = .next s') : Within [.cal] s s' := by
  unfold execVbatLost at h
  cases h
  exact (.step (vbatLost_within ..) rfl (.refl _ _))

theorem execGovernorWindow_within {t wanted s s'} (h : execGovernorWindow t wanted s = .next s') : Within [.regs, .modes, .core, .mem, .evc, .flt, .trc, .swc, .brg, .lode, .host, .wtt, .ins, .dma, .pwr, .outbox, .fresh] s s' := by
  unfold execGovernorWindow at h
  obtain rfl := onTile_next h
  exact (.step (govWindow_within ..) rfl (.refl _ _))

theorem execTempSample_within {t r0 r1 r2 r3 s s'} (h : execTempSample t r0 r1 r2 r3 s = .next s') : Within [.regs, .modes, .core, .mem, .evc, .flt, .trc, .swc, .brg, .lode, .host, .wtt, .ins, .dma, .outbox, .fresh] s s' := by
  unfold execTempSample at h
  obtain rfl := onTile_next h
  exact (.step (tempSample_within ..) rfl (.refl _ _))

theorem execVbatSample_within {mv s s'} (h : execVbatSample mv s = .next s') : Within [.regs, .trc] s s' := by
  unfold execVbatSample at h
  cases h
  exact (.step (vbatSample_within ..) rfl (.refl _ _))

theorem execPmbusRetry_within {acked s s'} (h : execPmbusRetry acked s = .next s') : Within [.regs, .trc, .pwr, .outbox] s s' := by
  unfold execPmbusRetry at h
  cases h
  exact (.step (pmbusRetry_within ..) rfl (.refl _ _))

theorem execVrmAlert_within {s s'} (h : execVrmAlert s = .next s') : Within [.regs, .trc] s s' := by
  unfold execVrmAlert at h
  cases h
  exact (.ite (.step (evt_within ..) rfl (.refl _ _)) (.refl _ _))

theorem execReadVoutSample_within {acked readback s s'} (h : execReadVoutSample acked readback s = .next s') : Within [.regs, .trc, .pwr, .outbox] s s' := by
  unfold execReadVoutSample at h
  cases h
  exact (.step (readVout_within ..) rfl (.refl _ _))

theorem execTraceLossSummary_within {t b s s'} (h : execTraceLossSummary t b s = .next s') : Within [.regs, .trc] s s' := by
  unfold execTraceLossSummary at h
  obtain rfl := onUnit_next h
  exact (.step (traceSummary_within ..) rfl (.refl _ _))

theorem execSmbusBlockRead_within {cmd s s'} (h : execSmbusBlockRead cmd s = .next s') : Within [.outbox] s s' := by
  unfold execSmbusBlockRead at h
  cases h
  exact (.step (smbusRead_within ..) rfl (.refl _ _))

theorem execRegisterWrite_within {t off be v s s'} (h : execRegisterWrite t off be v s = .next s') : Within [.regs, .modes, .core, .bus, .mem, .evc, .flt, .trc, .swc, .brg, .lode, .host, .wtt, .ins, .dma, .str, .cal, .age, .gal, .outbox, .fresh] s s' := by
  unfold execRegisterWrite at h
  obtain rfl := onUnit_next h
  exact (busReach_within (.refl _ _) rfl (.step (busWrite_within ..) rfl (.refl _ _)))

theorem execReservedAddressWrite_within {t off be v s s'} (h : execReservedAddressWrite t off be v s = .next s') : Within [.regs, .modes, .core, .bus, .mem, .evc, .flt, .trc, .swc, .brg, .lode, .host, .wtt, .ins, .dma, .str, .cal, .age, .gal, .outbox, .fresh] s s' := by
  unfold execReservedAddressWrite at h
  obtain rfl := onUnit_next h
  exact (.ite (.refl _ _) (busReach_within (.refl _ _) rfl (.step (busWrite_within ..) rfl (.refl _ _))))

theorem execCrossingWriteTakesEffect_within {t dom s s'} (h : execCrossingWriteTakesEffect t dom s = .next s') : Within [.regs, .modes, .core, .bus, .mem, .evc, .flt, .trc, .swc, .brg, .lode, .host, .wtt, .ins, .dma, .str, .cal, .age, .gal, .outbox, .fresh] s s' := by
  unfold execCrossingWriteTakesEffect at h
  obtain rfl := onTile_next h
  exact (.ite (.step (crossHead_within ..) rfl (.refl _ _)) (unfenced_within (.refl _ _) (.step (crossHead_within ..) rfl (.refl _ _))))

theorem execMbDataWrite_within {t mb k be v s s'} (h : execMbDataWrite t mb k be v s = .next s') : Within [.regs, .modes, .core, .bus, .mem, .evc, .flt, .trc, .swc, .brg, .lode, .host, .wtt, .ins, .dma, .str, .cal, .age, .gal, .outbox, .fresh] s s' := by
  unfold execMbDataWrite at h
  obtain rfl := onUnit_next h
  exact (busReach_within (.refl _ _) rfl (.step (busWrite_within ..) rfl (.refl _ _)))

theorem execTvRegisterRead_within {t off s s'} (h : execTvRegisterRead t off s = .next s') : Within [.regs, .modes, .core, .bus, .mem, .evc, .flt, .trc, .swc, .brg, .lode, .host, .wtt, .ins, .dma, .str, .cal, .age, .gal, .outbox, .fresh] s s' := by
  unfold execTvRegisterRead at h
  obtain rfl := onUnit_next h
  exact (.ite (busOpen_within (.refl _ _) (.step (readAnswer_within ..) rfl (.refl _ _))) (.refl _ _))

theorem execTvScrub_within {t s s'} (h : execTvScrub t s = .next s') : Within [.regs, .modes, .core, .bus, .mem, .evc, .flt, .trc, .swc, .brg, .lode, .host, .wtt, .ins, .dma, .outbox, .fresh] s s' := by
  unfold execTvScrub at h
  obtain rfl := onTile_next h
  exact (.ite (.refl _ _) (.step (tvScrub_within ..) rfl (.refl _ _)))

theorem execIndirectDataAccess_within {t off wr s s'} (h : execIndirectDataAccess t off wr s = .next s') : Within [.regs, .modes, .core, .bus, .mem, .evc, .flt, .trc, .swc, .brg, .lode, .host, .wtt, .ins, .dma, .str, .cal, .age, .gal, .outbox, .fresh] s s' := by
  unfold execIndirectDataAccess at h
  obtain rfl := onUnit_next h
  refine .ite ?_ ?_
  · exact (.refl _ _)
  · try dsimp only
    split
    · try dsimp only
      exact (busOpen_within (.refl _ _) (.step (readAnswer_within ..) rfl (.refl _ _)))
    · try dsimp only
      exact (busReach_within (.refl _ _) rfl (.step (crossAll_within ..) rfl (.step (busWrite_within ..) rfl (.refl _ _))))

theorem execOutputArbitration_within {t out read s s'} (h : execOutputArbitration t out read s = .next s') : Within [.regs, .modes, .core, .bus, .mem, .evc, .flt, .trc, .swc, .brg, .lode, .host, .wtt, .ins, .dma, .str, .cal, .age, .gal, .outbox, .fresh] s s' := by
  unfold execOutputArbitration at h
  obtain rfl := onUnit_next h
  exact (.step (mgmtRun_within ..) rfl (.step (arbitrate_within ..) rfl (.refl _ _)))

theorem execHostMemoryRequest_within {r s s'} (h : execHostMemoryRequest r s = .next s') : Within [.regs, .swc, .brg, .host, .outbox, .fresh] s s' := by
  unfold execHostMemoryRequest at h
  obtain rfl | rfl := onLink_next h
  · exact (.step (hostRequest_within ..) rfl (.refl _ _))
  · exact .refl _ _

theorem execEnterService_within {t s s'} (h : execEnterService t s = .next s') : Within [.regs, .modes, .core, .bus, .mem, .evc, .flt, .trc, .swc, .brg, .lode, .host, .wtt, .ins, .dma, .str, .cal, .age, .gal, .outbox, .fresh] s s' := by
  unfold execEnterService at h
  obtain rfl := onTile_next h
  exact (regRow_within (.refl _ _) rfl (fun s1 h1 => (.step (glbWrite_within ..) rfl h1)))

theorem execEnterRecovery_within {t s s'} (h : execEnterRecovery t s = .next s') : Within [.regs, .modes, .core, .bus, .mem, .evc, .flt, .trc, .swc, .brg, .lode, .host, .wtt, .ins, .dma, .str, .cal, .age, .gal, .outbox, .fresh] s s' := by
  unfold execEnterRecovery at h
  obtain rfl := onTile_next h
  exact (regRow_within (.refl _ _) rfl (fun s1 h1 => (.step (glbWrite_within ..) rfl h1)))

theorem execEnterTest_within {t s s'} (h : execEnterTest t s = .next s') : Within [.regs, .modes, .core, .bus, .mem, .evc, .flt, .trc, .swc, .brg, .lode, .host, .wtt, .ins, .dma, .str, .cal, .age, .gal, .outbox, .fresh] s s' := by
  unfold execEnterTest at h
  obtain rfl := onTile_next h
  exact (regRow_within (.refl _ _) rfl (fun s1 h1 => (.step (glbWrite_within ..) rfl h1)))

theorem execTileReset_within {t tiles s s'} (h : execTileReset t tiles s = .next s') : Within [.regs, .modes, .core, .bus, .mem, .evc, .flt, .trc, .swc, .brg, .lode, .host, .wtt, .ins, .dma, .str, .cal, .age, .gal, .outbox, .fresh] s s' := by
  unfold execTileReset at h
  obtain rfl := onTile_next h
  exact (regRow_within (.refl _ _) rfl (fun s1 h1 => (.step (tileReset_within ..) rfl h1)))

theorem execTestMemoryBist_within {t s s'} (h : execTestMemoryBist t s = .next s') : Within [.regs, .modes, .core, .bus, .mem, .evc, .flt, .trc, .swc, .brg, .lode, .host, .wtt, .ins, .dma, .str, .cal, .age, .gal, .outbox, .fresh] s s' := by
  unfold execTestMemoryBist at h
  obtain rfl := onTile_next h
  exact (regRow_within (.refl _ _) rfl (fun s1 h1 => (.step (testStart_within ..) rfl h1)))

theorem execTestPrbs_within {t ports s s'} (h : execTestPrbs t ports s = .next s') : Within [.regs, .modes, .core, .bus, .mem, .evc, .flt, .trc, .swc, .brg, .lode, .host, .wtt, .ins, .dma, .str, .cal, .age, .gal, .outbox, .fresh] s s' := by
  unfold execTestPrbs at h
  obtain rfl := onTile_next h
  exact (regRow_within (.refl _ _) rfl (fun s1 h1 => (.step (testStart_within ..) rfl h1)))

theorem execTestNearLoopback_within {t ports s s'} (h : execTestNearLoopback t ports s = .next s') : Within [.regs, .modes, .core, .bus, .mem, .evc, .flt, .trc, .swc, .brg, .lode, .host, .wtt, .ins, .dma, .str, .cal, .age, .gal, .outbox, .fresh] s s' := by
  unfold execTestNearLoopback at h
  obtain rfl := onTile_next h
  exact (regRow_within (.refl _ _) rfl (fun s1 h1 => (.step (testStart_within ..) rfl h1)))

theorem execTestFarLoopback_within {t ports s s'} (h : execTestFarLoopback t ports s = .next s') : Within [.regs, .modes, .core, .bus, .mem, .evc, .flt, .trc, .swc, .brg, .lode, .host, .wtt, .ins, .dma, .str, .cal, .age, .gal, .outbox, .fresh] s s' := by
  unfold execTestFarLoopback at h
  obtain rfl := onTile_next h
  exact (regRow_within (.refl _ _) rfl (fun s1 h1 => (.step (testStart_within ..) rfl h1)))

theorem execTestStop_within {t errors failed s s'} (h : execTestStop t errors failed s = .next s') : Within [.regs, .modes, .core, .bus, .mem, .evc, .flt, .trc, .swc, .brg, .lode, .host, .wtt, .ins, .dma, .str, .cal, .age, .gal, .outbox, .fresh] s s' := by
  unfold execTestStop at h
  obtain rfl := onTile_next h
  exact (regRow_within (.refl _ _) rfl (fun s1 h1 => (.step (testStop_within ..) rfl h1)))

theorem execVerify_within {s s'} (h : execVerify s = .next s') : Within [.regs, .modes, .core, .bus, .mem, .evc, .flt, .trc, .swc, .brg, .lode, .host, .wtt, .ins, .dma, .str, .cal, .age, .gal, .outbox, .fresh] s s' := by
  unfold execVerify at h
  cases h
  exact (regRow_within (.refl _ _) rfl (fun s1 h1 => (.step (strCmd_within ..) rfl h1)))

theorem execActivate_within {s s'} (h : execActivate s = .next s') : Within [.regs, .modes, .core, .bus, .mem, .evc, .flt, .trc, .swc, .brg, .lode, .host, .wtt, .ins, .dma, .str, .cal, .age, .gal, .outbox, .fresh] s s' := by
  unfold execActivate at h
  cases h
  exact (regRow_within (.refl _ _) rfl (fun s1 h1 => (.step (strCmd_within ..) rfl h1)))

theorem execCommitFloor_within {s s'} (h : execCommitFloor s = .next s') : Within [.regs, .modes, .core, .bus, .mem, .evc, .flt, .trc, .swc, .brg, .lode, .host, .wtt, .ins, .dma, .str, .cal, .age, .gal, .outbox, .fresh] s s' := by
  unfold execCommitFloor at h
  cases h
  exact (regRow_within (.refl _ _) rfl (fun s1 h1 => (.step (strCmd_within ..) rfl h1)))

theorem execEnrol_within {s s'} (h : execEnrol s = .next s') : Within [.regs, .modes, .core, .bus, .mem, .evc, .flt, .trc, .swc, .brg, .lode, .host, .wtt, .ins, .dma, .str, .cal, .age, .gal, .outbox, .fresh] s s' := by
  unfold execEnrol at h
  cases h
  exact (regRow_within (.refl _ _) rfl (fun s1 h1 => (.step (strCmd_within ..) rfl h1)))

theorem execEraseInactive_within {s s'} (h : execEraseInactive s = .next s') : Within [.regs, .modes, .core, .bus, .mem, .evc, .flt, .trc, .swc, .brg, .lode, .host, .wtt, .ins, .dma, .str, .cal, .age, .gal, .outbox, .fresh] s s' := by
  unfold execEraseInactive at h
  cases h
  exact (regRow_within (.refl _ _) rfl (fun s1 h1 => (.step (strCmd_within ..) rfl h1)))

theorem execRefreshFlash_within {s s'} (h : execRefreshFlash s = .next s') : Within [.regs, .modes, .core, .bus, .mem, .evc, .flt, .trc, .swc, .brg, .lode, .host, .wtt, .ins, .dma, .str, .cal, .age, .gal, .outbox, .fresh] s s' := by
  unfold execRefreshFlash at h
  cases h
  exact (regRow_within (.refl _ _) rfl (fun s1 h1 => (.step (strCmd_within ..) rfl h1)))

theorem execStrImgDataWrite_within {be v s s'} (h : execStrImgDataWrite be v s = .next s') : Within [.regs, .modes, .core, .bus, .mem, .evc, .flt, .trc, .swc, .brg, .lode, .host, .wtt, .ins, .dma, .str, .cal, .age, .gal, .outbox, .fresh] s s' := by
  unfold execStrImgDataWrite at h
  cases h
  exact (regRow_within (.refl _ _) rfl (fun s1 h1 => (.step (imgWrite_within ..) rfl h1)))

theorem execRateCapWrite_within {h v s s'} (h : execRateCapWrite h v s = .next s') : Within [.regs, .modes, .core, .bus, .mem, .evc, .flt, .trc, .swc, .brg, .lode, .host, .wtt, .ins, .dma, .str, .cal, .age, .gal, .outbox, .fresh] s s' := by
  unfold execRateCapWrite at h
  obtain rfl | rfl := onLink_next h
  · exact (regRow_within (.refl _ _) rfl (fun s1 h1 => (.step (writeRateCap_within ..) rfl h1)))
  · exact .refl _ _

theorem execNarrowWrite_within {h v s s'} (h : execNarrowWrite h v s = .next s') : Within [.regs, .modes, .core, .bus, .mem, .evc, .flt, .trc, .swc, .brg, .lode, .host, .wtt, .ins, .dma, .str, .cal, .age, .gal, .outbox, .fresh] s s' := by
  unfold execNarrowWrite at h
  obtain rfl | rfl := onLink_next h
  · exact (regRow_within (.refl _ _) rfl (fun s1 h1 => (.step (writeNarrow_within ..) rfl h1)))
  · exact .refl _ _

theorem execWakeAssert_within {h s s'} (h : execWakeAssert h s = .next s') : Within [.regs, .modes, .core, .bus, .mem, .evc, .flt, .trc, .swc, .brg, .lode, .host, .wtt, .ins, .dma, .str, .cal, .age, .gal, .outbox, .fresh] s s' := by
  unfold execWakeAssert at h
  obtain rfl | rfl := onLink_next h
  · exact (regRow_within (.refl _ _) rfl (fun s1 h1 => (.step (wakeOn_within ..) rfl h1)))
  · exact .refl _ _

theorem execRetrain_within {h s s'} (h : execRetrain h s = .next s') : Within [.regs, .modes, .core, .bus, .mem, .evc, .flt, .trc, .swc, .brg, .lode, .host, .wtt, .ins, .dma, .str, .cal, .age, .gal, .outbox, .fresh] s s' := by
  unfold execRetrain at h
  obtain rfl | rfl := onLink_next h
  · exact (regRow_within (.refl _ _) rfl (fun s1 h1 => (.step (writeRetrain_within ..) rfl h1)))
  · exact .refl _ _

theorem execLtrWrite_within {h v s s'} (h : execLtrWrite h v s = .next s') : Within [.regs, .modes, .core, .bus, .mem, .evc, .flt, .trc, .swc, .brg, .lode, .host, .wtt, .ins, .dma, .str, .cal, .age, .gal, .outbox, .fresh] s s' := by
  unfold execLtrWrite at h
  obtain rfl | rfl := onLink_next h
  · exact (regRow_within (.refl _ _) rfl (fun s1 h1 => (.step (writeLtr_within ..) rfl h1)))
  · exact .refl _ _

theorem execChange_within {t n s s'} (h : execChange t n s = .next s') : Within [.regs, .modes, .core, .bus, .mem, .evc, .flt, .trc, .swc, .brg, .lode, .host, .wtt, .ins, .dma, .str, .cal, .age, .gal, .outbox, .fresh] s s' := by
  unfold execChange at h
  obtain rfl := onUnit_next h
  exact (regRow_within (.refl _ _) rfl (fun s1 h1 => (.step (writeChange_within ..) rfl h1)))

theorem execDown_within {t n s s'} (h : execDown t n s = .next s') : Within [.regs, .modes, .core, .bus, .mem, .evc, .flt, .trc, .swc, .brg, .lode, .host, .wtt, .ins, .dma, .str, .cal, .age, .gal, .outbox, .fresh] s s' := by
  unfold execDown at h
  obtain rfl := onUnit_next h
  exact (regRow_within (.refl _ _) rfl (fun s1 h1 => (.step (commandDown_within ..) rfl h1)))

theorem execDisable_within {t n s s'} (h : execDisable t n s = .next s') : Within [.regs, .modes, .core, .bus, .mem, .evc, .flt, .trc, .swc, .brg, .lode, .host, .wtt, .ins, .dma, .str, .cal, .age, .gal, .outbox, .fresh] s s' := by
  unfold execDisable at h
  obtain rfl := onUnit_next h
  exact (regRow_within (.refl _ _) rfl (fun s1 h1 => (.step (disableLink_within ..) rfl h1)))

theorem execLtpHeldRead_within {t n s s'} (h : execLtpHeldRead t n s = .next s') : Within [.regs, .modes, .core, .bus, .mem, .evc, .flt, .trc, .swc, .brg, .lode, .host, .wtt, .ins, .dma, .str, .cal, .age, .gal, .outbox, .fresh] s s' := by
  unfold execLtpHeldRead at h
  obtain rfl := onUnit_next h
  exact (readRow_within (.refl _ _) rfl (fun s1 h1 => (.step (readHeld_within ..) rfl h1)))

theorem execSwcCntRead_within {t s s'} (h : execSwcCntRead t s = .next s') : Within [.regs, .modes, .core, .bus, .mem, .evc, .flt, .trc, .swc, .brg, .lode, .host, .wtt, .ins, .dma, .str, .cal, .age, .gal, .outbox, .fresh] s s' := by
  unfold execSwcCntRead at h
  obtain rfl := onTile_next h
  exact (regRow_within (.refl _ _) rfl (fun s1 h1 => (.step (swcCntRead_within ..) rfl h1)))

theorem execSwcCntWrite_within {t s s'} (h : execSwcCntWrite t s = .next s') : Within [.regs, .modes, .core, .bus, .mem, .evc, .flt, .trc, .swc, .brg, .lode, .host, .wtt, .ins, .dma, .str, .cal, .age, .gal, .outbox, .fresh] s s' := by
  unfold execSwcCntWrite at h
  obtain rfl := onTile_next h
  exact (regRow_within (.refl _ _) rfl (fun s1 h1 => (.step (swcCntWrite_within ..) rfl h1)))

theorem execWttWindowRead_within {t s s'} (h : execWttWindowRead t s = .next s') : Within [.regs, .modes, .core, .bus, .mem, .evc, .flt, .trc, .swc, .brg, .lode, .host, .wtt, .ins, .dma, .str, .cal, .age, .gal, .outbox, .fresh] s s' := by
  unfold execWttWindowRead at h
  obtain rfl := onTile_next h
  exact (regRow_within (.refl _ _) rfl (fun s1 h1 => (.step (winRead_within ..) rfl h1)))

theorem execWttWindowWrite_within {t s s'} (h : execWttWindowWrite t s = .next s') : Within [.regs, .modes, .core, .bus, .mem, .evc, .flt, .trc, .swc, .brg, .lode, .host, .wtt, .ins, .dma, .str, .cal, .age, .gal, .outbox, .fresh] s s' := by
  unfold execWttWindowWrite at h
  obtain rfl := onTile_next h
  exact (regRow_within (.refl _ _) rfl (fun s1 h1 => (.step (winWrite_within ..) rfl h1)))

theorem execWttEntryRead_within {t m s s'} (h : execWttEntryRead t m s = .next s') : Within [.regs, .modes, .core, .bus, .mem, .evc, .flt, .trc, .swc, .brg, .lode, .host, .wtt, .ins, .dma, .str, .cal, .age, .gal, .outbox, .fresh] s s' := by
  unfold execWttEntryRead at h
  obtain rfl := onUnit_next h
  exact (regRow_within (.refl _ _) rfl (fun s1 h1 => (.step (entRead_within ..) rfl h1)))

theorem execWttEntryWrite_within {t m s s'} (h : execWttEntryWrite t m s = .next s') : Within [.regs, .modes, .core, .bus, .mem, .evc, .flt, .trc, .swc, .brg, .lode, .host, .wtt, .ins, .dma, .str, .cal, .age, .gal, .outbox, .fresh] s s' := by
  unfold execWttEntryWrite at h
  obtain rfl := onUnit_next h
  exact (regRow_within (.refl _ _) rfl (fun s1 h1 => (.step (entWrite_within ..) rfl h1)))

theorem execFill_within {t m s s'} (h : execFill t m s = .next s') : Within [.regs, .modes, .core, .bus, .mem, .evc, .flt, .trc, .swc, .brg, .lode, .host, .wtt, .ins, .dma, .str, .cal, .age, .gal, .outbox, .fresh] s s' := by
  unfold execFill at h
  obtain rfl := onUnit_next h
  exact (regRow_within (.refl _ _) rfl (fun s1 h1 => (.step (entFill_within ..) rfl h1)))

theorem execFence_within {t i s s'} (h : execFence t i s = .next s') : Within [.regs, .modes, .core, .bus, .mem, .evc, .flt, .trc, .swc, .brg, .lode, .host, .wtt, .ins, .dma, .str, .cal, .age, .gal, .outbox, .fresh] s s' := by
  unfold execFence at h
  obtain rfl := onTile_next h
  exact (regRow_within (.refl _ _) rfl (fun s1 h1 => (.step (wttWrite_within ..) rfl h1)))

theorem execRestamp_within {t i s s'} (h : execRestamp t i s = .next s') : Within [.regs, .modes, .core, .bus, .mem, .evc, .flt, .trc, .swc, .brg, .lode, .host, .wtt, .ins, .dma, .str, .cal, .age, .gal, .outbox, .fresh] s s' := by
  unfold execRestamp at h
  obtain rfl := onTile_next h
  exact (regRow_within (.refl _ _) rfl (fun s1 h1 => (.step (wttWrite_within ..) rfl h1)))

theorem execDoorbellWrite_within {i q off be v s s'} (h : execDoorbellWrite i q off be v s = .next s') : Within [.regs, .modes, .core, .bus, .mem, .evc, .flt, .trc, .swc, .brg, .lode, .host, .wtt, .ins, .dma, .str, .cal, .age, .gal, .outbox, .fresh] s s' := by
  unfold execDoorbellWrite at h
  obtain rfl := onUnit_next h
  exact (slotRow_within (.refl _ _) rfl (fun s1 h1 => (.step (doorbell_within ..) rfl h1)))

theorem execInlineDoorbell_within {i q enables bytes s s'} (h : execInlineDoorbell i q enables bytes s = .next s') : Within [.regs, .modes, .core, .bus, .mem, .evc, .flt, .trc, .swc, .brg, .lode, .host, .wtt, .ins, .dma, .str, .cal, .age, .gal, .outbox, .fresh] s s' := by
  unfold execInlineDoorbell at h
  obtain rfl := onUnit_next h
  exact (slotRow_within (.refl _ _) rfl (fun s1 h1 => (.step (doorbell64_within ..) rfl h1)))

theorem execQueueEnable_within {t q s s'} (h : execQueueEnable t q s = .next s') : Within [.regs, .modes, .core, .bus, .mem, .evc, .flt, .trc, .swc, .brg, .lode, .host, .wtt, .ins, .dma, .str, .cal, .age, .gal, .outbox, .fresh] s s' := by
  unfold execQueueEnable at h
  obtain rfl := onUnit_next h
  exact (queueRow_within (.refl _ _) rfl (fun s1 h1 => (.step (queueCmd_within ..) rfl h1)))

theorem execQueueResume_within {t q s s'} (h : execQueueResume t q s = .next s') : Within [.regs, .modes, .core, .bus, .mem, .evc, .flt, .trc, .swc, .brg, .lode, .host, .wtt, .ins, .dma, .str, .cal, .age, .gal, .outbox, .fresh] s s' := by
  unfold execQueueResume at h
  obtain rfl := onUnit_next h
  exact (queueRow_within (.refl _ _) rfl (fun s1 h1 => (.step (queueCmd_within ..) rfl h1)))

theorem execQueueSkip_within {t q s s'} (h : execQueueSkip t q s = .next s') : Within [.regs, .modes, .core, .bus, .mem, .evc, .flt, .trc, .swc, .brg, .lode, .host, .wtt, .ins, .dma, .str, .cal, .age, .gal, .outbox, .fresh] s s' := by
  unfold execQueueSkip at h
  obtain rfl := onUnit_next h
  exact (queueRow_within (.refl _ _) rfl (fun s1 h1 => (.step (queueCmd_within ..) rfl h1)))

theorem execQueueReset_within {t q s s'} (h : execQueueReset t q s = .next s') : Within [.regs, .modes, .core, .bus, .mem, .evc, .flt, .trc, .swc, .brg, .lode, .host, .wtt, .ins, .dma, .str, .cal, .age, .gal, .outbox, .fresh] s s' := by
  unfold execQueueReset at h
  obtain rfl := onUnit_next h
  exact (queueRow_within (.refl _ _) rfl (fun s1 h1 => (.step (queueCmd_within ..) rfl h1)))

theorem execCplHeadWrite_within {t q be v s s'} (h : execCplHeadWrite t q be v s = .next s') : Within [.regs, .modes, .core, .bus, .mem, .evc, .flt, .trc, .swc, .brg, .lode, .host, .wtt, .ins, .dma, .str, .cal, .age, .gal, .outbox, .fresh] s s' := by
  unfold execCplHeadWrite at h
  obtain rfl := onUnit_next h
  exact (queueRow_within (.refl _ _) rfl (fun s1 h1 => (.step (cplHead_within ..) rfl h1)))

theorem execDmaQctxRead_within {t s s'} (h : execDmaQctxRead t s = .next s') : Within [.regs, .modes, .core, .bus, .mem, .evc, .flt, .trc, .swc, .brg, .lode, .host, .wtt, .ins, .dma, .str, .cal, .age, .gal, .outbox, .fresh] s s' := by
  unfold execDmaQctxRead at h
  obtain rfl := onTile_next h
  exact (regRow_within (.refl _ _) rfl (fun s1 h1 => (.step (qctxRead_within ..) rfl h1)))

theorem execDmaQctxWrite_within {t s s'} (h : execDmaQctxWrite t s = .next s') : Within [.regs, .modes, .core, .bus, .mem, .evc, .flt, .trc, .swc, .brg, .lode, .host, .wtt, .ins, .dma, .str, .cal, .age, .gal, .outbox, .fresh] s s' := by
  unfold execDmaQctxWrite at h
  obtain rfl := onTile_next h
  exact (regRow_within (.refl _ _) rfl (fun s1 h1 => (.step (qctxWrite_within ..) rfl h1)))

theorem execSetShare_within {t s s'} (h : execSetShare t s = .next s') : Within [.regs, .modes, .core, .bus, .mem, .evc, .flt, .trc, .swc, .brg, .lode, .host, .wtt, .ins, .dma, .str, .cal, .age, .gal, .outbox, .fresh] s s' := by
  unfold execSetShare at h
  obtain rfl := onTile_next h
  exact (regRow_within (.refl _ _) rfl (fun s1 h1 => (.step (qctxShare_within ..) rfl h1)))

theorem execQctxCommand_within {t s s'} (h : execQctxCommand t s = .next s') : Within [.regs, .modes, .core, .bus, .mem, .evc, .flt, .trc, .swc, .brg, .lode, .host, .wtt, .ins, .dma, .str, .cal, .age, .gal, .outbox, .fresh] s s' := by
  unfold execQctxCommand at h
  obtain rfl := onTile_next h
  exact (regRow_within (.refl _ _) rfl (fun s1 h1 => (.step (qctxCmd_within ..) rfl h1)))

theorem execDmaCntRead_within {t s s'} (h : execDmaCntRead t s = .next s') : Within [.regs, .modes, .core, .bus, .mem, .evc, .flt, .trc, .swc, .brg, .lode, .host, .wtt, .ins, .dma, .str, .cal, .age, .gal, .outbox, .fresh] s s' := by
  unfold execDmaCntRead at h
  obtain rfl := onTile_next h
  exact (regRow_within (.refl _ _) rfl (fun s1 h1 => (.step (dmaCntRead_within ..) rfl h1)))

theorem execDmaCntWrite_within {t s s'} (h : execDmaCntWrite t s = .next s') : Within [.regs, .modes, .core, .bus, .mem, .evc, .flt, .trc, .swc, .brg, .lode, .host, .wtt, .ins, .dma, .str, .cal, .age, .gal, .outbox, .fresh] s s' := by
  unfold execDmaCntWrite at h
  obtain rfl := onTile_next h
  exact (regRow_within (.refl _ _) rfl (fun s1 h1 => (.step (dmaCntWrite_within ..) rfl h1)))

theorem execInstanceRead_within {t m s s'} (h : execInstanceRead t m s = .next s') : Within [.regs, .modes, .core, .bus, .mem, .evc, .flt, .trc, .swc, .brg, .lode, .host, .wtt, .ins, .dma, .str, .cal, .age, .gal, .outbox, .fresh] s s' := by
  unfold execInstanceRead at h
  obtain rfl := onUnit_next h
  exact (regRow_within (.refl _ _) rfl (fun s1 h1 => (.step (instRead_within ..) rfl h1)))

theorem execInstanceWrite_within {t m s s'} (h : execInstanceWrite t m s = .next s') : Within [.regs, .modes, .core, .bus, .mem, .evc, .flt, .trc, .swc, .brg, .lode, .host, .wtt, .ins, .dma, .str, .cal, .age, .gal, .outbox, .fresh] s s' := by
  unfold execInstanceWrite at h
  obtain rfl := onUnit_next h
  exact (regRow_within (.refl _ _) rfl (fun s1 h1 => (.step (instWrite_within ..) rfl h1)))

theorem execCreate_within {t m s s'} (h : execCreate t m s = .next s') : Within [.regs, .modes, .core, .bus, .mem, .evc, .flt, .trc, .swc, .brg, .lode, .host, .wtt, .ins, .dma, .str, .cal, .age, .gal, .outbox, .fresh] s s' := by
  unfold execCreate at h
  obtain rfl := onUnit_next h
  exact (regRow_within (.refl _ _) rfl (fun s1 h1 => (.step (create_within ..) rfl h1)))

theorem execRemove_within {t m s s'} (h : execRemove t m s = .next s') : Within [.regs, .modes, .core, .bus, .mem, .evc, .flt, .trc, .swc, .brg, .lode, .host, .wtt, .ins, .dma, .str, .cal, .age, .gal, .outbox, .fresh] s s' := by
  unfold execRemove at h
  obtain rfl := onUnit_next h
  exact (regRow_within (.refl _ _) rfl (fun s1 h1 => (.step (remove_within ..) rfl h1)))

theorem execBind_within {t m s s'} (h : execBind t m s = .next s') : Within [.regs, .modes, .core, .bus, .mem, .evc, .flt, .trc, .swc, .brg, .lode, .host, .wtt, .ins, .dma, .str, .cal, .age, .gal, .outbox, .fresh] s s' := by
  unfold execBind at h
  obtain rfl := onUnit_next h
  exact (regRow_within (.refl _ _) rfl (fun s1 h1 => (.step (bindInst_within ..) rfl h1)))

theorem execUnbind_within {t m s s'} (h : execUnbind t m s = .next s') : Within [.regs, .modes, .core, .bus, .mem, .evc, .flt, .trc, .swc, .brg, .lode, .host, .wtt, .ins, .dma, .str, .cal, .age, .gal, .outbox, .fresh] s s' := by
  unfold execUnbind at h
  obtain rfl := onUnit_next h
  exact (regRow_within (.refl _ _) rfl (fun s1 h1 => (.step (unbindCmd_within ..) rfl h1)))

theorem execFreeze_within {t m s s'} (h : execFreeze t m s = .next s') : Within [.regs, .modes, .core, .bus, .mem, .evc, .flt, .trc, .swc, .brg, .lode, .host, .wtt, .ins, .dma, .str, .cal, .age, .gal, .outbox, .fresh] s s' := by
  unfold execFreeze at h
  obtain rfl := onUnit_next h
  exact (regRow_within (.refl _ _) rfl (fun s1 h1 => (.step (freezeCmd_within ..) rfl h1)))

theorem execInstanceResume_within {t m s s'} (h : execInstanceResume t m s = .next s') : Within [.regs, .modes, .core, .bus, .mem, .evc, .flt, .trc, .swc, .brg, .lode, .host, .wtt, .ins, .dma, .str, .cal, .age, .gal, .outbox, .fresh] s s' := by
  unfold execInstanceResume at h
  obtain rfl := onUnit_next h
  exact (regRow_within (.refl _ _) rfl (fun s1 h1 => (.step (resumeCmd_within ..) rfl h1)))

theorem execInstanceResetCommand_within {t m s s'} (h : execInstanceResetCommand t m s = .next s') : Within [.regs, .modes, .core, .bus, .mem, .evc, .flt, .trc, .swc, .brg, .lode, .host, .wtt, .ins, .dma, .str, .cal, .age, .gal, .outbox, .fresh] s s' := by
  unfold execInstanceResetCommand at h
  obtain rfl := onUnit_next h
  exact (regRow_within (.refl _ _) rfl (fun s1 h1 => (.step (resetCmd_within ..) rfl h1)))

theorem execSetWeight_within {t m s s'} (h : execSetWeight t m s = .next s') : Within [.regs, .modes, .core, .bus, .mem, .evc, .flt, .trc, .swc, .brg, .lode, .host, .wtt, .ins, .dma, .str, .cal, .age, .gal, .outbox, .fresh] s s' := by
  unfold execSetWeight at h
  obtain rfl := onUnit_next h
  exact (regRow_within (.refl _ _) rfl (fun s1 h1 => (.step (setWeightCmd_within ..) rfl h1)))

theorem execLogClear_within {t m s s'} (h : execLogClear t m s = .next s') : Within [.regs, .modes, .core, .bus, .mem, .evc, .flt, .trc, .swc, .brg, .lode, .host, .wtt, .ins, .dma, .str, .cal, .age, .gal, .outbox, .fresh] s s' := by
  unfold execLogClear at h
  obtain rfl := onUnit_next h
  exact (regRow_within (.refl _ _) rfl (fun s1 h1 => (.step (logClearCmd_within ..) rfl h1)))

theorem execLogCmdClear_within {i s s'} (h : execLogCmdClear i s = .next s') : Within [.regs, .modes, .core, .bus, .mem, .evc, .flt, .trc, .swc, .brg, .lode, .host, .wtt, .ins, .dma, .str, .cal, .age, .gal, .outbox, .fresh] s s' := by
  unfold execLogCmdClear at h
  obtain rfl := onUnit_next h
  exact (pageRow_within (.refl _ _) rfl (fun s1 h1 => (.step (logCmdClear_within ..) rfl h1)))

theorem execLogEnable_within {i s s'} (h : execLogEnable i s = .next s') : Within [.regs, .modes, .core, .bus, .mem, .evc, .flt, .trc, .swc, .brg, .lode, .host, .wtt, .ins, .dma, .str, .cal, .age, .gal, .outbox, .fresh] s s' := by
  unfold execLogEnable at h
  obtain rfl := onUnit_next h
  exact (pageRow_within (.refl _ _) rfl (fun s1 h1 => (.step (logEnable_within ..) rfl h1)))

theorem execRelease_within {i s s'} (h : execRelease i s = .next s') : Within [.regs, .modes, .core, .bus, .mem, .evc, .flt, .trc, .swc, .brg, .lode, .host, .wtt, .ins, .dma, .str, .cal, .age, .gal, .outbox, .fresh] s s' := by
  unfold execRelease at h
  obtain rfl := onUnit_next h
  exact (pageRow_within (.refl _ _) rfl (fun s1 h1 => (.step (releaseInst_within ..) rfl h1)))

theorem execPendingWordWrite_within {t w be v s s'} (h : execPendingWordWrite t w be v s = .next s') : Within [.regs, .modes, .core, .bus, .mem, .evc, .flt, .trc, .swc, .brg, .lode, .host, .wtt, .ins, .dma, .str, .cal, .age, .gal, .outbox, .fresh] s s' := by
  unfold execPendingWordWrite at h
  obtain rfl := onUnit_next h
  exact (regRow_within (.refl _ _) rfl (fun s1 h1 => (.step (pendWrite_within ..) rfl h1)))

theorem execPendingWordRead_within {t w s s'} (h : execPendingWordRead t w s = .next s') : Within [.regs, .modes, .core, .bus, .mem, .evc, .flt, .trc, .swc, .brg, .lode, .host, .wtt, .ins, .dma, .str, .cal, .age, .gal, .outbox, .fresh] s s' := by
  unfold execPendingWordRead at h
  obtain rfl := onUnit_next h
  exact (readRow_within (.refl _ _) rfl (fun s1 h1 => (.step (emit_within ..) rfl (.step (pendRead_within ..) rfl h1))))

theorem execRouteWrite_within {t src route s s'} (h : execRouteWrite t src route s = .next s') : Within [.regs, .modes, .core, .bus, .mem, .evc, .flt, .trc, .swc, .brg, .lode, .host, .wtt, .ins, .dma, .str, .cal, .age, .gal, .outbox, .fresh] s s' := by
  unfold execRouteWrite at h
  obtain rfl := onUnit_next h
  exact (regRow_within (.refl _ _) rfl (fun s1 h1 => (.step (routeWrite_within ..) rfl h1)))

theorem execTargetDone_within {t x check seq s s'} (h : execTargetDone t x check seq s = .next s') : Within [.regs, .modes, .core, .bus, .mem, .evc, .flt, .trc, .swc, .brg, .lode, .host, .wtt, .ins, .dma, .str, .cal, .age, .gal, .outbox, .fresh] s s' := by
  unfold execTargetDone at h
  obtain rfl := onUnit_next h
  exact (regRow_within (.refl _ _) rfl (fun s1 h1 => (.ite h1 (.step (targetDone_within ..) rfl h1))))

theorem execFaultAcknowledge_within {t b bits s s'} (h : execFaultAcknowledge t b bits s = .next s') : Within [.regs, .modes, .core, .bus, .mem, .evc, .flt, .trc, .swc, .brg, .lode, .host, .wtt, .ins, .dma, .str, .cal, .age, .gal, .outbox, .fresh] s s' := by
  unfold execFaultAcknowledge at h
  obtain rfl := onUnit_next h
  exact (regRow_within (.refl _ _) rfl (fun s1 h1 => (.step (faultAck_within ..) rfl h1)))

theorem execDumpRelease_within {slot s s'} (h : execDumpRelease slot s = .next s') : Within [.regs, .modes, .core, .bus, .mem, .evc, .flt, .trc, .swc, .brg, .lode, .host, .wtt, .ins, .dma, .str, .cal, .age, .gal, .outbox, .fresh] s s' := by
  unfold execDumpRelease at h
  obtain rfl := onUnit_next h
  exact (regRow_within (.refl _ _) rfl (fun s1 h1 => (.step (dumpFree_within ..) rfl h1)))

theorem execTimestampRead_within {s s'} (h : execTimestampRead s = .next s') : Within [.regs, .modes, .core, .bus, .mem, .evc, .flt, .trc, .swc, .brg, .lode, .host, .wtt, .ins, .dma, .str, .cal, .age, .gal, .outbox, .fresh] s s' := by
  unfold execTimestampRead at h
  cases h
  exact (regRow_within (.refl _ _) rfl (fun s1 h1 => (.step (tsRead_within ..) rfl h1)))

theorem execTimestampWrite_within {s s'} (h : execTimestampWrite s = .next s') : Within [.regs, .modes, .core, .bus, .mem, .evc, .flt, .trc, .swc, .brg, .lode, .host, .wtt, .ins, .dma, .str, .cal, .age, .gal, .outbox, .fresh] s s' := by
  unfold execTimestampWrite at h
  cases h
  exact (regRow_within (.refl _ _) rfl (fun s1 h1 => (.step (tsWrite_within ..) rfl h1)))

theorem execSlew_within {s s'} (h : execSlew s = .next s') : Within [.regs, .modes, .core, .bus, .mem, .evc, .flt, .trc, .swc, .brg, .lode, .host, .wtt, .ins, .dma, .str, .cal, .age, .gal, .outbox, .fresh] s s' := by
  unfold execSlew at h
  cases h
  exact (regRow_within (.refl _ _) rfl (fun s1 h1 => (.step (tsSlew_within ..) rfl h1)))

theorem execPlanNow_within {readings s s'} (h : execPlanNow readings s = .next s') : Within [.regs, .modes, .core, .bus, .mem, .evc, .flt, .trc, .swc, .brg, .lode, .host, .wtt, .ins, .dma, .str, .cal, .age, .gal, .outbox, .fresh] s s' := by
  unfold execPlanNow at h
  cases h
  exact (regRow_within (.refl _ _) rfl (fun s1 h1 => (.step (planNow_within ..) rfl h1)))

theorem execMaintGrant_within {t minutes scope s s'} (h : execMaintGrant t minutes scope s = .next s') : Within [.regs, .modes, .core, .bus, .mem, .evc, .flt, .trc, .swc, .brg, .lode, .host, .wtt, .ins, .dma, .str, .cal, .age, .gal, .outbox, .fresh] s s' := by
  unfold execMaintGrant at h
  obtain rfl := onTile_next h
  exact (regRow_within (.refl _ _) rfl (fun s1 h1 => (.step (maintWrite_within ..) rfl h1)))

theorem execRread_within {m s s'} (h : execRread m s = .next s') : Within [.regs, .modes, .core, .bus, .mem, .evc, .flt, .trc, .swc, .brg, .lode, .host, .wtt, .ins, .dma, .str, .cal, .age, .gal, .outbox, .fresh] s s' := by
  unfold execRread at h
  obtain rfl := onUnit_next h
  exact (regRow_within (.refl _ _) rfl (fun s1 h1 => (.step (rmtStart_within ..) rfl h1)))

theorem execRwrite_within {m s s'} (h : execRwrite m s = .next s') : Within [.regs, .modes, .core, .bus, .mem, .evc, .flt, .trc, .swc, .brg, .lode, .host, .wtt, .ins, .dma, .str, .cal, .age, .gal, .outbox, .fresh] s s' := by
  unfold execRwrite at h
  obtain rfl := onUnit_next h
  exact (regRow_within (.refl _ _) rfl (fun s1 h1 => (.step (rmtStart_within ..) rfl h1)))

theorem execDistImg_within {m s s'} (h : execDistImg m s = .next s') : Within [.regs, .modes, .core, .bus, .mem, .evc, .flt, .trc, .swc, .brg, .lode, .host, .wtt, .ins, .dma, .str, .cal, .age, .gal, .outbox, .fresh] s s' := by
  unfold execDistImg at h
  obtain rfl := onUnit_next h
  exact (regRow_within (.refl _ _) rfl (fun s1 h1 => (.step (rmtStart_within ..) rfl h1)))

theorem execHfErase_within {m s s'} (h : execHfErase m s = .next s') : Within [.regs, .modes, .core, .bus, .mem, .evc, .flt, .trc, .swc, .brg, .lode, .host, .wtt, .ins, .dma, .str, .cal, .age, .gal, .outbox, .fresh] s s' := by
  unfold execHfErase at h
  obtain rfl := onUnit_next h
  exact (regRow_within (.refl _ _) rfl (fun s1 h1 => (.step (rmtStart_within ..) rfl h1)))

theorem execDistHf_within {m s s'} (h : execDistHf m s = .next s') : Within [.regs, .modes, .core, .bus, .mem, .evc, .flt, .trc, .swc, .brg, .lode, .host, .wtt, .ins, .dma, .str, .cal, .age, .gal, .outbox, .fresh] s s' := by
  unfold execDistHf at h
  obtain rfl := onUnit_next h
  exact (regRow_within (.refl _ _) rfl (fun s1 h1 => (.step (rmtStart_within ..) rfl h1)))

theorem execHfCheck_within {m s s'} (h : execHfCheck m s = .next s') : Within [.regs, .modes, .core, .bus, .mem, .evc, .flt, .trc, .swc, .brg, .lode, .host, .wtt, .ins, .dma, .str, .cal, .age, .gal, .outbox, .fresh] s s' := by
  unfold execHfCheck at h
  obtain rfl := onUnit_next h
  exact (regRow_within (.refl _ _) rfl (fun s1 h1 => (.step (rmtStart_within ..) rfl h1)))

theorem execAlarmRead_within {t s s'} (h : execAlarmRead t s = .next s') : Within [.regs, .modes, .core, .bus, .mem, .evc, .flt, .trc, .swc, .brg, .lode, .host, .wtt, .ins, .dma, .str, .cal, .age, .gal, .outbox, .fresh] s s' := by
  unfold execAlarmRead at h
  obtain rfl := onTile_next h
  exact (regRow_within (.refl _ _) rfl (fun s1 h1 => (.step (alarmRead_within ..) rfl h1)))

theorem execAlarmAck_within {t s s'} (h : execAlarmAck t s = .next s') : Within [.regs, .modes, .core, .bus, .mem, .evc, .flt, .trc, .swc, .brg, .lode, .host, .wtt, .ins, .dma, .str, .cal, .age, .gal, .outbox, .fresh] s s' := by
  unfold execAlarmAck at h
  obtain rfl := onTile_next h
  exact (regRow_within (.refl _ _) rfl (fun s1 h1 => (.step (alarmAck_within ..) rfl h1)))

theorem execAlarmWrite_within {t s s'} (h : execAlarmWrite t s = .next s') : Within [.regs, .modes, .core, .bus, .mem, .evc, .flt, .trc, .swc, .brg, .lode, .host, .wtt, .ins, .dma, .str, .cal, .age, .gal, .outbox, .fresh] s s' := by
  unfold execAlarmWrite at h
  obtain rfl := onTile_next h
  exact (regRow_within (.refl _ _) rfl (fun s1 h1 => (.step (alarmWrite_within ..) rfl h1)))

theorem execChargeControlWrite_within {be v s s'} (h : execChargeControlWrite be v s = .next s') : Within [.regs, .modes, .core, .bus, .mem, .evc, .flt, .trc, .swc, .brg, .lode, .host, .wtt, .ins, .dma, .str, .cal, .age, .gal, .outbox, .fresh] s s' := by
  unfold execChargeControlWrite at h
  cases h
  exact (regRow_within (.refl _ _) rfl (fun s1 h1 => (.step (chargeWrite_within ..) rfl h1)))

theorem execRingFrameReceive_within {ringB bytes s s'} (h : execRingFrameReceive ringB bytes s = .next s') : Within [.regs, .modes, .core, .bus, .mem, .evc, .flt, .trc, .swc, .brg, .lode, .host, .wtt, .ins, .dma, .str, .cal, .age, .gal, .outbox, .fresh] s s' := by
  unfold execRingFrameReceive at h
  cases h
  exact (.step (ringReceive_within ..) rfl (.refl _ _))

theorem execMailboxCommandEnd_within {t mb s s'} (h : execMailboxCommandEnd t mb s = .next s') : Within [.regs, .modes, .core, .bus, .mem, .evc, .flt, .trc, .swc, .brg, .lode, .host, .wtt, .ins, .dma, .str, .cal, .age, .gal, .outbox, .fresh] s s' := by
  unfold execMailboxCommandEnd at h
  obtain rfl := onUnit_next h
  exact (.step (commandEnd_within ..) rfl (.refl _ _))

end Sys2Proof.Laws
end

