-- ==== Sys2Proof/Laws/PerInstr.lean ====
section
/-! SUPPORT. Statements made per command: a command well formed for a part is well formed for every larger part. -/

namespace Sys2Proof.Laws

open Sys2Proof

theorem tile_mono {a b t : Nat} (h : a ≤ b) (w : Wf.tile a t = true) : Wf.tile b t = true := by
  simp only [Wf.tile, decide_eq_true_eq] at *; omega

theorem link_mono {a b t : Nat} (h : a ≤ b) (w : Wf.link a t = true) : Wf.link b t = true := by
  simp only [Wf.link, decide_eq_true_eq] at *; omega

theorem inst_mono {a b t : Nat} (h : a ≤ b) (w : Wf.inst a t = true) : Wf.inst b t = true := by
  simp only [Wf.inst, decide_eq_true_eq] at *; omega

theorem reg_mono {a b t o : Nat} (h : a ≤ b) (w : Wf.reg a t o = true) : Wf.reg b t o = true := by
  simp only [Wf.reg, Bool.and_eq_true, decide_eq_true_eq] at *; omega

theorem queue_mono {a b t o : Nat} (h : a ≤ b) (w : Wf.queue a t o = true) : Wf.queue b t o = true := by
  simp only [Wf.queue, Bool.and_eq_true, decide_eq_true_eq] at *; omega

theorem slot_mono {a b t o : Nat} (h : a ≤ b) (w : Wf.slot a t o = true) : Wf.slot b t o = true := by
  simp only [Wf.slot, Bool.and_eq_true, decide_eq_true_eq] at *; omega

theorem localSlot_mono {a b t o : Nat} (h : a ≤ b) (w : Wf.localSlot a t o = true) : Wf.localSlot b t o = true := by
  simp only [Wf.localSlot, Bool.and_eq_true, decide_eq_true_eq] at *; omega

theorem port_mono {a b t o : Nat} (h : a ≤ b) (w : Wf.port a t o = true) : Wf.port b t o = true := by
  simp only [Wf.port, Bool.and_eq_true, decide_eq_true_eq] at *; omega

theorem out_mono {a b t o : Nat} (h : a ≤ b) (w : Wf.out a t o = true) : Wf.out b t o = true := by
  simp only [Wf.out, Bool.and_eq_true, decide_eq_true_eq] at *; omega

theorem mb_mono {a b t o : Nat} (h : a ≤ b) (w : Wf.mb a t o = true) : Wf.mb b t o = true := by
  simp only [Wf.mb, Bool.and_eq_true, decide_eq_true_eq] at *; omega

theorem bank_mono {a b t o : Nat} (h : a ≤ b) (w : Wf.bank a t o = true) : Wf.bank b t o = true := by
  simp only [Wf.bank, Bool.and_eq_true, decide_eq_true_eq] at *; omega

/-- Well-formedness grows with the part. -/
def WfMono.Statement (x : Instr) : Prop := ∀ a b : Nat, a ≤ b → x.wf a = true → x.wf b = true

theorem WfMono.registerWrite (t off : Nat) (be : BitVec 4) (v : Word) : WfMono.Statement (.registerWrite t off be v) :=
  fun _ _ h w => reg_mono h w

theorem WfMono.reservedAddressWrite (t off : Nat) (be : BitVec 4) (v : Word) : WfMono.Statement (.reservedAddressWrite t off be v) :=
  fun _ _ h w => reg_mono h w

theorem WfMono.crossingWriteTakesEffect (t dom : Nat) : WfMono.Statement (.crossingWriteTakesEffect t dom) :=
  fun _ _ h w => tile_mono h w

theorem WfMono.tvRegisterRead (t off : Nat) : WfMono.Statement (.tvRegisterRead t off) :=
  fun _ _ h w => reg_mono h w

theorem WfMono.tvScrub (t : Nat) : WfMono.Statement (.tvScrub t) :=
  fun _ _ h w => tile_mono h w

theorem WfMono.mbDataWrite (t mb k : Nat) (be : BitVec 4) (v : Word) : WfMono.Statement (.mbDataWrite t mb k be v) :=
  fun _ _ h w => (Bool.and_eq_true _ _).mpr (((Bool.and_eq_true _ _).mp w).imp (tile_mono h) id)

theorem WfMono.mailboxCommandEnd (t mb : Nat) : WfMono.Statement (.mailboxCommandEnd t mb) :=
  fun _ _ h w => (Bool.and_eq_true _ _).mpr (((Bool.and_eq_true _ _).mp w).imp (tile_mono h) id)

theorem WfMono.indirectDataAccess (t off : Nat) (wr : Option (BitVec 4 × Word)) : WfMono.Statement (.indirectDataAccess t off wr) :=
  fun _ _ h w => reg_mono h w

theorem WfMono.powerGoodRise : WfMono.Statement (.powerGoodRise) :=
  fun _ _ _ w => w

theorem WfMono.packageStart (mgrSel : Bool) (pkgId : BitVec 5) : WfMono.Statement (.packageStart mgrSel pkgId) :=
  fun _ _ _ w => w

theorem WfMono.packageReset : WfMono.Statement (.packageReset) :=
  fun _ _ _ w => w

theorem WfMono.powerDown : WfMono.Statement (.powerDown) :=
  fun _ _ _ w => w

theorem WfMono.enterService (t : Nat) : WfMono.Statement (.enterService t) :=
  fun _ _ h w => tile_mono h w

theorem WfMono.enterRecovery (t : Nat) : WfMono.Statement (.enterRecovery t) :=
  fun _ _ h w => tile_mono h w

theorem WfMono.enterTest (t : Nat) : WfMono.Statement (.enterTest t) :=
  fun _ _ h w => tile_mono h w

theorem WfMono.modeCommandDone (t : Nat) : WfMono.Statement (.modeCommandDone t) :=
  fun _ _ h w => tile_mono h w

theorem WfMono.tileReset (t : Nat) (tiles : BitVec 8) : WfMono.Statement (.tileReset t tiles) :=
  fun _ _ h w => tile_mono h w

theorem WfMono.tileResetComplete (t : Nat) : WfMono.Statement (.tileResetComplete t) :=
  fun _ _ h w => tile_mono h w

theorem WfMono.testMemoryBist (t : Nat) : WfMono.Statement (.testMemoryBist t) :=
  fun _ _ h w => tile_mono h w

theorem WfMono.testPrbs (t : Nat) (ports : BitVec 8) : WfMono.Statement (.testPrbs t ports) :=
  fun _ _ h w => tile_mono h w

theorem WfMono.testNearLoopback (t : Nat) (ports : BitVec 8) : WfMono.Statement (.testNearLoopback t ports) :=
  fun _ _ h w => tile_mono h w

theorem WfMono.testFarLoopback (t : Nat) (ports : BitVec 8) : WfMono.Statement (.testFarLoopback t ports) :=
  fun _ _ h w => tile_mono h w

theorem WfMono.testStop (t : Nat) (errors : Nat) (failed : BitVec 8) : WfMono.Statement (.testStop t errors failed) :=
  fun _ _ h w => tile_mono h w

theorem WfMono.bistDone (t : Nat) (errors : Nat) : WfMono.Statement (.bistDone t errors) :=
  fun _ _ h w => tile_mono h w

theorem WfMono.jtagBoundaryScan : WfMono.Statement (.jtagBoundaryScan) :=
  fun _ _ _ w => w

theorem WfMono.tapReset : WfMono.Statement (.tapReset) :=
  fun _ _ _ w => w

theorem WfMono.verify : WfMono.Statement (.verify) :=
  fun _ _ _ w => w

theorem WfMono.activate : WfMono.Statement (.activate) :=
  fun _ _ _ w => w

theorem WfMono.commitFloor : WfMono.Statement (.commitFloor) :=
  fun _ _ _ w => w

theorem WfMono.enrol : WfMono.Statement (.enrol) :=
  fun _ _ _ w => w

theorem WfMono.eraseInactive : WfMono.Statement (.eraseInactive) :=
  fun _ _ _ w => w

theorem WfMono.refreshFlash : WfMono.Statement (.refreshFlash) :=
  fun _ _ _ w => w

theorem WfMono.strCommandDone : WfMono.Statement (.strCommandDone) :=
  fun _ _ _ w => w

theorem WfMono.flashCopyDone : WfMono.Statement (.flashCopyDone) :=
  fun _ _ _ w => w

theorem WfMono.strImgDataWrite (be : BitVec 4) (v : Word) : WfMono.Statement (.strImgDataWrite be v) :=
  fun _ _ _ w => w

theorem WfMono.hostMemoryRequest (r : Tlp) : WfMono.Statement (.hostMemoryRequest r) :=
  fun _ _ h w => link_mono h w

theorem WfMono.hostRequestResolve (t : Nat) (read : WttRead) : WfMono.Statement (.hostRequestResolve t read) :=
  fun _ _ h w => tile_mono h w

theorem WfMono.prefetchAgeExpiry (t k : Nat) : WfMono.Statement (.prefetchAgeExpiry t k) :=
  fun _ _ h w => (Bool.and_eq_true _ _).mpr (((Bool.and_eq_true _ _).mp w).imp (tile_mono h) id)

theorem WfMono.configRequest (h f : Nat) (bus : BitVec 8) (off : Nat) (wr : Option (BitVec 4 × Word)) : WfMono.Statement (.configRequest h f bus off wr) :=
  fun _ _ h w => link_mono h w

theorem WfMono.deviceReadinessStatus (h : Nat) : WfMono.Statement (.deviceReadinessStatus h) :=
  fun _ _ h w => link_mono h w

theorem WfMono.hostIssue (h : Nat) : WfMono.Statement (.hostIssue h) :=
  fun _ _ h w => link_mono h w

theorem WfMono.hostTagWait (t : Nat) : WfMono.Statement (.hostTagWait t) :=
  fun _ _ h w => tile_mono h w

theorem WfMono.hostCompletion (h : Nat) (c : Cpl) : WfMono.Statement (.hostCompletion h c) :=
  fun _ _ h w => link_mono h w

theorem WfMono.hostReadTimeout (t e : Nat) : WfMono.Statement (.hostReadTimeout t e) :=
  fun _ _ h w => (Bool.and_eq_true _ _).mpr (((Bool.and_eq_true _ _).mp w).imp (tile_mono h) id)

theorem WfMono.hostTagQuarantineEnd (t e : Nat) : WfMono.Statement (.hostTagQuarantineEnd t e) :=
  fun _ _ h w => (Bool.and_eq_true _ _).mpr (((Bool.and_eq_true _ _).mp w).imp (tile_mono h) id)

theorem WfMono.msixSend (i v : Nat) : WfMono.Statement (.msixSend i v) :=
  fun _ _ h w => (Bool.or_eq_true _ _).mpr (((Bool.or_eq_true _ _).mp w).imp (inst_mono h) id)

theorem WfMono.aspmL1Entry (h : Nat) : WfMono.Statement (.aspmL1Entry h) :=
  fun _ _ h w => link_mono h w

theorem WfMono.rateCapWrite (h : Nat) (v : BitVec 3) : WfMono.Statement (.rateCapWrite h v) :=
  fun _ _ h w => link_mono h w

theorem WfMono.narrowWrite (h : Nat) (v : BitVec 3) : WfMono.Statement (.narrowWrite h v) :=
  fun _ _ h w => link_mono h w

theorem WfMono.hostL0pRequest (h : Nat) (width : BitVec 4) : WfMono.Statement (.hostL0pRequest h width) :=
  fun _ _ h w => link_mono h w

theorem WfMono.wakeAssert (h : Nat) : WfMono.Statement (.wakeAssert h) :=
  fun _ _ h w => link_mono h w

theorem WfMono.wakeTimeout (h : Nat) : WfMono.Statement (.wakeTimeout h) :=
  fun _ _ h w => link_mono h w

theorem WfMono.retrain (h : Nat) : WfMono.Statement (.retrain h) :=
  fun _ _ h w => link_mono h w

theorem WfMono.ltrWrite (h : Nat) (v : Word) : WfMono.Statement (.ltrWrite h v) :=
  fun _ _ h w => link_mono h w

theorem WfMono.spdmRequest (h : Nat) (object : List Byte) : WfMono.Statement (.spdmRequest h object) :=
  fun _ _ h w => link_mono h w

theorem WfMono.ideCheckFail (h stream : Nat) : WfMono.Statement (.ideCheckFail h stream) :=
  fun _ _ h w => (Bool.and_eq_true _ _).mpr (((Bool.and_eq_true _ _).mp w).imp (link_mono h) id)

theorem WfMono.unlockMessage (h f : Nat) : WfMono.Statement (.unlockMessage h f) :=
  fun _ _ h w => link_mono h w

theorem WfMono.perstAssert (h : Nat) : WfMono.Statement (.perstAssert h) :=
  fun _ _ h w => link_mono h w

theorem WfMono.perstDeassert (h : Nat) : WfMono.Statement (.perstDeassert h) :=
  fun _ _ h w => link_mono h w

theorem WfMono.hotReset (h : Nat) : WfMono.Statement (.hotReset h) :=
  fun _ _ h w => link_mono h w

theorem WfMono.dlDown (h : Nat) : WfMono.Statement (.dlDown h) :=
  fun _ _ h w => link_mono h w

theorem WfMono.flrInstanceFunction (h f : Nat) : WfMono.Statement (.flrInstanceFunction h f) :=
  fun _ _ h w => link_mono h w

theorem WfMono.flrPf (h f : Nat) : WfMono.Statement (.flrPf h f) :=
  fun _ _ h w => link_mono h w

theorem WfMono.flrManagerFunction : WfMono.Statement (.flrManagerFunction) :=
  fun _ _ _ w => w

theorem WfMono.linkTraining (t n : Nat) (steps : List TrainStep) : WfMono.Statement (.linkTraining t n steps) :=
  fun _ _ h w => localSlot_mono h w

theorem WfMono.trainingStepTimeout (t n : Nat) : WfMono.Statement (.trainingStepTimeout t n) :=
  fun _ _ h w => slot_mono h w

theorem WfMono.identifyRetry (t n : Nat) (identity : BitVec 16) : WfMono.Statement (.identifyRetry t n identity) :=
  fun _ _ h w => localSlot_mono h w

theorem WfMono.tileLinkTraining (t n : Nat) (steps : List TileStep) : WfMono.Statement (.tileLinkTraining t n steps) :=
  fun _ _ h w => (Bool.and_eq_true _ _).mpr (((Bool.and_eq_true _ _).mp w).imp (slot_mono h) id)

theorem WfMono.change (t n : Nat) : WfMono.Statement (.change t n) :=
  fun _ _ h w => slot_mono h w

theorem WfMono.lcrReceive (t n : Nat) (reqNum : BitVec 8) (identity : BitVec 16) (rate width : BitVec 2) : WfMono.Statement (.lcrReceive t n reqNum identity rate width) :=
  fun _ _ h w => slot_mono h w

theorem WfMono.lcrAckReceive (t n : Nat) (reqNum : BitVec 8) : WfMono.Statement (.lcrAckReceive t n reqNum) :=
  fun _ _ h w => slot_mono h w

theorem WfMono.lcrRefuseReceive (t n : Nat) (reqNum : BitVec 8) : WfMono.Statement (.lcrRefuseReceive t n reqNum) :=
  fun _ _ h w => slot_mono h w

theorem WfMono.lcrTimeout (t n : Nat) : WfMono.Statement (.lcrTimeout t n) :=
  fun _ _ h w => slot_mono h w

theorem WfMono.liveChangeComplete (t n : Nat) : WfMono.Statement (.liveChangeComplete t n) :=
  fun _ _ h w => slot_mono h w

theorem WfMono.down (t n : Nat) : WfMono.Statement (.down t n) :=
  fun _ _ h w => slot_mono h w

theorem WfMono.disable (t n : Nat) : WfMono.Statement (.disable t n) :=
  fun _ _ h w => slot_mono h w

theorem WfMono.downReceive (t n : Nat) : WfMono.Statement (.downReceive t n) :=
  fun _ _ h w => slot_mono h w

theorem WfMono.lockLoss (t n : Nat) : WfMono.Statement (.lockLoss t n) :=
  fun _ _ h w => slot_mono h w

theorem WfMono.recoveryComplete (t n : Nat) (steps : List TileStep) : WfMono.Statement (.recoveryComplete t n steps) :=
  fun _ _ h w => slot_mono h w

theorem WfMono.locklossTimerExpiry (t n : Nat) : WfMono.Statement (.locklossTimerExpiry t n) :=
  fun _ _ h w => slot_mono h w

theorem WfMono.flitTransmit (t n : Nat) : WfMono.Statement (.flitTransmit t n) :=
  fun _ _ h w => slot_mono h w

theorem WfMono.flitReceive (t n : Nat) (codewords : List Codeword) (bytes : List Byte) : WfMono.Statement (.flitReceive t n codewords bytes) :=
  fun _ _ h w => slot_mono h w

theorem WfMono.nakTimerExpiry (t n : Nat) (seq : BitVec 12) : WfMono.Statement (.nakTimerExpiry t n seq) :=
  fun _ _ h w => slot_mono h w

theorem WfMono.nakResume (t n : Nat) : WfMono.Statement (.nakResume t n) :=
  fun _ _ h w => slot_mono h w

theorem WfMono.replayTimerExpiry (t n : Nat) : WfMono.Statement (.replayTimerExpiry t n) :=
  fun _ _ h w => slot_mono h w

theorem WfMono.creditStallTimer (t n : Nat) (cls : BitVec 2) : WfMono.Statement (.creditStallTimer t n cls) :=
  fun _ _ h w => slot_mono h w

theorem WfMono.wrReceive (t n : Nat) (read : WttRead) : WfMono.Statement (.wrReceive t n read) :=
  fun _ _ h w => localSlot_mono h w

theorem WfMono.rdReceive (t n : Nat) : WfMono.Statement (.rdReceive t n) :=
  fun _ _ h w => localSlot_mono h w

theorem WfMono.heldReadSlotTake (t n : Nat) (read : WttRead) : WfMono.Statement (.heldReadSlotTake t n read) :=
  fun _ _ h w => localSlot_mono h w

theorem WfMono.eventAssert (t n : Nat) : WfMono.Statement (.eventAssert t n) :=
  fun _ _ h w => localSlot_mono h w

theorem WfMono.eventDeassert (t n : Nat) : WfMono.Statement (.eventDeassert t n) :=
  fun _ _ h w => localSlot_mono h w

theorem WfMono.eventEdge (t n : Nat) : WfMono.Statement (.eventEdge t n) :=
  fun _ _ h w => localSlot_mono h w

theorem WfMono.rspReceive (t n : Nat) : WfMono.Statement (.rspReceive t n) :=
  fun _ _ h w => localSlot_mono h w

theorem WfMono.ltpRspTimeout (t n : Nat) (tag : BitVec 12) : WfMono.Statement (.ltpRspTimeout t n tag) :=
  fun _ _ h w => localSlot_mono h w

theorem WfMono.lockBeginSend (t n : Nat) : WfMono.Statement (.lockBeginSend t n) :=
  fun _ _ h w => localSlot_mono h w

theorem WfMono.lockWaitExpiry (t n : Nat) : WfMono.Statement (.lockWaitExpiry t n) :=
  fun _ _ h w => localSlot_mono h w

theorem WfMono.frameArrival (t p : Nat) : WfMono.Statement (.frameArrival t p) :=
  fun _ _ h w => port_mono h w

theorem WfMono.frameAdmit (t p : Nat) : WfMono.Statement (.frameAdmit t p) :=
  fun _ _ h w => port_mono h w

theorem WfMono.poolTransfer (t f : Nat) : WfMono.Statement (.poolTransfer t f) :=
  fun _ _ h w => tile_mono h w

theorem WfMono.transitForward (t out : Nat) : WfMono.Statement (.transitForward t out) :=
  fun _ _ h w => out_mono h w

theorem WfMono.outputArbitration (t out : Nat) (read : CellRead) : WfMono.Statement (.outputArbitration t out read) :=
  fun _ _ h w => out_mono h w

theorem WfMono.queueUrgent (t out inp : Nat) (cls : BitVec 2) : WfMono.Statement (.queueUrgent t out inp cls) :=
  fun _ _ h w => (Bool.and_eq_true _ _).mpr (((Bool.and_eq_true _ _).mp w).imp (out_mono h) id)

theorem WfMono.frameAgeExpiry (t out inp : Nat) (cls : BitVec 2) : WfMono.Statement (.frameAgeExpiry t out inp cls) :=
  fun _ _ h w => (Bool.and_eq_true _ _).mpr (((Bool.and_eq_true _ _).mp w).imp (out_mono h) id)

theorem WfMono.frameAbort (t f : Nat) (ecc : Bool) : WfMono.Statement (.frameAbort t f ecc) :=
  fun _ _ h w => tile_mono h w

theorem WfMono.swcCntRead (t : Nat) : WfMono.Statement (.swcCntRead t) :=
  fun _ _ h w => tile_mono h w

theorem WfMono.swcCntWrite (t : Nat) : WfMono.Statement (.swcCntWrite t) :=
  fun _ _ h w => tile_mono h w

theorem WfMono.wttWindowRead (t : Nat) : WfMono.Statement (.wttWindowRead t) :=
  fun _ _ h w => tile_mono h w

theorem WfMono.wttWindowWrite (t : Nat) : WfMono.Statement (.wttWindowWrite t) :=
  fun _ _ h w => tile_mono h w

theorem WfMono.wttEntryRead (t m : Nat) : WfMono.Statement (.wttEntryRead t m) :=
  fun _ _ h w => mb_mono h w

theorem WfMono.wttEntryWrite (t m : Nat) : WfMono.Statement (.wttEntryWrite t m) :=
  fun _ _ h w => mb_mono h w

theorem WfMono.fill (t m : Nat) : WfMono.Statement (.fill t m) :=
  fun _ _ h w => mb_mono h w

theorem WfMono.fence (t : Nat) (i : BitVec 12) : WfMono.Statement (.fence t i) :=
  fun _ _ h w => tile_mono h w

theorem WfMono.fenceComplete (t : Nat) : WfMono.Statement (.fenceComplete t) :=
  fun _ _ h w => tile_mono h w

theorem WfMono.restamp (t : Nat) (i : BitVec 12) : WfMono.Statement (.restamp t i) :=
  fun _ _ h w => tile_mono h w

theorem WfMono.restampComplete (t : Nat) : WfMono.Statement (.restampComplete t) :=
  fun _ _ h w => tile_mono h w

theorem WfMono.holdRelease (id : Nat) : WfMono.Statement (.holdRelease id) :=
  fun _ _ _ w => w

theorem WfMono.zeroLengthReadComplete (t n : Nat) : WfMono.Statement (.zeroLengthReadComplete t n) :=
  fun _ _ h w => localSlot_mono h w

theorem WfMono.doorbellWrite (i q off : Nat) (be : BitVec 4) (v : Word) : WfMono.Statement (.doorbellWrite i q off be v) :=
  fun _ _ h w => inst_mono h w

theorem WfMono.inlineDoorbell (i q : Nat) (enables : List Bool) (bytes : List Byte) : WfMono.Statement (.inlineDoorbell i q enables bytes) :=
  fun _ _ h w => inst_mono h w

theorem WfMono.queueEnable (t q : Nat) : WfMono.Statement (.queueEnable t q) :=
  fun _ _ h w => queue_mono h w

theorem WfMono.queueResume (t q : Nat) : WfMono.Statement (.queueResume t q) :=
  fun _ _ h w => queue_mono h w

theorem WfMono.queueSkip (t q : Nat) : WfMono.Statement (.queueSkip t q) :=
  fun _ _ h w => queue_mono h w

theorem WfMono.queueReset (t q : Nat) : WfMono.Statement (.queueReset t q) :=
  fun _ _ h w => queue_mono h w

theorem WfMono.queueResetComplete (t q : Nat) : WfMono.Statement (.queueResetComplete t q) :=
  fun _ _ h w => queue_mono h w

theorem WfMono.cplHeadWrite (t q : Nat) (be : BitVec 4) (v : Word) : WfMono.Statement (.cplHeadWrite t q be v) :=
  fun _ _ h w => queue_mono h w

theorem WfMono.descriptorFetch (t q : Nat) : WfMono.Statement (.descriptorFetch t q) :=
  fun _ _ h w => queue_mono h w

theorem WfMono.localRingPoll (t q : Nat) : WfMono.Statement (.localRingPoll t q) :=
  fun _ _ h w => queue_mono h w

theorem WfMono.descriptorStart (t q : Nat) : WfMono.Statement (.descriptorStart t q) :=
  fun _ _ h w => queue_mono h w

theorem WfMono.completionEntryWrite (t q : Nat) : WfMono.Statement (.completionEntryWrite t q) :=
  fun _ _ h w => queue_mono h w

theorem WfMono.dmaQctxRead (t : Nat) : WfMono.Statement (.dmaQctxRead t) :=
  fun _ _ h w => tile_mono h w

theorem WfMono.dmaQctxWrite (t : Nat) : WfMono.Statement (.dmaQctxWrite t) :=
  fun _ _ h w => tile_mono h w

theorem WfMono.setShare (t : Nat) : WfMono.Statement (.setShare t) :=
  fun _ _ h w => tile_mono h w

theorem WfMono.qctxCommand (t : Nat) : WfMono.Statement (.qctxCommand t) :=
  fun _ _ h w => tile_mono h w

theorem WfMono.readIssue (t : Nat) : WfMono.Statement (.readIssue t) :=
  fun _ _ h w => tile_mono h w

theorem WfMono.dmaUrgent (t q : Nat) (prio : BitVec 2) : WfMono.Statement (.dmaUrgent t q prio) :=
  fun _ _ h w => queue_mono h w

theorem WfMono.drrEpoch (t : Nat) : WfMono.Statement (.drrEpoch t) :=
  fun _ _ h w => tile_mono h w

theorem WfMono.dmaReadData (t : Nat) : WfMono.Statement (.dmaReadData t) :=
  fun _ _ h w => tile_mono h w

theorem WfMono.dmaReadTimeout (t tag : Nat) : WfMono.Statement (.dmaReadTimeout t tag) :=
  fun _ _ h w => (Bool.and_eq_true _ _).mpr (((Bool.and_eq_true _ _).mp w).imp (tile_mono h) id)

theorem WfMono.writeIssue (t : Nat) : WfMono.Statement (.writeIssue t) :=
  fun _ _ h w => tile_mono h w

theorem WfMono.writeSettle (t : Nat) : WfMono.Statement (.writeSettle t) :=
  fun _ _ h w => tile_mono h w

theorem WfMono.writeSettleTimeout (t w : Nat) : WfMono.Statement (.writeSettleTimeout t w) :=
  fun _ _ h w => tile_mono h w

theorem WfMono.dmaAbortReport (t : Nat) : WfMono.Statement (.dmaAbortReport t) :=
  fun _ _ h w => tile_mono h w

theorem WfMono.queueHalt (t q : Nat) : WfMono.Statement (.queueHalt t q) :=
  fun _ _ h w => queue_mono h w

theorem WfMono.dmaCntRead (t : Nat) : WfMono.Statement (.dmaCntRead t) :=
  fun _ _ h w => tile_mono h w

theorem WfMono.dmaCntWrite (t : Nat) : WfMono.Statement (.dmaCntWrite t) :=
  fun _ _ h w => tile_mono h w

theorem WfMono.instanceRead (t m : Nat) : WfMono.Statement (.instanceRead t m) :=
  fun _ _ h w => mb_mono h w

theorem WfMono.instanceWrite (t m : Nat) : WfMono.Statement (.instanceWrite t m) :=
  fun _ _ h w => mb_mono h w

theorem WfMono.create (t m : Nat) : WfMono.Statement (.create t m) :=
  fun _ _ h w => mb_mono h w

theorem WfMono.remove (t m : Nat) : WfMono.Statement (.remove t m) :=
  fun _ _ h w => mb_mono h w

theorem WfMono.bind (t m : Nat) : WfMono.Statement (.bind t m) :=
  fun _ _ h w => mb_mono h w

theorem WfMono.unbind (t m : Nat) : WfMono.Statement (.unbind t m) :=
  fun _ _ h w => mb_mono h w

theorem WfMono.freeze (t m : Nat) : WfMono.Statement (.freeze t m) :=
  fun _ _ h w => mb_mono h w

theorem WfMono.freezeComplete (i : Nat) : WfMono.Statement (.freezeComplete i) :=
  fun _ _ h w => inst_mono h w

theorem WfMono.instanceResume (t m : Nat) : WfMono.Statement (.instanceResume t m) :=
  fun _ _ h w => mb_mono h w

theorem WfMono.instanceResetCommand (t m : Nat) : WfMono.Statement (.instanceResetCommand t m) :=
  fun _ _ h w => mb_mono h w

theorem WfMono.setWeight (t m : Nat) : WfMono.Statement (.setWeight t m) :=
  fun _ _ h w => mb_mono h w

theorem WfMono.logClear (t m : Nat) : WfMono.Statement (.logClear t m) :=
  fun _ _ h w => mb_mono h w

theorem WfMono.logCmdClear (i : Nat) : WfMono.Statement (.logCmdClear i) :=
  fun _ _ h w => inst_mono h w

theorem WfMono.logClearComplete (i : Nat) : WfMono.Statement (.logClearComplete i) :=
  fun _ _ h w => inst_mono h w

theorem WfMono.logEnable (i : Nat) : WfMono.Statement (.logEnable i) :=
  fun _ _ h w => inst_mono h w

theorem WfMono.dirtyLogEntryWrite (i : Nat) : WfMono.Statement (.dirtyLogEntryWrite i) :=
  fun _ _ h w => inst_mono h w

theorem WfMono.instanceReset (i : Nat) : WfMono.Statement (.instanceReset i) :=
  fun _ _ h w => inst_mono h w

theorem WfMono.instanceResetStallEnd (i : Nat) : WfMono.Statement (.instanceResetStallEnd i) :=
  fun _ _ h w => inst_mono h w

theorem WfMono.instanceResetDrainEnd (i : Nat) : WfMono.Statement (.instanceResetDrainEnd i) :=
  fun _ _ h w => inst_mono h w

theorem WfMono.release (i : Nat) : WfMono.Statement (.release i) :=
  fun _ _ h w => inst_mono h w

theorem WfMono.eventPinChange (t p : Nat) (level : Bool) : WfMono.Statement (.eventPinChange t p level) :=
  fun _ _ h w => (Bool.and_eq_true _ _).mpr (((Bool.and_eq_true _ _).mp w).imp (tile_mono h) id)

theorem WfMono.pendingWordWrite (t w : Nat) (be : BitVec 4) (v : Word) : WfMono.Statement (.pendingWordWrite t w be v) :=
  fun _ _ h w => (Bool.and_eq_true _ _).mpr (((Bool.and_eq_true _ _).mp w).imp (tile_mono h) id)

theorem WfMono.pendingWordRead (t w : Nat) : WfMono.Statement (.pendingWordRead t w) :=
  fun _ _ h w => (Bool.and_eq_true _ _).mpr (((Bool.and_eq_true _ _).mp w).imp (tile_mono h) id)

theorem WfMono.routeWrite (t src : Nat) (route : BitVec 11) : WfMono.Statement (.routeWrite t src route) :=
  fun _ _ h w => (Bool.and_eq_true _ _).mpr (((Bool.and_eq_true _ _).mp w).imp (tile_mono h) id)

theorem WfMono.evcDelivery (t : Nat) : WfMono.Statement (.evcDelivery t) :=
  fun _ _ h w => tile_mono h w

theorem WfMono.targetDone (t x : Nat) (check : Bool) (seq : BitVec 8) : WfMono.Statement (.targetDone t x check seq) :=
  fun _ _ h w => (Bool.and_eq_true _ _).mpr (((Bool.and_eq_true _ _).mp w).imp (tile_mono h) id)

theorem WfMono.holdoffExpiry (t g : Nat) : WfMono.Statement (.holdoffExpiry t g) :=
  fun _ _ h w => (Bool.and_eq_true _ _).mpr (((Bool.and_eq_true _ _).mp w).imp (tile_mono h) id)

theorem WfMono.faultRecord (t b c : Nat) (inst : Option Nat) (detail : BitVec 48) : WfMono.Statement (.faultRecord t b c inst detail) :=
  fun _ _ h w => bank_mono h w

theorem WfMono.headframeFaultService (t : Nat) : WfMono.Statement (.headframeFaultService t) :=
  fun _ _ h w => tile_mono h w

theorem WfMono.faultAcknowledge (t b : Nat) (bits : BitVec 8) : WfMono.Statement (.faultAcknowledge t b bits) :=
  fun _ _ h w => bank_mono h w

theorem WfMono.classBExpiry (t b i : Nat) : WfMono.Statement (.classBExpiry t b i) :=
  fun _ _ h w => bank_mono h w

theorem WfMono.classCExpiry (t b : Nat) : WfMono.Statement (.classCExpiry t b) :=
  fun _ _ h w => bank_mono h w

theorem WfMono.hfWatchdog (t : Nat) : WfMono.Statement (.hfWatchdog t) :=
  fun _ _ h w => tile_mono h w

theorem WfMono.dumpWrite : WfMono.Statement (.dumpWrite) :=
  fun _ _ _ w => w

theorem WfMono.dumpComplete : WfMono.Statement (.dumpComplete) :=
  fun _ _ _ w => w

theorem WfMono.dumpRelease (slot : Nat) : WfMono.Statement (.dumpRelease slot) :=
  fun _ _ _ w => w

theorem WfMono.faultLossSummary (t b : Nat) : WfMono.Statement (.faultLossSummary t b) :=
  fun _ _ h w => bank_mono h w

theorem WfMono.crystalStop : WfMono.Statement (.crystalStop) :=
  fun _ _ _ w => w

theorem WfMono.crystalResume : WfMono.Statement (.crystalResume) :=
  fun _ _ _ w => w

theorem WfMono.timestampRead : WfMono.Statement (.timestampRead) :=
  fun _ _ _ w => w

theorem WfMono.timestampWrite : WfMono.Statement (.timestampWrite) :=
  fun _ _ _ w => w

theorem WfMono.slew : WfMono.Statement (.slew) :=
  fun _ _ _ w => w

theorem WfMono.slewEnd : WfMono.Statement (.slewEnd) :=
  fun _ _ _ w => w

theorem WfMono.canarySample (readings : List (Nat × Nat × BitVec 24)) : WfMono.Statement (.canarySample readings) :=
  fun _ _ _ w => w

theorem WfMono.voltageRaiseStep (readings : List (Nat × Nat × BitVec 24)) (acked : Bool) : WfMono.Statement (.voltageRaiseStep readings acked) :=
  fun _ _ _ w => w

theorem WfMono.replanStart (readings : List (Nat × Nat × BitVec 24)) : WfMono.Statement (.replanStart readings) :=
  fun _ _ _ w => w

theorem WfMono.planNow (readings : List (Nat × Nat × BitVec 24)) : WfMono.Statement (.planNow readings) :=
  fun _ _ _ w => w

theorem WfMono.eqTrialEnd (t n : Nat) (trial : EqTrial) : WfMono.Statement (.eqTrialEnd t n trial) :=
  fun _ _ h w => localSlot_mono h w

theorem WfMono.replanEnd (eyes : List (Nat × BitVec 8 × Nat × Nat × Nat)) : WfMono.Statement (.replanEnd eyes) :=
  fun _ _ _ w => w

theorem WfMono.maintGrant (t : Nat) (minutes scope : BitVec 8) : WfMono.Statement (.maintGrant t minutes scope) :=
  fun _ _ h w => tile_mono h w

theorem WfMono.maintWindowEnd (t : Nat) : WfMono.Statement (.maintWindowEnd t) :=
  fun _ _ h w => tile_mono h w

theorem WfMono.helloSend : WfMono.Statement (.helloSend) :=
  fun _ _ _ w => w

theorem WfMono.ringFrameReceive (ringB : Bool) (bytes : List Byte) : WfMono.Statement (.ringFrameReceive ringB bytes) :=
  fun _ _ _ w => w

theorem WfMono.ringRxDown (ringB : Bool) : WfMono.Statement (.ringRxDown ringB) :=
  fun _ _ _ w => w

theorem WfMono.ringRxUp (ringB : Bool) : WfMono.Statement (.ringRxUp ringB) :=
  fun _ _ _ w => w

theorem WfMono.packageLost (p : Nat) : WfMono.Statement (.packageLost p) :=
  fun _ _ _ w => w

theorem WfMono.rread (m : Nat) : WfMono.Statement (.rread m) :=
  fun _ _ _ w => w

theorem WfMono.rwrite (m : Nat) : WfMono.Statement (.rwrite m) :=
  fun _ _ _ w => w

theorem WfMono.distImg (m : Nat) : WfMono.Statement (.distImg m) :=
  fun _ _ _ w => w

theorem WfMono.hfErase (m : Nat) : WfMono.Statement (.hfErase m) :=
  fun _ _ _ w => w

theorem WfMono.distHf (m : Nat) : WfMono.Statement (.distHf m) :=
  fun _ _ _ w => w

theorem WfMono.hfCheck (m : Nat) : WfMono.Statement (.hfCheck m) :=
  fun _ _ _ w => w

theorem WfMono.remoteTimeout (m : Nat) : WfMono.Statement (.remoteTimeout m) :=
  fun _ _ _ w => w

theorem WfMono.timeSend : WfMono.Statement (.timeSend) :=
  fun _ _ _ w => w

theorem WfMono.galSyncEdge : WfMono.Statement (.galSyncEdge) :=
  fun _ _ _ w => w

theorem WfMono.syncLost : WfMono.Statement (.syncLost) :=
  fun _ _ _ w => w

theorem WfMono.followingTimeout : WfMono.Statement (.followingTimeout) :=
  fun _ _ _ w => w

theorem WfMono.traceLossSummary (t b : Nat) : WfMono.Statement (.traceLossSummary t b) :=
  fun _ _ h w => (Bool.and_eq_true _ _).mpr (((Bool.and_eq_true _ _).mp w).imp (tile_mono h) id)

theorem WfMono.alarmRead (t : Nat) : WfMono.Statement (.alarmRead t) :=
  fun _ _ h w => tile_mono h w

theorem WfMono.alarmAck (t : Nat) : WfMono.Statement (.alarmAck t) :=
  fun _ _ h w => tile_mono h w

theorem WfMono.alarmWrite (t : Nat) : WfMono.Statement (.alarmWrite t) :=
  fun _ _ h w => tile_mono h w

theorem WfMono.governorWindow (t : Nat) (wanted : Nat) : WfMono.Statement (.governorWindow t wanted) :=
  fun _ _ h w => tile_mono h w

theorem WfMono.tempSample (t : Nat) (r0 r1 r2 r3 : Int) : WfMono.Statement (.tempSample t r0 r1 r2 r3) :=
  fun _ _ h w => tile_mono h w

theorem WfMono.vbatSample (mv : Nat) : WfMono.Statement (.vbatSample mv) :=
  fun _ _ _ w => w

theorem WfMono.chargeControlWrite (be : BitVec 4) (v : Word) : WfMono.Statement (.chargeControlWrite be v) :=
  fun _ _ _ w => w

theorem WfMono.pmbusRetry (acked : Bool) : WfMono.Statement (.pmbusRetry acked) :=
  fun _ _ _ w => w

theorem WfMono.vrmAlert : WfMono.Statement (.vrmAlert) :=
  fun _ _ _ w => w

theorem WfMono.smbusBlockRead (cmd : BitVec 8) : WfMono.Statement (.smbusBlockRead cmd) :=
  fun _ _ _ w => w

theorem WfMono.dlUp (h : Nat) (rate width : BitVec 4) (flit : Bool) : WfMono.Statement (.dlUp h rate width flit) :=
  fun _ _ h w => link_mono h w

theorem WfMono.rateChanged (h : Nat) (rate : BitVec 4) : WfMono.Statement (.rateChanged h rate) :=
  fun _ _ h w => link_mono h w

theorem WfMono.l0pChanged (h : Nat) (width : BitVec 4) : WfMono.Statement (.l0pChanged h width) :=
  fun _ _ h w => link_mono h w

theorem WfMono.ltpHeldRead (t n : Nat) : WfMono.Statement (.ltpHeldRead t n) :=
  fun _ _ h w => localSlot_mono h w

theorem WfMono.readVoutSample (acked : Bool) (readback : BitVec 16) : WfMono.Statement (.readVoutSample acked readback) :=
  fun _ _ _ w => w

theorem WfMono.vbatLost : WfMono.Statement (.vbatLost) :=
  fun _ _ _ w => w

end Sys2Proof.Laws
end

