-- ==== Sys2Proof/Laws/State.lean ====
section
/-! SUPPORT. The named updates of the state: what each field holds after one, and reads of registers and fields after writes. -/

namespace Sys2Proof.Laws

open Sys2Proof Sys2Proof.Machine

@[simp] theorem wreg_part (s : State) (t off : Nat) (v : Word) : (wreg s t off v).part = s.part := rfl
@[simp] theorem wreg_modes (s : State) (t off : Nat) (v : Word) : (wreg s t off v).modes = s.modes := rfl
@[simp] theorem wreg_core (s : State) (t off : Nat) (v : Word) : (wreg s t off v).core = s.core := rfl
@[simp] theorem wreg_bus (s : State) (t off : Nat) (v : Word) : (wreg s t off v).bus = s.bus := rfl
@[simp] theorem wreg_mem (s : State) (t off : Nat) (v : Word) : (wreg s t off v).mem = s.mem := rfl
@[simp] theorem wreg_evc (s : State) (t off : Nat) (v : Word) : (wreg s t off v).evc = s.evc := rfl
@[simp] theorem wreg_flt (s : State) (t off : Nat) (v : Word) : (wreg s t off v).flt = s.flt := rfl
@[simp] theorem wreg_trc (s : State) (t off : Nat) (v : Word) : (wreg s t off v).trc = s.trc := rfl
@[simp] theorem wreg_swc (s : State) (t off : Nat) (v : Word) : (wreg s t off v).swc = s.swc := rfl
@[simp] theorem wreg_brg (s : State) (t off : Nat) (v : Word) : (wreg s t off v).brg = s.brg := rfl
@[simp] theorem wreg_lode (s : State) (t off : Nat) (v : Word) : (wreg s t off v).lode = s.lode := rfl
@[simp] theorem wreg_host (s : State) (t off : Nat) (v : Word) : (wreg s t off v).host = s.host := rfl
@[simp] theorem wreg_wtt (s : State) (t off : Nat) (v : Word) : (wreg s t off v).wtt = s.wtt := rfl
@[simp] theorem wreg_ins (s : State) (t off : Nat) (v : Word) : (wreg s t off v).ins = s.ins := rfl
@[simp] theorem wreg_dma (s : State) (t off : Nat) (v : Word) : (wreg s t off v).dma = s.dma := rfl
@[simp] theorem wreg_otp (s : State) (t off : Nat) (v : Word) : (wreg s t off v).otp = s.otp := rfl
@[simp] theorem wreg_str (s : State) (t off : Nat) (v : Word) : (wreg s t off v).str = s.str := rfl
@[simp] theorem wreg_cal (s : State) (t off : Nat) (v : Word) : (wreg s t off v).cal = s.cal := rfl
@[simp] theorem wreg_age (s : State) (t off : Nat) (v : Word) : (wreg s t off v).age = s.age := rfl
@[simp] theorem wreg_gal (s : State) (t off : Nat) (v : Word) : (wreg s t off v).gal = s.gal := rfl
@[simp] theorem wreg_pwr (s : State) (t off : Nat) (v : Word) : (wreg s t off v).pwr = s.pwr := rfl
@[simp] theorem wreg_outbox (s : State) (t off : Nat) (v : Word) : (wreg s t off v).outbox = s.outbox := rfl
@[simp] theorem wreg_fresh (s : State) (t off : Nat) (v : Word) : (wreg s t off v).fresh = s.fresh := rfl
@[simp] theorem wreg_ticks (s : State) (t off : Nat) (v : Word) : (wreg s t off v).ticks = s.ticks := rfl
@[simp] theorem wreg_pending (s : State) (t off : Nat) (v : Word) : (wreg s t off v).pending = s.pending := rfl

@[simp] theorem sf_part (s : State) (t off lo n v : Nat) : (sf s t off lo n v).part = s.part := rfl
@[simp] theorem sf_modes (s : State) (t off lo n v : Nat) : (sf s t off lo n v).modes = s.modes := rfl
@[simp] theorem sf_core (s : State) (t off lo n v : Nat) : (sf s t off lo n v).core = s.core := rfl
@[simp] theorem sf_bus (s : State) (t off lo n v : Nat) : (sf s t off lo n v).bus = s.bus := rfl
@[simp] theorem sf_mem (s : State) (t off lo n v : Nat) : (sf s t off lo n v).mem = s.mem := rfl
@[simp] theorem sf_evc (s : State) (t off lo n v : Nat) : (sf s t off lo n v).evc = s.evc := rfl
@[simp] theorem sf_flt (s : State) (t off lo n v : Nat) : (sf s t off lo n v).flt = s.flt := rfl
@[simp] theorem sf_trc (s : State) (t off lo n v : Nat) : (sf s t off lo n v).trc = s.trc := rfl
@[simp] theorem sf_swc (s : State) (t off lo n v : Nat) : (sf s t off lo n v).swc = s.swc := rfl
@[simp] theorem sf_brg (s : State) (t off lo n v : Nat) : (sf s t off lo n v).brg = s.brg := rfl
@[simp] theorem sf_lode (s : State) (t off lo n v : Nat) : (sf s t off lo n v).lode = s.lode := rfl
@[simp] theorem sf_host (s : State) (t off lo n v : Nat) : (sf s t off lo n v).host = s.host := rfl
@[simp] theorem sf_wtt (s : State) (t off lo n v : Nat) : (sf s t off lo n v).wtt = s.wtt := rfl
@[simp] theorem sf_ins (s : State) (t off lo n v : Nat) : (sf s t off lo n v).ins = s.ins := rfl
@[simp] theorem sf_dma (s : State) (t off lo n v : Nat) : (sf s t off lo n v).dma = s.dma := rfl
@[simp] theorem sf_otp (s : State) (t off lo n v : Nat) : (sf s t off lo n v).otp = s.otp := rfl
@[simp] theorem sf_str (s : State) (t off lo n v : Nat) : (sf s t off lo n v).str = s.str := rfl
@[simp] theorem sf_cal (s : State) (t off lo n v : Nat) : (sf s t off lo n v).cal = s.cal := rfl
@[simp] theorem sf_age (s : State) (t off lo n v : Nat) : (sf s t off lo n v).age = s.age := rfl
@[simp] theorem sf_gal (s : State) (t off lo n v : Nat) : (sf s t off lo n v).gal = s.gal := rfl
@[simp] theorem sf_pwr (s : State) (t off lo n v : Nat) : (sf s t off lo n v).pwr = s.pwr := rfl
@[simp] theorem sf_outbox (s : State) (t off lo n v : Nat) : (sf s t off lo n v).outbox = s.outbox := rfl
@[simp] theorem sf_fresh (s : State) (t off lo n v : Nat) : (sf s t off lo n v).fresh = s.fresh := rfl
@[simp] theorem sf_ticks (s : State) (t off lo n v : Nat) : (sf s t off lo n v).ticks = s.ticks := rfl
@[simp] theorem sf_pending (s : State) (t off lo n v : Nat) : (sf s t off lo n v).pending = s.pending := rfl

@[simp] theorem cf_part (s : State) (t off lo n k : Nat) : (cf s t off lo n k).part = s.part := rfl
@[simp] theorem cf_modes (s : State) (t off lo n k : Nat) : (cf s t off lo n k).modes = s.modes := rfl
@[simp] theorem cf_core (s : State) (t off lo n k : Nat) : (cf s t off lo n k).core = s.core := rfl
@[simp] theorem cf_bus (s : State) (t off lo n k : Nat) : (cf s t off lo n k).bus = s.bus := rfl
@[simp] theorem cf_mem (s : State) (t off lo n k : Nat) : (cf s t off lo n k).mem = s.mem := rfl
@[simp] theorem cf_evc (s : State) (t off lo n k : Nat) : (cf s t off lo n k).evc = s.evc := rfl
@[simp] theorem cf_flt (s : State) (t off lo n k : Nat) : (cf s t off lo n k).flt = s.flt := rfl
@[simp] theorem cf_trc (s : State) (t off lo n k : Nat) : (cf s t off lo n k).trc = s.trc := rfl
@[simp] theorem cf_swc (s : State) (t off lo n k : Nat) : (cf s t off lo n k).swc = s.swc := rfl
@[simp] theorem cf_brg (s : State) (t off lo n k : Nat) : (cf s t off lo n k).brg = s.brg := rfl
@[simp] theorem cf_lode (s : State) (t off lo n k : Nat) : (cf s t off lo n k).lode = s.lode := rfl
@[simp] theorem cf_host (s : State) (t off lo n k : Nat) : (cf s t off lo n k).host = s.host := rfl
@[simp] theorem cf_wtt (s : State) (t off lo n k : Nat) : (cf s t off lo n k).wtt = s.wtt := rfl
@[simp] theorem cf_ins (s : State) (t off lo n k : Nat) : (cf s t off lo n k).ins = s.ins := rfl
@[simp] theorem cf_dma (s : State) (t off lo n k : Nat) : (cf s t off lo n k).dma = s.dma := rfl
@[simp] theorem cf_otp (s : State) (t off lo n k : Nat) : (cf s t off lo n k).otp = s.otp := rfl
@[simp] theorem cf_str (s : State) (t off lo n k : Nat) : (cf s t off lo n k).str = s.str := rfl
@[simp] theorem cf_cal (s : State) (t off lo n k : Nat) : (cf s t off lo n k).cal = s.cal := rfl
@[simp] theorem cf_age (s : State) (t off lo n k : Nat) : (cf s t off lo n k).age = s.age := rfl
@[simp] theorem cf_gal (s : State) (t off lo n k : Nat) : (cf s t off lo n k).gal = s.gal := rfl
@[simp] theorem cf_pwr (s : State) (t off lo n k : Nat) : (cf s t off lo n k).pwr = s.pwr := rfl
@[simp] theorem cf_outbox (s : State) (t off lo n k : Nat) : (cf s t off lo n k).outbox = s.outbox := rfl
@[simp] theorem cf_fresh (s : State) (t off lo n k : Nat) : (cf s t off lo n k).fresh = s.fresh := rfl
@[simp] theorem cf_ticks (s : State) (t off lo n k : Nat) : (cf s t off lo n k).ticks = s.ticks := rfl
@[simp] theorem cf_pending (s : State) (t off lo n k : Nat) : (cf s t off lo n k).pending = s.pending := rfl

@[simp] theorem stf_part (s : State) (t off lo n k : Nat) : (stf s t off lo n k).part = s.part := rfl
@[simp] theorem stf_modes (s : State) (t off lo n k : Nat) : (stf s t off lo n k).modes = s.modes := rfl
@[simp] theorem stf_core (s : State) (t off lo n k : Nat) : (stf s t off lo n k).core = s.core := rfl
@[simp] theorem stf_bus (s : State) (t off lo n k : Nat) : (stf s t off lo n k).bus = s.bus := rfl
@[simp] theorem stf_mem (s : State) (t off lo n k : Nat) : (stf s t off lo n k).mem = s.mem := rfl
@[simp] theorem stf_evc (s : State) (t off lo n k : Nat) : (stf s t off lo n k).evc = s.evc := rfl
@[simp] theorem stf_flt (s : State) (t off lo n k : Nat) : (stf s t off lo n k).flt = s.flt := rfl
@[simp] theorem stf_trc (s : State) (t off lo n k : Nat) : (stf s t off lo n k).trc = s.trc := rfl
@[simp] theorem stf_swc (s : State) (t off lo n k : Nat) : (stf s t off lo n k).swc = s.swc := rfl
@[simp] theorem stf_brg (s : State) (t off lo n k : Nat) : (stf s t off lo n k).brg = s.brg := rfl
@[simp] theorem stf_lode (s : State) (t off lo n k : Nat) : (stf s t off lo n k).lode = s.lode := rfl
@[simp] theorem stf_host (s : State) (t off lo n k : Nat) : (stf s t off lo n k).host = s.host := rfl
@[simp] theorem stf_wtt (s : State) (t off lo n k : Nat) : (stf s t off lo n k).wtt = s.wtt := rfl
@[simp] theorem stf_ins (s : State) (t off lo n k : Nat) : (stf s t off lo n k).ins = s.ins := rfl
@[simp] theorem stf_dma (s : State) (t off lo n k : Nat) : (stf s t off lo n k).dma = s.dma := rfl
@[simp] theorem stf_otp (s : State) (t off lo n k : Nat) : (stf s t off lo n k).otp = s.otp := rfl
@[simp] theorem stf_str (s : State) (t off lo n k : Nat) : (stf s t off lo n k).str = s.str := rfl
@[simp] theorem stf_cal (s : State) (t off lo n k : Nat) : (stf s t off lo n k).cal = s.cal := rfl
@[simp] theorem stf_age (s : State) (t off lo n k : Nat) : (stf s t off lo n k).age = s.age := rfl
@[simp] theorem stf_gal (s : State) (t off lo n k : Nat) : (stf s t off lo n k).gal = s.gal := rfl
@[simp] theorem stf_pwr (s : State) (t off lo n k : Nat) : (stf s t off lo n k).pwr = s.pwr := rfl
@[simp] theorem stf_outbox (s : State) (t off lo n k : Nat) : (stf s t off lo n k).outbox = s.outbox := rfl
@[simp] theorem stf_fresh (s : State) (t off lo n k : Nat) : (stf s t off lo n k).fresh = s.fresh := rfl
@[simp] theorem stf_ticks (s : State) (t off lo n k : Nat) : (stf s t off lo n k).ticks = s.ticks := rfl
@[simp] theorem stf_pending (s : State) (t off lo n k : Nat) : (stf s t off lo n k).pending = s.pending := rfl

@[simp] theorem emit_part (s : State) (o : Out) : (emit s o).part = s.part := rfl
@[simp] theorem emit_regs (s : State) (o : Out) : (emit s o).regs = s.regs := rfl
@[simp] theorem emit_modes (s : State) (o : Out) : (emit s o).modes = s.modes := rfl
@[simp] theorem emit_core (s : State) (o : Out) : (emit s o).core = s.core := rfl
@[simp] theorem emit_bus (s : State) (o : Out) : (emit s o).bus = s.bus := rfl
@[simp] theorem emit_mem (s : State) (o : Out) : (emit s o).mem = s.mem := rfl
@[simp] theorem emit_evc (s : State) (o : Out) : (emit s o).evc = s.evc := rfl
@[simp] theorem emit_flt (s : State) (o : Out) : (emit s o).flt = s.flt := rfl
@[simp] theorem emit_trc (s : State) (o : Out) : (emit s o).trc = s.trc := rfl
@[simp] theorem emit_swc (s : State) (o : Out) : (emit s o).swc = s.swc := rfl
@[simp] theorem emit_brg (s : State) (o : Out) : (emit s o).brg = s.brg := rfl
@[simp] theorem emit_lode (s : State) (o : Out) : (emit s o).lode = s.lode := rfl
@[simp] theorem emit_host (s : State) (o : Out) : (emit s o).host = s.host := rfl
@[simp] theorem emit_wtt (s : State) (o : Out) : (emit s o).wtt = s.wtt := rfl
@[simp] theorem emit_ins (s : State) (o : Out) : (emit s o).ins = s.ins := rfl
@[simp] theorem emit_dma (s : State) (o : Out) : (emit s o).dma = s.dma := rfl
@[simp] theorem emit_otp (s : State) (o : Out) : (emit s o).otp = s.otp := rfl
@[simp] theorem emit_str (s : State) (o : Out) : (emit s o).str = s.str := rfl
@[simp] theorem emit_cal (s : State) (o : Out) : (emit s o).cal = s.cal := rfl
@[simp] theorem emit_age (s : State) (o : Out) : (emit s o).age = s.age := rfl
@[simp] theorem emit_gal (s : State) (o : Out) : (emit s o).gal = s.gal := rfl
@[simp] theorem emit_pwr (s : State) (o : Out) : (emit s o).pwr = s.pwr := rfl
@[simp] theorem emit_fresh (s : State) (o : Out) : (emit s o).fresh = s.fresh := rfl
@[simp] theorem emit_ticks (s : State) (o : Out) : (emit s o).ticks = s.ticks := rfl
@[simp] theorem emit_pending (s : State) (o : Out) : (emit s o).pending = s.pending := rfl

@[simp] theorem tickFresh_part (s : State) (k : Nat) : (tickFresh s k).part = s.part := rfl
@[simp] theorem tickFresh_regs (s : State) (k : Nat) : (tickFresh s k).regs = s.regs := rfl
@[simp] theorem tickFresh_modes (s : State) (k : Nat) : (tickFresh s k).modes = s.modes := rfl
@[simp] theorem tickFresh_core (s : State) (k : Nat) : (tickFresh s k).core = s.core := rfl
@[simp] theorem tickFresh_bus (s : State) (k : Nat) : (tickFresh s k).bus = s.bus := rfl
@[simp] theorem tickFresh_mem (s : State) (k : Nat) : (tickFresh s k).mem = s.mem := rfl
@[simp] theorem tickFresh_evc (s : State) (k : Nat) : (tickFresh s k).evc = s.evc := rfl
@[simp] theorem tickFresh_flt (s : State) (k : Nat) : (tickFresh s k).flt = s.flt := rfl
@[simp] theorem tickFresh_trc (s : State) (k : Nat) : (tickFresh s k).trc = s.trc := rfl
@[simp] theorem tickFresh_swc (s : State) (k : Nat) : (tickFresh s k).swc = s.swc := rfl
@[simp] theorem tickFresh_brg (s : State) (k : Nat) : (tickFresh s k).brg = s.brg := rfl
@[simp] theorem tickFresh_lode (s : State) (k : Nat) : (tickFresh s k).lode = s.lode := rfl
@[simp] theorem tickFresh_host (s : State) (k : Nat) : (tickFresh s k).host = s.host := rfl
@[simp] theorem tickFresh_wtt (s : State) (k : Nat) : (tickFresh s k).wtt = s.wtt := rfl
@[simp] theorem tickFresh_ins (s : State) (k : Nat) : (tickFresh s k).ins = s.ins := rfl
@[simp] theorem tickFresh_dma (s : State) (k : Nat) : (tickFresh s k).dma = s.dma := rfl
@[simp] theorem tickFresh_otp (s : State) (k : Nat) : (tickFresh s k).otp = s.otp := rfl
@[simp] theorem tickFresh_str (s : State) (k : Nat) : (tickFresh s k).str = s.str := rfl
@[simp] theorem tickFresh_cal (s : State) (k : Nat) : (tickFresh s k).cal = s.cal := rfl
@[simp] theorem tickFresh_age (s : State) (k : Nat) : (tickFresh s k).age = s.age := rfl
@[simp] theorem tickFresh_gal (s : State) (k : Nat) : (tickFresh s k).gal = s.gal := rfl
@[simp] theorem tickFresh_pwr (s : State) (k : Nat) : (tickFresh s k).pwr = s.pwr := rfl
@[simp] theorem tickFresh_outbox (s : State) (k : Nat) : (tickFresh s k).outbox = s.outbox := rfl
@[simp] theorem tickFresh_ticks (s : State) (k : Nat) : (tickFresh s k).ticks = s.ticks := rfl
@[simp] theorem tickFresh_pending (s : State) (k : Nat) : (tickFresh s k).pending = s.pending := rfl

@[simp] theorem setTile_part (s : State) (t : Nat) (x : TileSt) : (setTile s t x).part = s.part := rfl
@[simp] theorem setTile_regs (s : State) (t : Nat) (x : TileSt) : (setTile s t x).regs = s.regs := rfl
@[simp] theorem setTile_modes (s : State) (t : Nat) (x : TileSt) : (setTile s t x).modes = s.modes := rfl
@[simp] theorem setTile_bus (s : State) (t : Nat) (x : TileSt) : (setTile s t x).bus = s.bus := rfl
@[simp] theorem setTile_mem (s : State) (t : Nat) (x : TileSt) : (setTile s t x).mem = s.mem := rfl
@[simp] theorem setTile_evc (s : State) (t : Nat) (x : TileSt) : (setTile s t x).evc = s.evc := rfl
@[simp] theorem setTile_flt (s : State) (t : Nat) (x : TileSt) : (setTile s t x).flt = s.flt := rfl
@[simp] theorem setTile_trc (s : State) (t : Nat) (x : TileSt) : (setTile s t x).trc = s.trc := rfl
@[simp] theorem setTile_swc (s : State) (t : Nat) (x : TileSt) : (setTile s t x).swc = s.swc := rfl
@[simp] theorem setTile_brg (s : State) (t : Nat) (x : TileSt) : (setTile s t x).brg = s.brg := rfl
@[simp] theorem setTile_lode (s : State) (t : Nat) (x : TileSt) : (setTile s t x).lode = s.lode := rfl
@[simp] theorem setTile_host (s : State) (t : Nat) (x : TileSt) : (setTile s t x).host = s.host := rfl
@[simp] theorem setTile_wtt (s : State) (t : Nat) (x : TileSt) : (setTile s t x).wtt = s.wtt := rfl
@[simp] theorem setTile_ins (s : State) (t : Nat) (x : TileSt) : (setTile s t x).ins = s.ins := rfl
@[simp] theorem setTile_dma (s : State) (t : Nat) (x : TileSt) : (setTile s t x).dma = s.dma := rfl
@[simp] theorem setTile_otp (s : State) (t : Nat) (x : TileSt) : (setTile s t x).otp = s.otp := rfl
@[simp] theorem setTile_str (s : State) (t : Nat) (x : TileSt) : (setTile s t x).str = s.str := rfl
@[simp] theorem setTile_cal (s : State) (t : Nat) (x : TileSt) : (setTile s t x).cal = s.cal := rfl
@[simp] theorem setTile_age (s : State) (t : Nat) (x : TileSt) : (setTile s t x).age = s.age := rfl
@[simp] theorem setTile_gal (s : State) (t : Nat) (x : TileSt) : (setTile s t x).gal = s.gal := rfl
@[simp] theorem setTile_pwr (s : State) (t : Nat) (x : TileSt) : (setTile s t x).pwr = s.pwr := rfl
@[simp] theorem setTile_outbox (s : State) (t : Nat) (x : TileSt) : (setTile s t x).outbox = s.outbox := rfl
@[simp] theorem setTile_fresh (s : State) (t : Nat) (x : TileSt) : (setTile s t x).fresh = s.fresh := rfl
@[simp] theorem setTile_ticks (s : State) (t : Nat) (x : TileSt) : (setTile s t x).ticks = s.ticks := rfl
@[simp] theorem setTile_pending (s : State) (t : Nat) (x : TileSt) : (setTile s t x).pending = s.pending := rfl

@[simp] theorem mramWrite_part (s : State) (t a : Nat) (l : List Byte) : (mramWrite s t a l).part = s.part := rfl
@[simp] theorem mramWrite_regs (s : State) (t a : Nat) (l : List Byte) : (mramWrite s t a l).regs = s.regs := rfl
@[simp] theorem mramWrite_modes (s : State) (t a : Nat) (l : List Byte) : (mramWrite s t a l).modes = s.modes := rfl
@[simp] theorem mramWrite_core (s : State) (t a : Nat) (l : List Byte) : (mramWrite s t a l).core = s.core := rfl
@[simp] theorem mramWrite_bus (s : State) (t a : Nat) (l : List Byte) : (mramWrite s t a l).bus = s.bus := rfl
@[simp] theorem mramWrite_evc (s : State) (t a : Nat) (l : List Byte) : (mramWrite s t a l).evc = s.evc := rfl
@[simp] theorem mramWrite_flt (s : State) (t a : Nat) (l : List Byte) : (mramWrite s t a l).flt = s.flt := rfl
@[simp] theorem mramWrite_trc (s : State) (t a : Nat) (l : List Byte) : (mramWrite s t a l).trc = s.trc := rfl
@[simp] theorem mramWrite_swc (s : State) (t a : Nat) (l : List Byte) : (mramWrite s t a l).swc = s.swc := rfl
@[simp] theorem mramWrite_brg (s : State) (t a : Nat) (l : List Byte) : (mramWrite s t a l).brg = s.brg := rfl
@[simp] theorem mramWrite_lode (s : State) (t a : Nat) (l : List Byte) : (mramWrite s t a l).lode = s.lode := rfl
@[simp] theorem mramWrite_host (s : State) (t a : Nat) (l : List Byte) : (mramWrite s t a l).host = s.host := rfl
@[simp] theorem mramWrite_wtt (s : State) (t a : Nat) (l : List Byte) : (mramWrite s t a l).wtt = s.wtt := rfl
@[simp] theorem mramWrite_ins (s : State) (t a : Nat) (l : List Byte) : (mramWrite s t a l).ins = s.ins := rfl
@[simp] theorem mramWrite_dma (s : State) (t a : Nat) (l : List Byte) : (mramWrite s t a l).dma = s.dma := rfl
@[simp] theorem mramWrite_otp (s : State) (t a : Nat) (l : List Byte) : (mramWrite s t a l).otp = s.otp := rfl
@[simp] theorem mramWrite_str (s : State) (t a : Nat) (l : List Byte) : (mramWrite s t a l).str = s.str := rfl
@[simp] theorem mramWrite_cal (s : State) (t a : Nat) (l : List Byte) : (mramWrite s t a l).cal = s.cal := rfl
@[simp] theorem mramWrite_age (s : State) (t a : Nat) (l : List Byte) : (mramWrite s t a l).age = s.age := rfl
@[simp] theorem mramWrite_gal (s : State) (t a : Nat) (l : List Byte) : (mramWrite s t a l).gal = s.gal := rfl
@[simp] theorem mramWrite_pwr (s : State) (t a : Nat) (l : List Byte) : (mramWrite s t a l).pwr = s.pwr := rfl
@[simp] theorem mramWrite_outbox (s : State) (t a : Nat) (l : List Byte) : (mramWrite s t a l).outbox = s.outbox := rfl
@[simp] theorem mramWrite_fresh (s : State) (t a : Nat) (l : List Byte) : (mramWrite s t a l).fresh = s.fresh := rfl
@[simp] theorem mramWrite_ticks (s : State) (t a : Nat) (l : List Byte) : (mramWrite s t a l).ticks = s.ticks := rfl
@[simp] theorem mramWrite_pending (s : State) (t a : Nat) (l : List Byte) : (mramWrite s t a l).pending = s.pending := rfl

@[simp] theorem flashWrite_part (s : State) (a : Nat) (l : List Byte) : (flashWrite s a l).part = s.part := rfl
@[simp] theorem flashWrite_regs (s : State) (a : Nat) (l : List Byte) : (flashWrite s a l).regs = s.regs := rfl
@[simp] theorem flashWrite_modes (s : State) (a : Nat) (l : List Byte) : (flashWrite s a l).modes = s.modes := rfl
@[simp] theorem flashWrite_core (s : State) (a : Nat) (l : List Byte) : (flashWrite s a l).core = s.core := rfl
@[simp] theorem flashWrite_bus (s : State) (a : Nat) (l : List Byte) : (flashWrite s a l).bus = s.bus := rfl
@[simp] theorem flashWrite_evc (s : State) (a : Nat) (l : List Byte) : (flashWrite s a l).evc = s.evc := rfl
@[simp] theorem flashWrite_flt (s : State) (a : Nat) (l : List Byte) : (flashWrite s a l).flt = s.flt := rfl
@[simp] theorem flashWrite_trc (s : State) (a : Nat) (l : List Byte) : (flashWrite s a l).trc = s.trc := rfl
@[simp] theorem flashWrite_swc (s : State) (a : Nat) (l : List Byte) : (flashWrite s a l).swc = s.swc := rfl
@[simp] theorem flashWrite_brg (s : State) (a : Nat) (l : List Byte) : (flashWrite s a l).brg = s.brg := rfl
@[simp] theorem flashWrite_lode (s : State) (a : Nat) (l : List Byte) : (flashWrite s a l).lode = s.lode := rfl
@[simp] theorem flashWrite_host (s : State) (a : Nat) (l : List Byte) : (flashWrite s a l).host = s.host := rfl
@[simp] theorem flashWrite_wtt (s : State) (a : Nat) (l : List Byte) : (flashWrite s a l).wtt = s.wtt := rfl
@[simp] theorem flashWrite_ins (s : State) (a : Nat) (l : List Byte) : (flashWrite s a l).ins = s.ins := rfl
@[simp] theorem flashWrite_dma (s : State) (a : Nat) (l : List Byte) : (flashWrite s a l).dma = s.dma := rfl
@[simp] theorem flashWrite_otp (s : State) (a : Nat) (l : List Byte) : (flashWrite s a l).otp = s.otp := rfl
@[simp] theorem flashWrite_str (s : State) (a : Nat) (l : List Byte) : (flashWrite s a l).str = s.str := rfl
@[simp] theorem flashWrite_cal (s : State) (a : Nat) (l : List Byte) : (flashWrite s a l).cal = s.cal := rfl
@[simp] theorem flashWrite_age (s : State) (a : Nat) (l : List Byte) : (flashWrite s a l).age = s.age := rfl
@[simp] theorem flashWrite_gal (s : State) (a : Nat) (l : List Byte) : (flashWrite s a l).gal = s.gal := rfl
@[simp] theorem flashWrite_pwr (s : State) (a : Nat) (l : List Byte) : (flashWrite s a l).pwr = s.pwr := rfl
@[simp] theorem flashWrite_outbox (s : State) (a : Nat) (l : List Byte) : (flashWrite s a l).outbox = s.outbox := rfl
@[simp] theorem flashWrite_fresh (s : State) (a : Nat) (l : List Byte) : (flashWrite s a l).fresh = s.fresh := rfl
@[simp] theorem flashWrite_ticks (s : State) (a : Nat) (l : List Byte) : (flashWrite s a l).ticks = s.ticks := rfl
@[simp] theorem flashWrite_pending (s : State) (a : Nat) (l : List Byte) : (flashWrite s a l).pending = s.pending := rfl

@[simp] theorem flashErase_part (s : State) (a n : Nat) : (flashErase s a n).part = s.part := rfl
@[simp] theorem flashErase_regs (s : State) (a n : Nat) : (flashErase s a n).regs = s.regs := rfl
@[simp] theorem flashErase_modes (s : State) (a n : Nat) : (flashErase s a n).modes = s.modes := rfl
@[simp] theorem flashErase_core (s : State) (a n : Nat) : (flashErase s a n).core = s.core := rfl
@[simp] theorem flashErase_bus (s : State) (a n : Nat) : (flashErase s a n).bus = s.bus := rfl
@[simp] theorem flashErase_evc (s : State) (a n : Nat) : (flashErase s a n).evc = s.evc := rfl
@[simp] theorem flashErase_flt (s : State) (a n : Nat) : (flashErase s a n).flt = s.flt := rfl
@[simp] theorem flashErase_trc (s : State) (a n : Nat) : (flashErase s a n).trc = s.trc := rfl
@[simp] theorem flashErase_swc (s : State) (a n : Nat) : (flashErase s a n).swc = s.swc := rfl
@[simp] theorem flashErase_brg (s : State) (a n : Nat) : (flashErase s a n).brg = s.brg := rfl
@[simp] theorem flashErase_lode (s : State) (a n : Nat) : (flashErase s a n).lode = s.lode := rfl
@[simp] theorem flashErase_host (s : State) (a n : Nat) : (flashErase s a n).host = s.host := rfl
@[simp] theorem flashErase_wtt (s : State) (a n : Nat) : (flashErase s a n).wtt = s.wtt := rfl
@[simp] theorem flashErase_ins (s : State) (a n : Nat) : (flashErase s a n).ins = s.ins := rfl
@[simp] theorem flashErase_dma (s : State) (a n : Nat) : (flashErase s a n).dma = s.dma := rfl
@[simp] theorem flashErase_otp (s : State) (a n : Nat) : (flashErase s a n).otp = s.otp := rfl
@[simp] theorem flashErase_str (s : State) (a n : Nat) : (flashErase s a n).str = s.str := rfl
@[simp] theorem flashErase_cal (s : State) (a n : Nat) : (flashErase s a n).cal = s.cal := rfl
@[simp] theorem flashErase_age (s : State) (a n : Nat) : (flashErase s a n).age = s.age := rfl
@[simp] theorem flashErase_gal (s : State) (a n : Nat) : (flashErase s a n).gal = s.gal := rfl
@[simp] theorem flashErase_pwr (s : State) (a n : Nat) : (flashErase s a n).pwr = s.pwr := rfl
@[simp] theorem flashErase_outbox (s : State) (a n : Nat) : (flashErase s a n).outbox = s.outbox := rfl
@[simp] theorem flashErase_fresh (s : State) (a n : Nat) : (flashErase s a n).fresh = s.fresh := rfl
@[simp] theorem flashErase_ticks (s : State) (a n : Nat) : (flashErase s a n).ticks = s.ticks := rfl
@[simp] theorem flashErase_pending (s : State) (a n : Nat) : (flashErase s a n).pending = s.pending := rfl

@[simp] theorem emit_outbox (s : State) (o : Out) : (emit s o).outbox = s.outbox ++ [o] := rfl
@[simp] theorem tickFresh_fresh (s : State) (k : Nat) : (tickFresh s k).fresh = s.fresh + k := rfl

/-! ## Register words -/

@[simp] theorem rreg_wreg_same (s : State) (t off : Nat) (v : Word) : rreg (wreg s t off v) t off = v := by
  simp [rreg, wreg, Tbl.get, find_ins_same]

theorem rreg_wreg_other (s : State) {t off t' off' : Nat} (v : Word) (h : key t' off' ≠ key t off) :
    rreg (wreg s t off v) t' off' = rreg s t' off' := by
  simp only [rreg, wreg, Tbl.get, find_ins_other _ v h]

/-- Registers of different offsets, or of different tiles at offsets within a tile's space, have different addresses. -/
theorem key_ne {t t' o o' : Nat} (h : o < 0x10000000) (h' : o' < 0x10000000) (d : t ≠ t' ∨ o ≠ o') : key t o ≠ key t' o' := by
  unfold key
  omega

/-! ## Fields of a word -/

theorem ones_bit (lo n i : Nat) (hi : i < 32) : (ones lo n).getLsbD i = (decide (lo ≤ i) && decide (i - lo < n)) := by
  have e : (2 ^ n - 1) * 2 ^ lo = (2 ^ n - 1) <<< lo := (Nat.shiftLeft_eq _ _).symm
  rw [ones, BitVec.getLsbD_ofNat, e, Nat.testBit_shiftLeft, Nat.testBit_two_pow_sub_one]
  simp [hi]

theorem setFld_bit (w : Word) (lo n v i : Nat) (hi : i < 32) :
    (setFld w lo n v).getLsbD i = if lo ≤ i ∧ i < lo + n then v.testBit (i - lo) else w.getLsbD i := by
  simp only [setFld, BitVec.getLsbD_or, BitVec.getLsbD_and, BitVec.getLsbD_not, ones_bit _ _ _ hi, BitVec.getLsbD_shiftLeft,
    BitVec.getLsbD_ofNat, hi, decide_true, Bool.true_and]
  by_cases h1 : lo ≤ i
  · by_cases h2 : i < lo + n
    · have a : i - lo < n := by omega
      have b : ¬ i < lo := by omega
      have c : i - lo < 32 := by omega
      simp [h1, h2, a, b, c]
    · have a : ¬ i - lo < n := by omega
      simp [h1, h2, a]
  · simp [h1]

/-- A field reads back what was written to it, cut to its width. -/
@[simp] theorem fld_setFld_same (w : Word) (lo n v : Nat) (h : lo + n ≤ 32) : fld (setFld w lo n v) lo n = v % 2 ^ n := by
  have e : (setFld w lo n v).extractLsb' lo n = BitVec.ofNat n v := by
    apply BitVec.eq_of_getLsbD_eq
    intro i hi
    rw [BitVec.getLsbD_extractLsb', setFld_bit _ _ _ _ _ (by omega), BitVec.getLsbD_ofNat]
    simp [hi, show lo ≤ lo + i by omega, show lo + i < lo + n by omega, show lo + i - lo = i by omega]
  rw [fld, e, BitVec.toNat_ofNat]

/-- Writing one field leaves a disjoint one alone. -/
theorem fld_setFld_other (w : Word) (lo n v lo' n' : Nat) (h' : lo' + n' ≤ 32) (d : lo' + n' ≤ lo ∨ lo + n ≤ lo') :
    fld (setFld w lo n v) lo' n' = fld w lo' n' := by
  have e : (setFld w lo n v).extractLsb' lo' n' = w.extractLsb' lo' n' := by
    apply BitVec.eq_of_getLsbD_eq
    intro i hi
    rw [BitVec.getLsbD_extractLsb', BitVec.getLsbD_extractLsb', setFld_bit _ _ _ _ _ (by omega)]
    have : ¬ (lo ≤ lo' + i ∧ lo' + i < lo + n) := by omega
    simp [this]
  rw [fld, fld, e]

theorem fld_lt (w : Word) (lo n : Nat) : fld w lo n < 2 ^ n := (w.extractLsb' lo n).isLt

/-! ## Fields of registers -/

@[simp] theorem rreg_sf_same (s : State) (t off lo n v : Nat) : rreg (sf s t off lo n v) t off = setFld (rreg s t off) lo n v := by
  simp [sf]

@[simp] theorem rreg_cf_same (s : State) (t off lo n k : Nat) : rreg (cf s t off lo n k) t off = addFld (rreg s t off) lo n k := by
  simp [cf]

theorem rreg_sf_other (s : State) {t off t' off' : Nat} (lo n v : Nat) (h : key t' off' ≠ key t off) :
    rreg (sf s t off lo n v) t' off' = rreg s t' off' := rreg_wreg_other s _ h

theorem rreg_cf_other (s : State) {t off t' off' : Nat} (lo n k : Nat) (h : key t' off' ≠ key t off) :
    rreg (cf s t off lo n k) t' off' = rreg s t' off' := rreg_wreg_other s _ h

@[simp] theorem gf_sf_same (s : State) (t off lo n v : Nat) (h : lo + n ≤ 32) : gf (sf s t off lo n v) t off lo n = v % 2 ^ n := by
  simp [gf, h]

theorem gf_sf_field (s : State) (t off lo n v lo' n' : Nat) (h' : lo' + n' ≤ 32) (d : lo' + n' ≤ lo ∨ lo + n ≤ lo') :
    gf (sf s t off lo n v) t off lo' n' = gf s t off lo' n' := by
  simp [gf, fld_setFld_other _ _ _ _ _ _ h' d]

theorem gf_sf_other (s : State) {t off t' off' : Nat} (lo n v lo' n' : Nat) (h : key t' off' ≠ key t off) :
    gf (sf s t off lo n v) t' off' lo' n' = gf s t' off' lo' n' := by
  simp [gf, rreg_sf_other s lo n v h]

@[simp] theorem gf_cf_same (s : State) (t off lo n k : Nat) (h : lo + n ≤ 32) :
    gf (cf s t off lo n k) t off lo n = (gf s t off lo n + k) % 2 ^ n := by
  simp [gf, addFld, h]

theorem gf_cf_field (s : State) (t off lo n k lo' n' : Nat) (h' : lo' + n' ≤ 32) (d : lo' + n' ≤ lo ∨ lo + n ≤ lo') :
    gf (cf s t off lo n k) t off lo' n' = gf s t off lo' n' := by
  simp [gf, addFld, fld_setFld_other _ _ _ _ _ _ h' d]

theorem gf_cf_other (s : State) {t off t' off' : Nat} (lo n k lo' n' : Nat) (h : key t' off' ≠ key t off) :
    gf (cf s t off lo n k) t' off' lo' n' = gf s t' off' lo' n' := by
  simp [gf, rreg_cf_other s lo n k h]

/-- Registers read through a state whose register file is the same. -/
theorem rreg_congr {s s' : State} (h : s'.regs = s.regs) (t off : Nat) : rreg s' t off = rreg s t off := by
  simp [rreg, h]

theorem gf_congr {s s' : State} (h : s'.regs = s.regs) (t off lo n : Nat) : gf s' t off lo n = gf s t off lo n := by
  simp [gf, rreg_congr h]

/-! ## Memories -/

theorem mramRead_mramWrite_byte (s : State) (t a k : Nat) (l : List Byte) (h : k < l.length) :
    Mem.read mramDefault (mramWrite s t a l).mem.mram (t * 0x200000 + a + k) = l.getD k mramDefault := by
  have e := read_writeN_in mramDefault s.mem.mram (t * 0x200000 + a) l (k := t * 0x200000 + a + k) (by omega) (by omega)
  rw [show t * 0x200000 + a + k - (t * 0x200000 + a) = k by omega] at e
  exact e

end Sys2Proof.Laws
end

