-- ==== Sys2Proof/Tests/Slice0.lean ====
section
/-! SUPPORT. Small tests of single commands, the ill-formed terms each check of WellFormed refuses, and for every statement a
state that meets its hypotheses. -/

namespace Sys2Proof.Tests

open Sys2Proof Sys2Proof.Machine

-- One theorem after another: each kernel evaluation waits for all that stands before it.
set_option Elab.async false

/-- Two tiles in SERVICE, nothing else. -/
def base : State := { State.reset with part := .il280, modes := [(0, 3#32), (1, 3#32)], core := { resetN := true } }

/-- The state with some registers at given values. -/
def rg (s : State) (l : List (Nat × Word)) : State := { s with regs := l.foldl (fun r e => Tbl.ins r e.1 e.2) s.regs }

/-- The registers of a host link that is up in L0 in flit mode at rate 4 and full width. -/
def hostUpRegs : List (Nat × Word) := [(0x1000000, 0xC5455000#32)]

/-- A local link (tile 0, slot 0) ACTIVE with credit. -/
def linkUpRegs : List (Nat × Word) := [(0x2000000, 0x00633000#32), (0x2000040, 0x00020040#32), (0x2000044, 0x00000FFF#32),
  (0x2000058, 100#32), (0x200005C, 0x08080808#32)]

/-- The instance of the tests: number 3, bound to function 0 of host link 0. -/
def inst3 : Inst := { state := .bound, gen := 7, weight := 1, qCount := 4, wCount := 4, wttCount := 8, etCount := 4, vCount := 4,
                      fn := some (0, 0), lastLink := some 0 }

/-- Window words: direct to port 0 at 0x5000; upstream of any port at 1 MiB; translated through entries 0 on. -/
def wins3 : Tbl (List Word) := [
  (0, [0xE0#32, 0x07000000#32, 0#32, 0#32, 0x10000#32, 0#32, 0x5000#32, 0#32]),
  (1, [0x67#32, 0x07000000#32, 0x100000#32, 0#32, 0x100000#32, 0#32, 0x80000000#32, 0#32]),
  (2, [0xE1#32, 0x07000000#32, 0x10000#32, 0#32, 0x4000#32, 0#32, 0#32, 0#32])]

/-- One function on host link 0 and the manager function on host link 4. -/
def shapes : Tbl (List PfRec) := [(0, [{ pf := 0, bar2 := 148, bar4 := 148 }]), (4, [{ link := 4, manager := true }])]

/-- A small package at work: host link 0 up, one bound instance with queues, windows and translation entries, one local
link up. -/
def up : State := { base with
  regs := hostUpRegs ++ linkUpRegs
  host := { shape := shapes, maxRate := [(0, 6), (4, 6)], upTo := [(0, ())], drs := [(0, ())], bind := [(0, some 3)],
            cfg := [(1, 6#32), (4, 0x10000000#32), (6, 0x20000000#32), (8, 0x40000000#32), (0x24, 0x80000000#32)] }
  ins := { pools := [(0, { instances := 8, queues := 100, wttEntries := 100, windows := 20, evcTargets := 20, vectors := 20,
                           shareBudget := 100, linkMask := 0xFFFFFFFF#32 })], recs := [(3, inst3)] }
  wtt := { wins := wins3, ents := [(0, [0x87000000#32, 0x07000003#32, 0x9000#32, 0#32])] } }

/-- Words that a crossing queue and a mailbox hold. -/
def sXq : State := { up with bus := { xq := [(1, [.reg 0x3000000 15 0x00120003#32, .reg 0x3000010 3 9#32])] } }

/-- A voted register of the DMA block. -/
def tvOff : Nat := 0x5000200

def sTv : State := { base with bus := { tv := [(0x5000200, (5#32, 5#32))] } }

def sTv2 : State := { base with bus := { tv := [(0x5000200, (5#32, rreg base 0 0x5000200))] } }

/-- A mailbox whose command has ended. -/
def sMb (e : MbEnd) : State := { rg up [(0x3000400, 0xC2050000#32)] with bus := { mb := [(0x3000400, e)] } }

/-- Tile 0 in a mode. -/
def inMode (m : BitVec 32) (s : State) : State := { s with modes := [(0, m), (1, 3#32)] }

/-- A word of the block of that mailbox, posted to it. -/
def sMbPosted (w : Word) : State :=
  { rg up [(0x3000400, w)] with bus := { xq := [(xqKey 0 (blockDomain 3), [.reg 0x3000410 15 7#32])] } }

/-- Tile 0 with other state beside its registers. -/
def tile0 (x : TileSt) (s : State) : State := { s with core := { s.core with tiles := [(0, x)] } }

def sFenced : State := tile0 { fenced := true } up

/-- The recovery shape. -/
def sShape : State := rg up [(0xA000000, 8#32)]

def sScan : State := { up with core := { up.core with scanned := true } }

def sCmd (m : BitVec 32) (x : ModeCmd) : State := tile0 { modeCmd := some x } (inMode m (rg up [(0x10C, 1#32)]))

def sTest (code : Nat) : State := tile0 { test := some ⟨code, 0x5#8⟩ } (inMode 5#32 (rg up [(0x124, 1#32)]))

def sDark : State := { up with core := { pwrgood := false }, cal := { valid := true, stopFlag := true } }

def sLatched : State := { rg base [(0x118, 1#32)] with core := {} }

def sResetting : State := { up with modes := [(0, 3#32), (1, 1#32)], core := { up.core with tiles := [(1, { resetting := true })] } }

/-- An image command running. -/
def sImg (cmd : Nat) (blocked : Bool) (w : Word) (o : OtpSt) : State :=
  { rg base [(0xA000000, w)] with str := { run := some (cmd, blocked), copies := [0] }, otp := o }

def sPend : State := rg base [(0xA000000, 0x20#32)]

def sCopy : State := { base with str := { copies := [1, 0] }, mem := { mram := [(0x200001, 7#8)] } }

/-- Host link 0 up with LTR and ASPM L1 enabled and its WAKE_N driven. -/
def sHost : State := { up with host := { up.host with
  wakes := [(0, ())]
  secure := [(0, ())]
  sessions := [(0, 4)]
  cfg := [(1, 6#32), (4, 0x10000000#32), (6, 0x20000000#32), (8, 0x40000000#32), (0x18, 2#32), (0x1E, 0x400#32), (0x24, 0x80000000#32)] } }

/-- Host link 0 as its register says. -/
def sLink (w : Word) : State := rg up [(0x1000000, w)]

def sNotReady : State := { up with host := { up.host with upTo := [], drs := [] } }

/-- A message due for vector 0, whose entry may send or is masked. -/
def sVec (ctl : Word) : State := { up with evc := { vecDue := [(3, 0)] }, host := { up.host with vecs := [(0, ⟨0x1000#32, 0#32, 77#32, ctl⟩)] } }

def sVecUnbound : State := { sVec 0#32 with ins := { up.ins with recs := [(3, { inst3 with state := .unbound, fn := none })] } }

/-- An SPDM message of a code in a DOE object. -/
def doeIn (code : Byte) : List Byte := [1, 0, 1, 0, 3, 0, 0, 0, 0x13, code, 0, 0]

/-- A message of vector 0 to be tried again, the PBA as given. -/
def sRetryOf (p : Tbl Unit) : State := { sVec 0#32 with evc := { vecRetry := [(3, 0)] }, host := { (sVec 0#32).host with pba := p } }

def sRetry : State := sRetryOf [(6144, ())]

/-- A write and a read of instance 3 toward host link 0. -/
def wrUp : Frame := { serial := 5, pkt := { ty := .wr, len := 4, inst := 3, gen := 7, addr := 0x1000, data := [1, 2, 3, 4] },
                      srcTile := 0, srcPort := 1, dstTile := 0, dstPort := 0 }

def rdUp : Frame := { serial := 6, pkt := { ty := .rd, cls := 1, tag := 2, len := 4, inst := 3, gen := 7, addr := 0x1000 },
                      srcTile := 0, srcPort := 8, dstTile := 0, dstPort := 0, issuer := .dmaTag 0 2 }

def sOut : State := { up with host := { up.host with outq := [(0, [wrUp])], tagWait := [(0, [rdUp])] } }

def tagEnt (expired : Bool) : TagEnt := { link := 0, fn := 0, rid := 0, tag := 9, issuer := .dmaTag 0 2, inst := 3, gen := 7, glob := false,
                                          addr := 0x1000, len := 4, expired := expired, links := [] }

def sTag (expired : Bool) : State := { rg up [(0x1000400, 1#32)] with host := { up.host with tags := [(1, some (tagEnt expired))] } }

/-- A local or tile link in a state, its own identity 0. -/
def sPhy (n : Nat) (w : Word) (x : LinkSt) : State :=
  { rg up [(lnk n 0, w)] with lode := { links := [(n, x)] } }

/-- A training block of a type from a partner of an identity, and its bytes. -/
def aBlock (ty id : Nat) : Block := { ty := ty, lane := 1, identity := id, epoch := 4, rate := 2, width := 3, steps := [1, -1, 0, 7] }

/-- The lanes that SYNC found, in order and reversed. -/
def lanesUp : List (Nat × Nat × Bool) := (List.range 8).map (fun i => (i, i, false))

def idleHdr (e : Nat) : FlitHdr :=
  { seq := 0, ack := 0, nak := none, first := 15, idle := true, pause := false, replay := false, crClass := 0, abort := false,
    crTotal := 0, epoch := e }

def sPeer : State := rg (sPhy 0 0x00633000#32 { peerRate := 3, peerWidth := 3 }) [(0x2000004, 0xF00#32)]

def fl (q : Nat) : Flit := { seq := q, first := 1, abort := false, payload := List.replicate 8 3#8 }

def aChange (acc ours : Bool) : Change := ⟨5, 2, 1, acc, ours⟩

def sLock (l : LockSt) : State := { rg up [(0x200100C, 0x80000003#32)] with lode := { locks := [(0, l)] } }

def sFlits : State := sPhy 0 0x00633000#32 { msgs := [[1, 0, 0, 0]] }

def sReplay : State := rg (sPhy 0 0x00633000#32 { replay := [fl 0], resend := [(0, 1)] }) [(0x2000044, 0x00010FFF#32)]

def sReplay2 : State := rg (sPhy 0 0x00633000#32 { replay := [fl 0] }) [(0x2000044, 0x00010FFF#32)]

def sGap : State := sPhy 0 0x00633000#32 { seen := some 3, named := [1, 2], nakHeld := true }

def wrRx (i g : Nat) : RxPkt := ⟨{ ty := .wr, len := 4, inst := i, gen := g, addr := 0x100010, data := [1, 2, 3, 4] }, 1⟩

def rdRx : RxPkt := ⟨{ ty := .rd, cls := 1, tag := 4, len := 4, inst := 3, gen := 7, addr := 0x100010 }, 1⟩

def evRx (opx : Nat) : RxPkt := ⟨{ ty := .event, cls := 3, opx := opx, addr := 5, inst := 3 }, 1⟩

def sRx (r : RxPkt) : State := sPhy 0 0x00633000#32 { rxq := [r] }

def sRxEv (opx : Nat) (w : Word) : State := rg (sRx (evRx opx)) [(0x7020000 + 4 * 20485, w)]

def aPosted : PostedRec := { serial := 5, inst := 3, fromSlot := some 0, toHost := some 0, toSlot := none, mc := false, fromHost := none }

def sRxHeld : State := { sRxEv 2 0x80000000#32 with brg := { posted := [aPosted] } }

def sRdWait : State := sPhy 0 0x00633000#32 { rdWait := [rdRx] }

def rspRx : RxPkt := ⟨{ ty := .rspD, cls := 2, tag := 2, len := 4, inst := 3, gen := 7, data := [1, 2, 3, 4] }, 1⟩

def devReq : DevReq := { issuer := .dmaTag 0 2, ty := .rd, len := 4, inst := 3, gen := 7, rlx := false, links := [] }

def sRsp (tags : Tbl (Option DevReq)) (quar : Tbl Issuer) : State :=
  { sRx rspRx with lode := { (sRx rspRx).lode with tags := tags, quar := quar } }

def lockRd : Frame := { serial := 8, pkt := { ty := .rd, cls := 1, len := 4, inst := 3, gen := 7, addr := 0x5000 },
                        srcTile := 0, srcPort := 0, dstTile := 0, dstPort := 1, issuer := .inbound 0 1, locked := some 0 }

def inb3 : Inb := { link := 0, fn := 0, inst := 3, gen := 7, kind := .lockedRead, tag := 9, rid := 0x123, addr := 0, len := 4, links := [] }

/-- A locked read stored in its queue, waiting for the lock of slot 0. -/
def sLockWait : State :=
  { rg up [(0x3000018, 500#32)] with
    lode := { locks := [(0, { wait := [lockRd] })] }
    swc := { frames := [(frKey 0 1, { f := lockRd, acct := .shared, cells := 1, refs := 1, inPort := 0, enq := 0 })], nextId := 2 }
    host := { up.host with inb := [(1, some inb3)] } }

/-- Its LOCK_BEGIN at the head of the Control queue of the output, and its answer. -/
def lockBegin : Frame := { lockRd with serial := 9, pkt := { ty := .lockBegin, cls := 3, inst := 3, gen := 7 }, issuer := .lock 0 0, locked := none }

def lockReq : DevReq := { issuer := .lock 0 0, ty := .lockBegin, len := 0, inst := 3, gen := 7, rlx := false, links := [] }

def lockRsp : RxPkt := ⟨{ ty := .rsp, cls := 2, tag := 2, inst := 3, gen := 7 }, 1⟩

/-- LOCK_BEGIN at the head of its queue. -/
def sLockBegin : State :=
  { rg up [(0x3000018, 500#32)] with
    lode := { locks := [(0, { wait := [lockRd], begun := some lockRd })] }
    swc := { frames := [(1, { f := lockRd, acct := .shared, cells := 1, refs := 1, inPort := 0, enq := 0 }),
                       (2, { f := lockBegin, acct := .shared, cells := 1, refs := 1, inPort := 0, enq := 0 })], nextId := 3,
             queues := [(qKey 0 4 0 3, [(2, none)])], deficit := [(4 * 4 + 3, 5)] } }

def sLockRsp : State :=
  { sRx lockRsp with
    lode := { (sRx lockRsp).lode with tags := [(2, some lockReq)], locks := [(0, { begun := some lockRd, sent := true })] }
    host := { up.host with inb := [(1, some inb3)] } }

/-- A write that goes from the host port to local slot 0. -/
def wrDown : Frame := { serial := 7, pkt := { ty := .wr, len := 4, inst := 3, gen := 7, addr := 0x5000, data := [1, 2, 3, 4] },
                        srcTile := 0, srcPort := 0, dstTile := 0, dstPort := 1 }

/-- A host's request to BAR2 of function 0. -/
def req0 (k : MemKind) (e : Option (Nat × Nat)) (off dws : Nat) : HReq :=
  { entry := e, link := 0, fn := 0, inst := 3, gen := 7, kind := k, bar := 2, off := off, dws := dws, fbe := 15,
    lbe := if dws = 1 then 0 else 15, data := if k = .write then List.replicate (4 * dws) 9#8 else [], rlx := false, ns := false }

/-- A page's or control space's request come to the management port: at the head of output 17. -/
def mgmtFrame (k : MemKind) (c : HReq → Cargo) (b off : Nat) : Frame :=
  { wrDown with
    dstPort := 10
    pkt := { wrDown.pkt with ty := kindType k, cls := (kindType k).class }
    issuer := if k = .write then .nobody else .inbound 0 1
    cargo := c { req0 k (if k = .write then none else some (0, 1)) off 1 with bar := b } }

def far : Frame := { wrDown with serial := 9, dstTile := 1, dstPort := 1 }

def stored (f : Frame) (a : Acct) (p : Nat) : Stored := { f := f, acct := a, cells := 1, refs := 1, inPort := p, enq := 0 }

def sIngress : State := { rg up [(0x3000018, 500#32)] with swc := { ingress := [(0, [wrDown, far]), (4, [wrUp])], nextId := 2 } }

def sWaiting : State := { rg up [(0x3000018, 500#32)] with swc := { waiting := [(0, [wrDown])], nextId := 2 } }

/-- A stored frame at the head of a queue: output, input and class. -/
def sQueue (f : Frame) (a : Acct) (o i c : Nat) (d : Int) : State :=
  { rg up [(0x3000018, 500#32), (0x3000000, 0x00100001#32)] with
    swc := { frames := [(1, stored f a i)], queues := [(qKey 0 o i c, [(1, none)])], nextId := 2, deficit := if d = 0 then [] else [(o * 4 + c, d)] } }

/-- A write at the head of local slot 0's output, the link without credit. -/
def sNoCredit : State := rg (sQueue wrDown .shared 4 0 0 0) [(0x2000058, 0#32), (0x200005C, 0#32)]

/-- A write for the other tile at the head of the output of tile link LEFT, which is up, charged to an account. -/
def sTileOut (a : Acct) : State := rg (sQueue far a 12 8 0 5) [(lnk 8 0, 0x00645000#32), (lnk 8 0x40, 0x00000400#32), (lnk 8 0x58, 100#32)]

/-- A write of two cells at the head of host link 0's output. -/
def sTwoCells : State :=
  { sQueue wrUp .shared 0 1 0 5 with swc := { (sQueue wrUp .shared 0 1 0 5).swc with frames := [(1, { stored wrUp .shared 1 with cells := 2 })] } }

/-- A host request that has crossed to its home tile. -/
def hostIn : Frame := { wrDown with serial := 10, dstPort := 12, cargo := .window (req0 .write none 0x10 1) }

def sTaking : State := { up with swc := { into := [(0, [{ wrDown with serial := 3, bad := true }])] } }

def lockEndFrame : Frame := { wrUp with pkt := { wrUp.pkt with ty := .lockEnd } }

def sUrgent : State := { sQueue wrUp .shared 0 1 0 0 with swc := { (sQueue wrUp .shared 0 1 0 0).swc with urgent := [qKey 0 0 1 0] } }

/-- A packet leaving by local slot 0: its frame bad or not, its head gone or not. -/
def leaving (bad started : Bool) : TxJob := { f := { wrDown with serial := 3, bad := bad }, rest := [1, 2, 3], started := started, abort := false }

def sLeaving (bad started : Bool) : State := sPhy 0 0x00633000#32 { txq := [leaving bad started] }

/-- Mailboxes with indexes and data. -/
def sBox (mb : Nat) (i : Word) (d : List Word) : State :=
  rg up ((mb + 4, i) :: d.zipIdx.map (fun x => (mb + 0x10 + 4 * x.2, x.1)))

/-- A direct window of instance 3 beside its others, and a translation entry of it. -/
def winNew : List Word := [0xE0#32, 0x07000000#32, 0x20000#32, 0#32, 0x1000#32, 0#32, 0x5000#32, 0#32]

def entNew : List Word := [0x87000000#32, 0x07000003#32, 0x9000#32, 0#32]

def sAlarm : State := { sBox 0xD000300 7#32 [3#32] with trc := { alarms := [(7, { active := true, count := 3 })] } }

def inbRd : Inb := { inb3 with kind := .read }

/-- The frame of a host request that has come to its home tile. -/
def hostFrame (r : HReq) : Frame :=
  { serial := 5
    pkt := { ty := kindType r.kind, cls := 1, len := r.dws, inst := 3, gen := 7, addr := r.off }
    srcTile := 0
    srcPort := 0
    dstTile := 0
    dstPort := 12
    issuer := r.entry.elim .nobody (fun e => .inbound e.1 e.2)
    cargo := .window r }

/-- A host request stored at its home tile, waiting for window resolution, its resolution standing or not. -/
def sRes (r : HReq) (h : Option Hit) : State :=
  { rg up [(0x3000018, 500#32)] with
    host := { up.host with resolve := [(0, [(1, h)])], inb := [(1, some inbRd)] }
    swc := { frames := [(frKey 0 1, stored (hostFrame r) .shared 0)], nextId := 2 } }

def aStream (d : Option (List Byte)) : Stream := { inst := 3, gen := 7, bar := 2, start := 0, parts := [{ id := 4, len := 64, data := d }], waiters := [], used := 1 }

def sStream (d : Option (List Byte)) : State := { up with wtt := { up.wtt with streams := [(0, some (aStream d))], ahead := [(4, 3)] } }

def sWtt (op gen : Nat) (waits : List Nat) : State :=
  { rg up [(0x4000000, 0x80000003#32)] with
    wtt := { up.wtt with run := [(0, some { op := op, inst := 3, waits := waits, reads := [], aheads := [], gen := gen })] }
    brg := { posted := [aPosted] } }

def sHold (x : Held1) (waits : List Nat) : State :=
  { up with brg := { holds := [{ id := 2, waits := waits, item := x }], posted := [aPosted], nextHold := 3 }, host := { up.host with inb := [(1, some inbRd)] } }

/-- Queue 1 of instance 3: kind and state, TAIL and HEAD, and engine state. -/
def sQ (kind st head tail : Nat) (e : QEng) : State :=
  { up with dma := { qctx := [(16, word (st * 2 ^ 28 + 0x10000 + head)), (17, word (tail * 65536)), (18, 0x4000#32), (20, word (kind * 2 ^ 30 + 2 ^ 29 + 0x404)),
                              (21, 0x8000#32), (31, 0x00FFFFFF#32)],
                     eng := [(1, e)] } }

def aDesc (ctrl len : Nat) : Desc := { ctrl := word ctrl, len := len, src := 0x1000, dst := 0x2000, cookie := 5, idx := 0 }

def aRun (d : Desc) (rt wt : Nat) (reads : List DRead) (writes : List DWrite) : Run :=
  { d := d, born := 1, prio := 0, weight := 1, instWeight := 1, readTo := rt, reads := reads, wroteTo := wt, writes := writes, entry := d.wantsEntry }

/-- Local to host, both sides 64 bytes, with an entry wanted. -/
def dUp : Desc := aDesc (2 ^ 30 + 2 ^ 27) 64

def dDown : Desc := aDesc (2 ^ 26) 64

def anRd (st : Option Nat) : DRead := { tag := 2, off := 0, len := 64, status := st, data := List.replicate 64 1#8 }

def sEng (x : DmaSt → DmaSt) (kind st head tail : Nat) (e : QEng) : State := { sQ kind st head tail e with dma := x (sQ kind st head tail e).dma }

/-- A 64-byte write that holds one present descriptor. -/
def inlineOne : List Byte := List.replicate 32 0xC0#8 ++ List.replicate 32 0#8

def rgQ0 (w : Word) : State := { up with dma := { qctx := [(16, w)] } }

/-- A queue halted by a failed fetch. -/
def sSkip : State := { sQ 0 2 0 0 {} with dma := { (sQ 0 2 0 0 {}).dma with qctx := Tbl.ins (sQ 0 2 0 0 {}).dma.qctx 27 0x30000000#32 } }

def sFetch : State := sQ 0 1 0 1 {}

def dFar : Desc := { dUp with src := 0xFFFFFFFFFFFF }

def sStart (d : Desc) : State :=
  { sQ 0 1 1 1 { fetched := [d] } with dma := { (sQ 0 1 1 1 { fetched := [d] }).dma with instShare := [(3, 1)] } }

/-- A queue whose completion ring is full: HEAD recorded at 1, TAIL at 0. -/
def sNoEntry : State := { sStart dUp with dma := { (sStart dUp).dma with qctx := Tbl.ins (sStart dUp).dma.qctx 24 1#32 } }

def sEnded : State := sQ 0 1 1 1 { runs := [aRun dUp 64 64 [anRd (some 0)] [{ w := 3, off := 0, len := 64, status := some 0 }]] }

def sSettle : State := sQ 0 1 1 1 { settling := true, runs := [aRun dUp 64 0 [anRd none] []] }

/-- Queue 1 halted while a descriptor ran, from an element on, with the cause of its bus error or of the aperture. -/
def sHaltedRun (kind cause : Nat) : State :=
  let s := sQ kind 2 1 1 { halted := some (aRun dUp 64 0 [] [], 2) }
  { s with dma := { s.dma with qctx := Tbl.ins s.dma.qctx 27 (word (cause * 2 ^ 28)) } }

/-- A fetch of one descriptor whose read is out, its data arriving with a status. -/
def sFetching (kind st : Nat) : State :=
  let s := sQ kind 1 0 1 { fetch := [{ tag := 2, off := 0, len := 32 }], fetchN := 1 }
  { s with dma := { s.dma with dataIn := [(0, [⟨2, st, if st = 0 then List.replicate 32 0x80#8 else [], false⟩])],
                               tags := [(2, some { queue := 1, slot := none, inst := 3, gen := 7 })] } }

/-- A settle period that has ended with its failure found, or with a refused completion entry. -/
def sFound : State := sQ 0 1 1 1 { settling := true, runs := [aRun dUp 64 0 [anRd (some 3)] []] }

def sEntryRefused : State := sQ 0 1 1 1 { settling := true, failed := some ⟨4, true, false, 2, 0, 0x8000⟩ }

def sStopping : State :=
  sQ 0 1 1 1 { stop := some (1, 0, ⟨1, false, true, 3, 0, 0x1000⟩), runs := [aRun dUp 64 0 [anRd (some 3)] []] }

/-- A frame of a class waiting at a port of tile 0. -/
def waitingAt (p cls : Nat) (s : State) : State :=
  { s with swc := { s.swc with waiting := [(p, [{ wrDown with pkt := { wrDown.pkt with cls := cls } }])] } }

/-- A staging buffer with no slot free (R275). -/
def sStageFull : State := sEng (fun d => { d with eng := [(1, { fetched := [dUp] }), (2, { fetchN := 32767 })] }) 0 1 0 1 {}

def sFailed : State := sQ 0 1 1 1 { failed := some ⟨2, true, true, 0, 0, 0x5000⟩ }

def sReads : State := sEng (fun d => { d with instDef := [(3, 100)], queueDef := [(1, 100)] }) 0 1 1 1 { runs := [aRun dUp 0 0 [] []] }

def sData (st : Nat) (quar : Bool) : State :=
  sEng (fun d => { d with dataIn := [(0, [⟨2, st, if st = 0 then List.replicate 64 7#8 else [], false⟩])],
                          tags := [(2, some { queue := 1, slot := none, inst := 3, gen := 7, quar := quar })] })
    0 1 1 1 { runs := [aRun dUp 64 0 [anRd none] []] }

def sWrite : State := sEng (fun d => { d with ready := [(0, [1])] }) 0 1 1 1 { runs := [aRun dDown 64 0 [anRd (some 0)] []] }

def sSettles (st : Nat) : State :=
  sEng (fun d => { d with settles := [(0, [(3, st)])], writes := [(3, some ⟨1, false, 0x2000, 0, true⟩)] }) 0 1 1 1
    { runs := [aRun dDown 64 64 [anRd (some 0)] [{ w := 3, off := 0, len := 64 }]] }

def sAborts : State := sEng (fun d => { d with aborts := [(0, [.dmaTag 0 2])] }) 0 1 1 1 {}

/-- Instance 3 in another condition. -/
def sIns (x : Inst) : State := { up with ins := { up.ins with recs := [(3, x)] } }

/-- Instance mailbox 0 aimed at an instance, with data words. -/
def sInsMb (x : Inst) (i : Word) (d : List Word) : State :=
  { sBox 0x6000100 i d with ins := { up.ins with recs := [(3, x)] } }

def unbound3 : Inst := { inst3 with state := .unbound, fn := none }

def frozen3 : Inst := { inst3 with frozen := true }

def resetting3 : Inst := { inst3 with resetting := true }

def sBusy : State := { sInsMb inst3 3 [] with ins := { (sInsMb inst3 3 []).ins with busy := [(3, some 2)] } }

/-- CREATE of the free instance 3 with resources its pool holds, or with a range beyond the tile's queues. -/
def sCreate : State := sInsMb {} 3 [0#32, 1#32, 0#32, 0x00040000#32, 0x02040000#32, 0#32, 4#32, 0x00040000#32]

def sCreateBad : State := sInsMb {} 3 [0#32, 1#32, 0#32, 0x00403FF0#32]

def sBind : State := { sInsMb unbound3 3 [0, 0, 0] with host := { up.host with bind := [] } }

def sLog (l : DirtyLog) : State := { up with ins := { up.ins with logs := [(3, l)] } }

def sLogMb : State := { sInsMb inst3 3 [] with ins := { (sInsMb inst3 3 []).ins with logs := [(3, { cfg := 1, head := 5 })] } }

def sDue : State := sLog { cfg := 0x401, due := [(4, true, 5)] }

def sRun (x : ResetRun) (y : Inst) : State := { up with ins := { up.ins with recs := [(3, y)], resets := [(3, some x)] } }

def sStalled : State :=
  { sRun { step := 2, flr := false } resetting3 with host := { up.host with tags := [(1, some { tagEnt false with gen := 8 })] } }

def sFreezing : State := { up with ins := { up.ins with recs := [(3, { inst3 with frozen := true })], freezes := [(3, some 0x6000100)] } }

/-- Source 20485 pending toward target 9 of the tile, a local vector. -/
def sEvt : State := { rg up [(0x7000A00, 0x20#32), (0x7001A00, 0#32), (0x7020000 + 4 * 20485, 0x80000009#32), (0x7040090, 0x20000000#32)] with
  evc := { arrived := [(20485, ())] } }

def sSvc : State := { up with evc := { svc := [(9, [⟨0, 4, 20485, false⟩])] } }

def sFault (d : List Deadline) : State := { up with flt := { deadlines := d, lost := [(1, { count := 3, cause := 2 })] } }

def dlB : Deadline := ⟨0, 1, 2, some (3, 7), 5, false⟩

def dlC : Deadline := ⟨0, 2, 1, none, 5, false⟩

/-- Bank 1's fault source pending, its message taken to Headframe. -/
def sHfDue : State := rg { sFault [] with evc := { hfDue := [(0, [26625])] } }
  [(0x7020000 + 4 * 26625, 0xC0000000#32), (0x8000100, 4#32), (0x8000104, 6#32)]

def aDump : DumpReq := { cls := 2, tile := 0, block := 2, cause := 1, sec := 4, sub := 5, imageSeq := 6#32 }

def sDump (w : Word) (f : FltSt) : State := { rg up [(0x8001000, w)] with flt := f }

def sCal (c : CalSt) : State := { up with cal := c }

def sAge (a : AgeSt) : State := { up with age := a }

def aPlan : AgeSt := { plan := some { tiles := [0], recs := [0] } }

/-- The second of the day at which a scheduled re-plan starts. -/
def sPlanDay : State := rg (sCal { sec := 86400 }) [(0x9000080, 2#32), (0x9000090, 0#32)]

def sMaint : State := rg up [(0x9000084, 0x40000000#32), (0x9000094, 0x00000502#32)]

def sGal (w : Word) (g : GalSt) : State := { rg up [(0xB000000, w), (0xB00000C, 0xFF#32)] with gal := g }

def sRmt (w : Word) (mb : Nat) (i dest : Word) : State := rg (sGal w {}) [(mb + 4, i), (0xB000300, dest)]

def sRmtNo : State := sRmt 0x0E004000 0xB000100 8 0x00000501

def aRmt : Rmt := { op := 3, dest := 5, seq := 0, off := 0, count := 1, copy := 0, data := [], isLocal := false }

/-- A HELLO of a package under SEQ 1, and a frame from package 3 to package 7. -/
def helloFrom (p : Nat) : List Byte := ringBytes 1 p 0x80 0 1 0 0 [0, 0, 0, 0]

def aResponse : List Byte := ringBytes 0x10 3 7 2 1 0 0 []

def sTrc : State := { up with trc := { lost := [(1, { count := 2, cause := 7 })] } }

def sPwr (k : Option Nat) : State := { up with pwr := { retry := k } }

/-- A write of `n` zero bytes, as the manual's examples size it. -/
def wrOf (n : Nat) : Pkt := { ty := .wr, len := lenField n, data := List.replicate n 0 }

/-- Eight tiles in SERVICE with instance 2600 and the window and entry of the example of chapter 10. -/
def sWalk : State :=
  { State.reset with
    part := .il880
    modes := [(5, 3#32), (6, 3#32)]
    core := { resetN := true }
    ins := { recs := [(2600, { state := .bound, gen := 0x17, wBase := 2560, wCount := 8, wttBase := 0xA0000, wttCount := 65536,
                                fn := some (9, 12) })] }
    wtt := { wins := [(5 * 8192 + 2563, [0x8A280161#32, 0x17000100#32, 0x10000000#32, 0#32, 0x40000000#32, 0#32, 0#32, 0#32])],
             ents := [(5 * 2097152 + 0xA0334, [0x9300C800#32, 0x17000A28#32, 0#32, 0x40#32])] } }

/-- Max_Read_Request_Size 512 on function 0 of link 0. -/
def rg512 (s : State) : State := { s with host := { s.host with cfg := Tbl.ins s.host.cfg 0x16 0x2000#32 } }

/-- The descriptor of the example of chapter 13, nothing of it read yet. -/
def narrowRun : Run :=
  { d := { ctrl := 0x62300000#32, len := 5, src := 0x200000FF6, dst := 0x4000200003, cookie := 0, idx := 0 }
    born := 0
    prio := 0
    weight := 1
    instWeight := 1
    readTo := 0
    wroteTo := 0
    entry := false }

/-- The value of a codeword, highest coefficient first, at a point of the field. -/
def valueAt (l : List (BitVec 10)) (x : BitVec 10) : BitVec 10 := l.foldl (fun a c => gfMul x a ^^^ c) 0#10

theorem wit_RegisterWritesArePosted : TileOpen base 0 ∧ regThere base 0 (dwOff 0x3000002) = true ∧
    blockDomain (dwOff 0x3000002 / 0x1000000) ≠ 21 := by unfold TileOpen; decide

/-! Well-formedness: an ill-formed term for each check, which the check refuses. -/

theorem test_wf_tile : (Instr.tvScrub 1).wf 2 = true ∧ (Instr.tvScrub 2).wf 2 = false := by decide
theorem test_wf_link : (Instr.dlDown 7).wf 2 = true ∧ (Instr.dlDown 8).wf 2 = false := by decide
theorem test_wf_inst : (Instr.release 1023).wf 2 = true ∧ (Instr.release 1024).wf 2 = false := by decide
theorem test_wf_queue : (Instr.queueEnable 0 16383).wf 2 = true ∧ (Instr.queueEnable 0 16384).wf 2 = false := by decide
theorem test_wf_slot : (Instr.down 1 10).wf 2 = true ∧ (Instr.down 1 11).wf 2 = false := by decide
theorem test_wf_localSlot : (Instr.rdReceive 1 7).wf 2 = true ∧ (Instr.rdReceive 1 8).wf 2 = false := by decide
theorem test_wf_tileLink : (Instr.tileLinkTraining 0 7 []).wf 2 = false := by decide
theorem test_wf_port : (Instr.frameAdmit 0 11).wf 2 = true ∧ (Instr.frameAdmit 0 12).wf 2 = false := by decide
theorem test_wf_out : (Instr.transitForward 0 18).wf 2 = true ∧ (Instr.transitForward 0 19).wf 2 = false := by decide
theorem test_wf_mb : (Instr.fill 0 3).wf 2 = true ∧ (Instr.fill 0 4).wf 2 = false := by decide
theorem test_wf_bank : (Instr.classCExpiry 0 13).wf 2 = true ∧ (Instr.classCExpiry 0 14).wf 2 = false := by decide
theorem test_wf_reg : (Instr.tvRegisterRead 0 0xFFFFFFF).wf 2 = true ∧ (Instr.tvRegisterRead 0 0x10000000).wf 2 = false := by decide
theorem test_wf_mbWord : (Instr.mbDataWrite 0 0x3000400 0 15 0).wf 2 = true ∧ (Instr.mbDataWrite 0 0x3000404 0 15 0).wf 2 = false := by decide
theorem test_wf_mailbox : (Instr.mailboxCommandEnd 0 0x3000400).wf 2 = true ∧ (Instr.mailboxCommandEnd 0 0x3000000).wf 2 = false := by decide
theorem test_wf_vector : (Instr.msixSend 4096 0).wf 2 = true ∧ (Instr.msixSend 4097 0).wf 2 = false := by decide
theorem test_wf_readTag : (Instr.dmaReadTimeout 0 4095).wf 2 = true ∧ (Instr.dmaReadTimeout 0 4096).wf 2 = false := by decide
theorem test_wf_dumpSlot : (Instr.dumpRelease 1).wf 2 = true ∧ (Instr.dumpRelease 2).wf 2 = false := by decide
theorem test_wf_stream : (Instr.ideCheckFail 0 8).wf 2 = true ∧ (Instr.ideCheckFail 0 9).wf 2 = false := by decide
theorem test_wf_queueInput : (Instr.queueUrgent 0 18 11 3).wf 2 = true ∧ (Instr.queueUrgent 0 18 12 3).wf 2 = false := by decide
theorem test_wf_pin : (Instr.eventPinChange 0 63 true).wf 2 = true ∧ (Instr.eventPinChange 0 64 true).wf 2 = false := by decide
theorem test_wf_package : (Instr.packageLost 31).wf 2 = true ∧ (Instr.packageLost 32).wf 2 = false := by decide

/-! Decoding: the table gives its rows no bits, so no word spells a command. -/

theorem test_decode_none : decodeTableWord 32 0 = none ∧ State.reset.withFetchWord 32 0 = State.reset := by decide

/-! The manual's worked numbers. -/

/-- Chapter 00, the write-masked example: 0x000F_0005 sets bits 3..0 to 5 and leaves 15..4; byte 0 alone changes nothing. -/
theorem test_writeMasked : wmMerge 0x1230#32 15 0x000F0005#32 = 0x1235#32 ∧ wmMerge 0x1230#32 1 0x000F0005#32 = 0x1230#32 := by decide

/-- Chapter 04: TEST_CTRL written 0x13 in its byte 0 starts near-end loopback; 9 starts nothing. -/
theorem test_testCtrl : gf (testWrite (inMode 5#32 base) 0 1 0x13#32) 0 0x124 0 1 = 1 ∧
    fld (rreg (testWrite (inMode 5#32 base) 0 1 0x13#32) 0 0x120) 0 8 = 3 ∧
    gf (testWrite (inMode 5#32 base) 0 1 0x09#32) 0 0x124 0 1 = 0 := by decide +kernel

/-- Chapter 08: the header words of the 256-byte write of instance 2600. -/
theorem test_header : ({ wrOf 256 with inst := 2600, gen := 0x17, addr := 0x4000001200 } : Pkt).word0 = 0x0005E8A040000010 ∧
    leBytes 8 0x0005E8A040000010 = [0x10, 0, 0, 0x40, 0xA0, 0xE8, 5, 0] := by decide +kernel

/-- Chapter 08: 18 slots of 16 bytes, 5 units; a response of 64 bytes is 96 bytes and 2 units; chapters 09 and 09 R184: cells. -/
theorem test_sizes : (wrOf 256).padded = 288 ∧ (wrOf 256).units = 5 ∧ (wrOf 3).padded = 32 ∧ (wrOf 64).padded = 96 ∧
    (wrOf 64).units = 2 ∧ (wrOf 256).cells = 2 ∧ (wrOf 512).cells = 3 ∧ (wrOf 4096).cells = 17 := by decide +kernel

/-- The check value of CRC-32C over the nine digits. -/
theorem test_crc32c : crc32c [0x31, 0x32, 0x33, 0x34, 0x35, 0x36, 0x37, 0x38, 0x39] = 0xE3069283#32 := by decide +kernel

/-- The check value of SHA-256 over "abc". -/
theorem test_sha256 : (sha256 [0x61, 0x62, 0x63]).take 4 = [0xBA, 0x78, 0x16, 0xBF] := by decide +kernel

/-- Chapter 09: from tile 5 to tile 2 of an IL-880 the route begins ACROSS to tile 1, then RIGHT. -/
theorem test_route : hop .il880 5 2 none = 10 ∧ neighbour .il880 5 10 = 1 ∧ hop .il880 1 2 none = 9 := by decide

/-- Chapter 10, the translation walk. -/
theorem test_walk : (resolve sWalk 2600 2 0x12341200 .write ⟨0, false, false⟩).toOption =
    some ⟨25, 0, 0x4000001200, none, false, 0x50000000⟩ := by decide +kernel

/-- Chapter 05: first VF offsets 2 and 301, and functions 12, 302 and 303 of the link. -/
theorem test_routing : firstVf [{ pf := 0 }, { pf := 1, totalVfs := 300 }, { pf := 2, totalVfs := 64 }] 1 = 2 ∧
    firstVf [{ pf := 0 }, { pf := 1, totalVfs := 300 }, { pf := 2, totalVfs := 64 }] 2 = 301 ∧
    ([12, 302, 303].map (fun f => (fnRefOf [{ pf := 0 }, { pf := 1, totalVfs := 300 }, { pf := 2, totalVfs := 64 }] f).map
      (fun r => (r.pf.pf, r.vf)))) = [some (1, some 10), some (1, some 300), some (2, some 1)] := by decide +kernel

/-- Chapter 02: pool 0 of tile 3 is clamped to 512 instances and pool 1 to none, each with its entry. -/
theorem test_pools : (readPools [([3, 0, 0x58, 2], 3), ([3, 1, 64, 0], 4)] 3).2 =
    [⟨1, 0x8004, some 3, some 2, some 600, some 512⟩, ⟨1, 0x8004, some 4, some 2, some 64, some 0⟩] := by decide +kernel

/-- Chapter 07: 712 shared less 60 units, then 25 returned past a full reserve, gives 677. -/
theorem test_credit : crShared (takeCredit (rg base [(0x2000058, 712#32), (0x200005C, 0x48484848#32)]) 0 0 0 60) 0 0 = 652 ∧
    crShared (takeCredits (rg base [(0x2000058, 652#32), (0x200005C, 0x48484848#32)]) 0 0 0 25).1 0 0 = 677 := by decide +kernel

/-- Chapter 12: widening and narrowing. -/
theorem test_convert : convert 2 4 true false 0xFFFE = 0xFFFFFFFE ∧ convert 2 4 false false 0xFFFE = 0xFFFE ∧
    convert 4 1 false false 65536 = 0 ∧ convert 4 1 false true 65536 = 0xFF ∧ convert 4 1 true true 65536 = 0x7F := by decide

/-- Chapter 12: the fields of the descriptor 0x69A0_0000. -/
theorem test_descriptor :
    let d := readDesc 7 (wordBytes 0x69A00000#32 ++ wordBytes 0x400#32 ++ wordBytes 0x100000#32 ++ wordBytes 0x40#32 ++
      wordBytes 0#32 ++ wordBytes 2#32 ++ wordBytes 0x42#32 ++ wordBytes 0#32)
    (d.sw, d.dw, d.len, d.src, d.dst, d.cookie) = (2, 4, 0x400, 0x4000100000, 0x200000000, 0x42) ∧ d.wantsEntry = true := by
  decide +kernel

/-- Chapter 13: with reads of at most 512 bytes the span of 20 bytes splits into ten and ten. -/
theorem test_narrow : mrrsOf (rg512 up) 0 0 = 512 ∧ nextRead (rg512 up) 3 narrowRun = (0, 10) ∧
    nextRead (rg512 up) 3 { narrowRun with readTo := 10 } = (10, 10) := by decide +kernel

/-- Chapter 13: the values -300, 200, -128 and 100 saturated to a byte. -/
theorem test_narrowElems : convert 4 1 true true 0xFFFFFED4 = 0x80 ∧ convert 4 1 true true 200 = 0x7F ∧
    convert 4 1 true true 0xFFFFFF80 = 0x80 ∧ convert 4 1 true true 100 = 0x64 := by decide

/-- Chapter 20: from 9.0 A the governor reaches 33.0 A in window 39 and not in window 38, in eightieths of an ampere. -/
theorem test_governor : Nat.repeat (fun e => govNext 50 2800 e 2640) 39 720 = 2640 ∧
    Nat.repeat (fun e => govNext 50 2800 e 2640) 38 720 = 2620 := by decide +kernel

/-- R340, R361: fault and history records have 32 bytes. -/
theorem test_records : (faultBytes base 0 1 0 1 none 0 1 0 0 0).length = 32 ∧ (histBytes base 0 0 0).length = 32 := by decide +kernel

/-- Chapter 20: the example balls CJ60, CJ61, AT50, A3 and A4, and the same ball of an IL-280. -/
theorem test_balls : ballAt .il880 66 60 = .tile 6 (.lrx 1 3 false) ∧ ballAt .il880 66 61 = .tile 6 (.lrx 1 3 true) ∧
    ballAt .il880 34 50 = .tile 2 (.evtIn 40) ∧ ballAt .il880 1 3 = .tile 0 (.htx 0 false) ∧
    ballAt .il880 1 4 = .tile 0 (.htx 0 true) ∧ ballAt .il280 66 60 = .unconnected := by decide +kernel

/-- Chapter 20: rows 34, 66 and 86 are AT, CJ and DK. -/
theorem test_rows : rowName 34 = ['A', 'T'] ∧ rowName 66 = ['C', 'J'] ∧ rowName 86 = ['D', 'K'] := by decide

/-- R120: a codeword, message and 30 parity symbols, has the 30 roots of the generator. -/
theorem test_codeword : (rsCodeword [1#10, 2#10, 3#10]).length = 33 ∧
    ((List.range 30).all (fun j => valueAt (rsCodeword [1#10, 2#10, 3#10]) (gfPow j) == 0#10)) = true := by decide +kernel

/-- R121: 1,285 flits fill 512 codewords; R122: at x8 a lane carries 68 symbols of a codeword; R123: three flits fill 64 unit
intervals of 96 lanes. -/
theorem test_superframe : superFlits * 256 * 8 = superCodewords * 514 * 10 ∧
    (laneSymbols 8 7 (List.replicate 544 5#10)).length = 68 ∧
    (tileLaneBits 96 95 (List.replicate 6144 true)).length = 64 := by decide +kernel

/-- R119: the Gray code, first bit low; precoding sends each level less the one before. -/
theorem test_pam4 : pam4 false false = -3 ∧ pam4 true false = -1 ∧ pam4 true true = 1 ∧ pam4 false true = 3 ∧
    precode 0 [-1, 3, -3] = [-1, 1, 1] := by decide

theorem wit_EveryCommandCompletesOrStops : (Instr.tvScrub 1).wf 2 = true ∧ (Instr.tvScrub 2).wf 2 = false := by decide

theorem wit_StepRunsFrontCommand : ∃ s', exec .followingTimeout { up with pending := [] } = .next s' := ⟨_, rfl⟩

theorem wit_EmptyQueueTicks : base.pending = [] ∧ (sCal { dead := true }).pending = [] ∧ (sCal { dead := true }).cal.dead = true ∧
    { sDark with cal := { still := true } }.pending = [] ∧ { sDark with cal := { still := true } }.core.pwrgood = false := by decide

theorem wit_StepKeepsInvariant : up.Inv ∧ ∃ s', step { up with pending := [.followingTimeout] } = .next s' :=
  ⟨by unfold State.Inv; decide, _, rfl⟩

theorem wit_StepKeepsWhatLasts : ∃ s', step { up with pending := [.tapReset], otp := { keyHash := some 5 } } = .next s' := ⟨_, rfl⟩

theorem wit_CommandsTouchOnlyTheirGroups : ∃ s', exec .tapReset up = .next s' := ⟨_, rfl⟩

theorem wit_ModesChangeOnlyAsTabled : modeRow (mode up 0) 4 2 = true ∧ modeRow (mode up 0) 2 2 = false ∧
    (∃ s', step { up with pending := [.tapReset] } = .next s') ∧ modeRow 1 2 1 = true ∧ modeRow 2 3 2 = true :=
  ⟨by decide, by decide, ⟨_, rfl⟩, by decide, by decide⟩

theorem wit_PostedWritesTakeEffectInOrder : (tileSt sXq 0).fenced = false ∧
    Tbl.get [] sXq.bus.xq (xqKey 0 1) = [.reg 0x3000000 15 0x00120003#32, .reg 0x3000010 3 9#32] ∧
    Tbl.get [] sXq.bus.xq (xqKey 0 2) = [] ∧ (∃ r, RowAlone 0x3000000 r) ∧ absentReg sXq 0 0x3000000 = false ∧
    inMgrTable sXq 0 0x3000000 = false := by
  refine ⟨by decide, by decide, by decide, ⟨_, rfl, ?_⟩, by decide, by decide⟩
  decide

theorem wit_PostedWritesTakeEffectInOrder_access : (Instr.rateCapWrite 0 1).register = some (0, hpt 0 4) ∧
    (Instr.rateCapWrite 0 1).wf 2 = true ∧ absentReg up 0 (hpt 0 4) = false ∧ mode State.reset 0 = 0 ∧
    mode sFenced 0 ≠ 0 ∧ portsClosed sFenced 0 = true ∧ recoveryShape sFenced = false ∧ mode sShape 0 ≠ 0 ∧
    recoveryShape sShape = true ∧ regOpen sShape 0 (hpt 0 4) = false ∧ Reaches up 0 (hpt 0 4) ∧
    crossAll up 0 (blockDomain (hpt 0 4 / 0x1000000)) = up := by unfold Reaches; decide

theorem wit_WriteMaskSelectsBits : ∃ r ∈ blockRows 1, r.wm = true := by decide

theorem wit_FieldsAreClamped : (0 : Nat) < 3 ∧ 29 + 3 ≤ 32 ∧ (2 : Nat) ≤ 5 ∧ 5 < 2 ^ 3 ∧ 0xF &&& ((2 ^ 3 - 1) * 2 ^ 29) = 0 := by decide

theorem wit_ReservedWritesAreCounted : TileOpen base 0 ∧ regThere base 0 (dwOff 0xF000000) = false := by unfold TileOpen; decide

theorem wit_VotedRegistersHeal : TileOpen base 0 ∧ isTv tvOff = true ∧ absentReg sTv 0 tvOff = false ∧ inMgrTable sTv 0 tvOff = false ∧
    tvOff ≠ 0x20C ∧ tvOff ≠ 0x210 ∧ Tbl.get [] sTv.bus.xq (xqKey 0 (blockDomain (tvOff / 0x1000000))) = [] ∧
    Tbl.find? base.bus.tv (key 0 tvOff) = none ∧ Tbl.find? sTv.bus.tv (key 0 tvOff) = some (5, 5) ∧ rreg sTv 0 tvOff ≠ 5 ∧
    Tbl.find? sTv2.bus.tv (key 0 tvOff) = some (5, rreg sTv2 0 tvOff) := by
  unfold TileOpen; decide

theorem wit_VotedRegistersHeal_scrub : base.bus.tv = [] ∧ sTv.bus.tv = [(key 0 tvOff, (5, 5))] ∧ tvOff ∈ tvRegs sTv 0 := by decide +kernel

theorem wit_IndirectDataAdvances : TileOpen base 0 ∧ Tbl.get [] base.bus.xq (xqKey 0 21) = [] := by unfold TileOpen; decide

theorem wit_MailboxDataAndEnd : isMb 0x3000400 = true ∧ absentReg up 0 0x3000400 = false ∧ mbWord 0x3000400 0 = true ∧
    blockDomain (0x3000400 / 0x1000000) ≠ 21 ∧ Reaches up 0 0x3000400 ∧ isMb 0xD000300 = true ∧ mbWord 0xD000300 0 = true ∧
    blockDomain (0xD000300 / 0x1000000) = 21 ∧ Reaches up 0 0xD000300 ∧ gf up 0 0xD000300 30 1 = 0 ∧
    (tileSt (sMbPosted 0) 0).fenced = false ∧
    Tbl.get [] (sMbPosted 0).bus.xq (xqKey 0 (blockDomain (0x3000400 / 0x1000000))) = [.reg (0x3000400 + 0x10 + 4 * 0) 15 7#32] ∧
    gf (sMbPosted 0) 0 0x3000400 30 1 = 0 ∧ gf (sMbPosted 0x40000000) 0 0x3000400 30 1 = 1 := by unfold Reaches; decide

theorem wit_MailboxDataAndEnd_end : gf up 0 0x3000400 30 1 = 0 ∧ gf (sMb .running) 0 0x3000400 30 1 = 1 ∧
    Tbl.get .running (sMb .running).bus.mb (key 0 0x3000400) = .running ∧
    Tbl.get .running (sMb (.ok [1, 2])).bus.mb (key 0 0x3000400) = .ok [1, 2] ∧
    Tbl.get .running (sMb (.fails 1)).bus.mb (key 0 0x3000400) = .fails 1 ∧ (tileSt (sMb (.fails 1)) 0).fenced = false := by decide

theorem wit_ModeCommandsStart : Reaches up 0 0x108 ∧ gf up 0 0x10C 0 1 = 0 ∧ Reaches (sCmd 2 .service) 0 0x108 ∧
    gf (sCmd 2 .service) 0 0x10C 0 1 = 1 := by unfold Reaches; decide

theorem wit_ModeCommandsEnd : (tileSt up 0).modeCmd = none ∧ (tileSt (sCmd 2 .service) 0).modeCmd = some .service ∧
    (sCmd 2 .service).core.scanned = false ∧ mode (sCmd 2 .service) 0 = 2 ∧ recoveryShape (sCmd 2 .service) = false ∧
    (tileSt (sCmd 5 .recovery) 0).modeCmd = some .recovery ∧ mode (sCmd 5 .recovery) 0 = 5 ∧
    (tileSt (sCmd 2 .test) 0).modeCmd = some .test ∧ tileEmpty (sCmd 2 .test) 0 = false := by decide

theorem wit_TestsStart : Reaches up 0 0x120 ∧ mode up 0 ≠ 5 ∧ Reaches (inMode 5 up) 0 0x120 ∧ mode (inMode 5 up) 0 = 5 ∧
    gf (inMode 5 up) 0 0x124 0 1 = 0 ∧ Reaches (sTest 2) 0 0x120 ∧ gf (sTest 2) 0 0x124 0 1 = 1 := by unfold Reaches; decide

theorem wit_TestsEnd : (tileSt (sTest 2) 0).test = some ⟨2, 5⟩ ∧ (tileSt (sTest 1) 0).test = some ⟨1, 5⟩ ∧
    (tileSt up 0).test = none ∧ Reaches (sTest 2) 0 0x120 ∧ Reaches (sTest 1) 0 0x120 ∧ Reaches up 0 0x120 := by unfold Reaches; decide

theorem wit_PowerAndResetClearWhatIsVolatile : up.core.pwrgood = true ∧ sDark.core.pwrgood = false ∧ sDark.core.resetN = false ∧
    up.core.resetN = true := by decide

theorem wit_PackageStartReachesItsShape : up.core.resetN = true ∧ State.reset.core.resetN = false ∧ State.reset.core.pwrgood = true ∧
    State.reset.cal.stopFlag = false ∧ sLatched.core.resetN = false ∧ gf sLatched 0 0x118 0 1 = 1 ∧
    faultClass { State.reset with cal := { stopFlag := true } } 0 9 1 ≠ 3 := by decide

theorem wit_TileResetTakesOtherTiles : Reaches up 0 0x110 ∧ up.core.scanned = false ∧ (1#8 <<< 1).getLsbD 1 = true ∧ mode up 1 ≠ 0 ∧
    (tileSt up 1).resetting = false ∧ (tileSt sResetting 1).resetting = true ∧ mode sResetting 1 = 1 ∧ sResetting.core.scanned = false ∧
    (∀ e ∈ sResetting.ins.recs, e.1 / 512 = 1 → e.2.resetting = false) := by unfold Reaches; decide

theorem wit_BoundaryScanPlacesEveryTileInTest : tileMode up 0 ≠ 0 ∧ tileMode State.reset 0 = 0 := by decide

theorem wit_ImageCommandsStart : Reaches base 0 0xA000004 ∧ base.str.run = none ∧ Reaches (sImg 1 true 0x30 {}) 0 0xA000004 ∧
    (sImg 1 true 0x30 {}).str.run.isSome = true := by unfold Reaches; decide

theorem wit_ImageCommandsEnd : base.str.run = none ∧ (sImg 1 true 0x30 {}).str.run = some (1, true) ∧
    (sImg 1 false 0x10 {}).str.run = some (1, false) ∧ (sImg 2 false 0x12 {}).str.run = some (2, false) ∧
    gf (sImg 2 false 0x12 {}) 0 0xA000000 1 1 = 1 ∧ gf (sImg 2 false 0x10 {}) 0 0xA000000 1 1 = 0 ∧
    (sImg 4 false 0x10 { keyHash := some 5 }).otp.keyHash.isSome = true := by decide

theorem wit_FloorChangesOnlyByCommit : (∃ s', step { base with pending := [.tapReset] } = .next s') ∧
    (sImg 3 false 0x10 {}).str.run = some (3, false) ∧ recoveryShape (sImg 3 false 0x10 {}) = false ∧
    recoveryShape (rg (sImg 3 false 0x18 {}) [(0xA000014, 0x100#32)]) = true ∧
    gf (rg (sImg 3 false 0x18 {}) [(0xA000014, 0x100#32)]) 0 0xA000014 8 1 = 1 := ⟨⟨_, rfl⟩, by decide⟩

theorem wit_SlotWritesAndCopies : Reaches base 0 0xA000024 ∧ gf base 0 0xA000000 5 1 = 0 ∧ (rreg base 0 0xA000020).toNat < 0x100000 ∧
    Reaches sPend 0 0xA000024 ∧ gf sPend 0 0xA000000 5 1 = 1 ∧ base.str.copies = [] ∧ sCopy.str.copies = [1, 0] := by
  unfold Reaches; decide

theorem wit_HostLinkControlsAct : linkPresent up 0 = true ∧ Reaches up 0 (hptOf 0 4) ∧ Reaches up 0 (hptOf 0 0x1C) ∧ hls up 0 31 1 = 1 ∧
    hls up 0 30 1 = 1 ∧ Tbl.find? up.host.wakes 0 = none ∧ Tbl.find? sHost.host.wakes 0 = some () ∧ (tileSt sHost 0).fenced = false ∧
    hls (sLink 0) 0 31 1 = 0 ∧ hls sHost 0 24 4 = 5 ∧ cfgF sHost 0 0 0x60 1 1 = 1 ∧ cfgF up 0 0 0x60 1 1 = 0 ∧
    sHost.host.tags = [] ∧ sHost.host.inb = [] := by unfold Reaches; decide

theorem wit_HostLinksComeUpAndGoDown : linkPresent up 0 = true ∧ hls (sLink 0x01000000) 0 29 1 = 0 ∧ hls (sLink 0x01000000) 0 31 1 = 0 ∧
    hls (sLink 0x01000000) 0 24 4 ≠ 0 ∧ mayTrain (sLink 0x01000000) 0 = true ∧ hls up 0 31 1 = 1 ∧ hls up 0 30 1 = 1 ∧
    hls up 0 20 4 ≠ clamp 1 (rateLimit up 0) 1 ∧ hls up 0 20 4 = clamp 1 (rateLimit up 0) 4 ∧ hls up 0 12 4 ≠ clamp 1 (hls up 0 16 4) 1 ∧
    hls (sLink 0x20000000) 0 29 1 = 1 ∧ up.core.scanned = false ∧ sScan.core.scanned = true ∧
    mayTrain (sLink 0x20000000) 0 = true ∧ mayTrain (inMode 1 (sLink 0x20000000)) 0 = false := by decide

theorem wit_ConfigurationIsAnsweredByThePort : linkPresent up 0 = true ∧ hls up 0 31 1 = 1 ∧ (tileSt up 0).fenced = false ∧
    Tbl.find? up.host.upTo 0 = some () ∧ 2 ≤ mode up 0 ∧ fnExists up 0 0 = true ∧ fnExists up 0 1 = false ∧
    (∃ p, fnRefOf (pfsOf up 0) 0 = some ⟨p, none⟩) ∧ Tbl.find? sNotReady.host.upTo 0 = none ∧
    Tbl.find? sNotReady.host.drs 0 = none ∧ hls (sLink 0) 0 31 1 = 0 ∧ managerLink up = some 4 ∧ linkPresent up 4 = true ∧
    fnExists up 4 0 = true := by
  refine ⟨by decide, by decide, by decide, by decide, by decide, by decide, by decide, ⟨_, rfl⟩, ?_⟩; decide

theorem wit_MessagesAndSecurity : instOk up 3 = true ∧ takeOut (3, 0) up.evc.vecDue = none ∧ takeOut (3, 0) up.evc.vecRetry = none ∧
    takeOut (3, 0) (sVec 0).evc.vecDue = some [] ∧ takeOut (3, 0) sRetry.evc.vecDue = none ∧ takeOut (3, 0) sRetry.evc.vecRetry = some [] ∧
    Tbl.find? sRetry.host.pba (3 * 2048 + 0) = some () ∧ Tbl.find? (sRetryOf []).host.pba (3 * 2048 + 0) = none ∧
    takeOut (3, 0) (sRetryOf []).evc.vecRetry = some [] ∧ 0 < (instOf (sVec 0) 3).vCount ∧
    live (sVec 0) 3 = true ∧ (instOf (sVec 0) 3).fn = some (0, 0) ∧ msgOf (sVec 0) 0 0 0 (vecOf (sVec 0) 3 0) = some (0x1000, 77) ∧
    ideRefuses (sVec 0) 0 0x1000 = false ∧ msgOf (sVec 1) 0 0 0 (vecOf (sVec 1) 3 0) = none ∧
    live sVecUnbound 3 = false ∧ takeOut (3, 0) sVecUnbound.evc.vecDue = some [] := by
  refine ⟨by decide, by decide, by decide, by decide, by decide, by decide, by decide, by decide, by decide, by decide, by decide,
    by decide, rfl, ?_⟩
  decide

theorem wit_MessagesAndSecurity_links : linkPresent sHost 0 = true ∧ hls sHost 0 31 1 = 1 ∧ 2 ≤ mode sHost 0 ∧
    32768 < (List.replicate 32769 (0 : Byte)).length ∧ leAt (doeIn 0x84) 9 1 = 0x84 ∧ leAt (doeIn 0xE4) 9 1 = 0xE4 ∧
    (doeIn 0x84).length ≤ 32768 ∧ leAt (doeIn 0x84) 0 2 = 1 ∧ leAt (doeIn 0x84) 2 1 = 1 ∧ leAt (doeIn 0xE4) 0 2 = 1 ∧
    leAt (doeIn 0xE4) 2 1 = 1 ∧ 4 ≤ Tbl.get 0 sHost.host.sessions 0 ∧ Tbl.find? sHost.host.secure (0 * 256 + 0) = some () ∧
    Tbl.find? up.host.secure (0 * 256 + 0) = none := by
  rw [List.length_replicate]
  decide

theorem wit_RequestsTowardHostsLeaveInOrder : linkPresent sOut 0 = true ∧ (tileSt sOut 0).fenced = false ∧
    Tbl.get [] up.host.outq 0 = [] ∧ Tbl.get [] sOut.host.outq 0 = [wrUp] ∧
    issueFn sOut 0 wrUp = some 0 ∧ wrUp.pkt.isRsp = false ∧ wrUp.pkt.isReq = false ∧ hls (sLink 0) 0 31 1 = 0 ∧ hls up 0 31 1 = 1 ∧
    up.host.tags = [] ∧ hls (sTag true) 0 31 1 = 1 ∧ (sTag true).host.tags = [(1, some (tagEnt true))] ∧ (tagEnt true).rid = (0#16).toNat ∧
    (tagEnt true).tag = (9#14).toNat ∧ (tagEnt true).len ≤ ((tagEnt true).got ++ List.replicate 4 (7#8)).length ∧
    ¬ (tagEnt true).len ≤ ((tagEnt true).got ++ List.replicate 3 (7#8)).length ∧ Tbl.get [] up.host.tagWait 0 = [] ∧
    Tbl.get [] sOut.host.tagWait 0 = [rdUp] ∧ issueFn sOut (4 * 0 + rdUp.dstSub) rdUp = some 0 ∧ rdUp.dstSub < 4 ∧
    Tbl.get none up.host.tags (0 * 4096 + 1) = none ∧ Tbl.get none (sTag false).host.tags (0 * 4096 + 1) = some (tagEnt false) ∧
    Tbl.get none (sTag true).host.tags (0 * 4096 + 1) = some (tagEnt true) := by decide

theorem wit_RequestsTowardHostsLeaveInOrder_tag : (freeHostTag sOut 0 0 0).isSome = true := by decide +kernel

theorem wit_RequestsTowardHostsLeaveInOrder_may : mayIssueFn sOut 0 0 wrUp = true ∧ mayIssueFn sOut 0 0 rdUp = true ∧
    ∀ u w, wrUp.issuer ≠ .dmaWr u w := ⟨rfl, rfl, fun _ _ h => nomatch h⟩

theorem wit_LodeLinksTrain : trains up 0 0 = false ∧ mode (inMode 1 up) 0 ≤ 1 ∧ 2 ≤ mode up 0 ∧ 2 < physLanes up 0 0 ∧
    linkState (sPhy 0 0x00133000 {}) 0 0 = 1 ∧ linkState (sPhy 0 0x00233000 {}) 0 0 = 2 ∧ linkState (sPhy 0 0x00333000 {}) 0 0 = 3 ∧
    linkState (sPhy 0 0x00433000 { aim := some (2, 3, 4) }) 0 0 = 4 ∧
    (linkSt (sPhy 0 0x00433000 { aim := some (2, 3, 4) }) 0 0).aim = some (2, 3, 4) ∧
    linkState (sPhy 0 0x00533000 { aim := some (2, 3, 4) }) 0 0 = 5 ∧
    (linkSt (sPhy 0 0x00533000 { aim := some (2, 3, 4) }) 0 0).aim = some (2, 3, 4) ∧
    bestWidth (lanesIn {} 8 false) 3 = 0 ∧ bestWidth (lanesIn {} 8 true) 3 = 0 ∧ bestWidth (lanesIn { lanes := lanesUp } 8 false) 3 ≠ 0 ∧
    (aBlock identBlock 0).identity = ownIdentity (sPhy 0 0x00333000 {}) 0 0 ∧
    (aBlock identBlock 9).identity ≠ ownIdentity (sPhy 0 0x00333000 {}) 0 0 ∧
    trains (sPhy 0 0x00333000 {}) 0 0 = true ∧ gf (sPhy 0 0x00333000 {}) 0 (lnk 0 0) 29 1 = 0 ∧
    gf (sPhy 0 0x20333000 {}) 0 (lnk 0 0) 29 1 = 1 ∧ linkState up 0 0 ≠ 3 := by decide +kernel

theorem wit_LodeLinksTrain_blocks : (∀ b ∈ [aBlock syncBlock 9, aBlock identBlock 0, aBlock identBlock 9, aBlock eqBlock 9],
      readLane (blockBytes b) = some (b, false) ∧ readLane ((blockBytes b).map (~~~ ·)) = some (b, true)) ∧
    readBlock (blockBytes { aBlock repairBlock 9 with failed := [3, 103] }) = some { aBlock repairBlock 9 with failed := [3, 103] } := by
  decide +kernel

theorem wit_LodeLinksTrain_tile : trains (sPhy 9 0x00133000 {}) 0 9 = true ∧ trains (sPhy 9 0x00600000 {}) 0 9 = false ∧
    linkState (sPhy 9 0x00133000 {}) 0 9 = 1 ∧ linkState (sPhy 9 0x00233000 {}) 0 9 = 2 ∧ linkState (sPhy 9 0x00333000 {}) 0 9 = 3 ∧
    tileWidth [] [3, 103] = 5 ∧ tileWidth (List.range 9) [] = 4 ∧ tileWidth (List.range 57) [3] = 0 ∧
    linkState (sPhy 9 0x00533000 { aim := some (4, 4, 7) }) 0 9 = 5 ∧ (linkSt (sPhy 9 0x00533000 { aim := some (4, 4, 7) }) 0 9).aim = some (4, 4, 7) ∧
    faultClass (sPhy 9 0x00533000 { aim := some (4, 4, 7) }) 0 2 4 = 0 ∧ linkState up 0 0 = 6 ∧ linkState (sPhy 0 0x00733000 {}) 0 0 = 7 ∧
    linkState (sPhy 0 0x00833000 {}) 0 0 = 8 ∧ linkState (sPhy 9 0x00833000 {}) 0 9 = 8 ∧ (failedLanes [0, 3, 2]) = [1] ∧
    tileWidth (failedLanes [0, 3, 2]) [3, 103] ≠ 0 := by decide +kernel

theorem wit_LiveChangesAgree : Reaches up 0 (lnk 0 4) ∧ gf up 0 (lnk 0 0) 30 1 = 0 ∧ Reaches (sPhy 0 0x40633000 {}) 0 (lnk 0 4) ∧
    gf (sPhy 0 0x40633000 {}) 0 (lnk 0 0) 30 1 = 1 ∧ Reaches (sPhy 0 0x00133000 {}) 0 (lnk 0 4) ∧
    linkState (sPhy 0 0x00133000 {}) 0 0 ≠ 6 ∧ linkState (sPhy 0 0x00133000 {}) 0 0 ≠ 7 ∧ linkState (sPhy 0 0x00133000 {}) 0 0 ≠ 8 ∧
    Reaches sPeer 0 (lnk 0 4) ∧
    linkState sPeer 0 0 = 6 ∧ linkShape sPeer 0 0 = clampTarget sPeer 0 0 (targetRate sPeer 0 0) (targetWidth sPeer 0 0) ∧
    linkShape (sPhy 0 0x00612000 {}) 0 0 ≠
      clampTarget (sPhy 0 0x00612000 {}) 0 0 (targetRate (sPhy 0 0x00612000 {}) 0 0) (targetWidth (sPhy 0 0x00612000 {}) 0 0) ∧
    (linkSt (sPhy 0 0x40633000 { change := some (aChange false true) }) 0 0).change = some (aChange false true) ∧
    linkState (sPhy 0 0x40633000 { change := some (aChange false true) }) 0 0 = 6 ∧ (aChange false true).req = (5#8).toNat ∧
    (aChange false true).req ≠ (6#8).toNat ∧
    (linkSt up 0 0).change = none ∧ linkAlive (sPhy 0 0x00133000 {}) 0 0 = false ∧
    (linkSt sPeer 0 0).change = none ∧ linkShape sPeer 0 0 = clampTarget sPeer 0 0 3 3 ∧ linkShape sPeer 0 0 ≠ clampTarget sPeer 0 0 1 1 ∧
    (linkSt (sPhy 0 0x00733000 { change := some (aChange true false) }) 0 0).change = some (aChange true false) ∧
    linkState (sPhy 0 0x00733000 { change := some (aChange true false) }) 0 0 = 7 := by unfold Reaches; decide +kernel

/-- A change accepted, whose LCR_ACK is the message that waits. -/
def sPauseDue : State := sPhy 0 0x40633000 { change := some (aChange true false), pauseDue := true, msgs := [linkMsg 2 5 0 2 1] }

theorem wit_LiveChangesAgree_pause : linkState sPauseDue 0 0 = 6 ∧ (linkSt sPauseDue 0 0).change = some (aChange true false) ∧
    (linkSt sPauseDue 0 0).pauseDue = true ∧ (linkSt sPauseDue 0 0).paused = false ∧ (linkSt sPauseDue 0 0).pausing = false ∧
    (linkSt sPauseDue 0 0).resend = [] ∧ (linkSt sPauseDue 0 0).msgs = [linkMsg 2 5 0 2 1] ∧ (linkSt sPauseDue 0 0).txq = [] ∧
    (linkSt sPauseDue 0 0).replay.length < windowOf sPauseDue 0 0 := by decide

theorem wit_DeclarationsOfLinkDown : Reaches up 0 (lnk 0 4) ∧ linkAlive up 0 0 = true ∧ Reaches (sPhy 0 0x00133000 {}) 0 (lnk 0 4) ∧
    linkAlive (sPhy 0 0x00133000 {}) 0 0 = false ∧
    linkState (sPhy 0 0x00833000 {}) 0 0 = 8 ∧ linkState (sPhy 0 0x00733000 { locklossRun := true }) 0 0 = 7 ∧
    (linkSt (sPhy 0 0x00733000 { locklossRun := true }) 0 0).locklossRun = true ∧ up.lode.locks = [] ∧ hostUp up 0 = true ∧
    hostUp (sLink 0) 0 = false ∧ boundInst up 0 0 = some 3 ∧ boundInst up 0 5 = none ∧
    (sLock { holder := some (3, fnKey 0 0) }).lode.locks = [(0 * 8 + 0, { holder := some (3, fnKey 0 0) })] := by
  unfold Reaches; decide

theorem wit_FlitsFlow : (linkSt (sPhy 0 0x00633000 { paused := true }) 0 0).paused = true ∧ (linkSt up 0 0).paused = false ∧ linkState up 0 0 = 6 ∧
    (linkSt up 0 0).resend = [] ∧ (linkSt up 0 0).msgs = [] ∧ (linkSt up 0 0).txq = [] ∧
    canPack (linkSt sFlits 0 0).msgs (linkSt sFlits 0 0).txq = true ∧ (linkSt sFlits 0 0).pausing = false ∧
    (linkSt sFlits 0 0).replay.length < windowOf sFlits 0 0 ∧
    windowOf (rg sFlits [(0x2000040, 0#32)]) 0 0 ≤ (linkSt (rg sFlits [(0x2000040, 0#32)]) 0 0).replay.length ∧
    (linkSt sReplay 0 0).resend = [((fl 0).seq, 1)] ∧
    (linkSt sReplay 0 0).replay = [fl 0] ∧ (missing sGap 0 0).contains (1#12).toNat = true ∧
    (missing up 0 0).contains (1#12).toNat = false ∧ (linkSt up 0 0).replay = [] ∧ (linkSt sReplay2 0 0).replay = [fl 0] ∧
    linkState (sPhy 0 0x00133000 {}) 0 0 ≠ 6 ∧ waitsCredit up 0 0 (0#2).toNat = false ∧ waitsCredit sNoCredit 0 0 (0#2).toNat = true := by
  decide +kernel

theorem wit_FlitsFlow_receive : (∀ e, flitOk (flitBytes (idleHdr e) []) = true) ∧ flitOk [] = false ∧
    linkState (sPhy 0 0x00833000 {}) 0 0 = 8 ∧ linkState (sPhy 0 0x00033000 {}) 0 0 = 0 ∧ flitHdr (flitBytes (idleHdr 2) []) = idleHdr 2 ∧
    (idleHdr 3).epoch ≠ linkEpoch up 0 0 % 16 ∧ flitHdr (flitBytes (idleHdr 3) []) = idleHdr 3 ∧
    (idleHdr 2).epoch = linkEpoch sReplay2 0 0 % 16 ∧ (fl 0).tails = [] ∧ linkState sReplay2 0 0 = 6 ∧
    (idleHdr 2).ack = (gf sReplay2 0 (lnk 0 0x44) 0 12 + 1) % 4096 ∧
    (idleHdr 2).crTotal = (linkSt sReplay2 0 0).crHeld.get (idleHdr 2).crClass % 4096 := by
  refine ⟨fun e => flitOk_flitBytes _ _, ?_⟩
  decide +kernel

/-- A read that waits for a held-read slot of an older generation, and a write that no window takes. -/
def rdOld : RxPkt := { rdRx with pkt := { rdRx.pkt with gen := 6 } }

def wrOut : RxPkt := { wrRx 3 7 with pkt := { (wrRx 3 7).pkt with addr := 0 } }

theorem wit_PartnersWritesReadsAndEvents : (tileSt sFenced 0).fenced = true ∧ (tileSt up 0).fenced = false ∧ (linkSt up 0 0).rxq = [] ∧
    (linkSt (sRx (wrRx 3 7)) 0 0).rxq = [wrRx 3 7] ∧ (wrRx 3 7).pkt.ty = .wr ∧ (wrRx 3 7).pkt.glob = false ∧
    checkUp (sRx (wrRx 4 7)) 0 0 (wrRx 4 7).pkt true false = .refused 5 none ∧
    checkUp (sRx (wrRx 3 6)) 0 0 (wrRx 3 6).pkt true false = .refused 7 none ∧
    checkUp (sRx wrOut) 0 0 wrOut.pkt true false = .refused 6 none ∧
    checkUp (sRx (wrRx 3 7)) 0 0 (wrRx 3 7).pkt true false = .passes 0 0 0x80000010 ∧ rdRx.pkt.ty = .rd ∧
    tagOut (sRx rdRx) 0 0 rdRx.pkt.tag = false ∧ tagOut (sPhy 0 0x00633000 { rxq := [rdRx], rdWait := [rdRx] }) 0 0 rdRx.pkt.tag = true ∧
    (linkSt sRdWait 0 0).rdWait = [rdRx] ∧ (linkSt up 0 0).rdWait = [] ∧ intakeShut sRdWait 0 0 rdRx.pkt = false ∧ rdRx.pkt.glob = false ∧
    (List.range (heldSlots sRdWait 0 0)).find? (fun k => (heldRd sRdWait 0 0 k).isNone) = some 0 ∧
    checkUp sRdWait 0 0 rdRx.pkt false false = .passes 0 0 0x80000010 ∧ checkUp sRdWait 0 0 rdOld.pkt false false = .refused 7 none ∧
    Reaches up 0 (ltp 0 4) := by unfold Reaches; decide +kernel

theorem wit_PartnersWritesReadsAndEvents_events : (evRx 2).pkt.ty = .event ∧ slotPosted sRxHeld 0 0 none ≠ [] ∧
    slotPosted (sRxEv 2 0x80000000) 0 0 none = [] ∧ (sRxEv 2 0x80000000).brg.holds = [] ∧
    srcLevel (sRxEv 0 0xC0000000) 0 (20480 + 0 * 256 + (evRx 0).pkt.addr % 256) = true ∧
    srcLevel (sRxEv 2 0x80000000) 0 (20480 + 0 * 256 + (evRx 2).pkt.addr % 256) = false ∧
    gf (sRxEv 2 0x80000000) 0 (evcSrc (20480 + 0 * 256 + (evRx 2).pkt.addr % 256)) 31 1 = 1 ∧ 2 ≤ mode (sRxEv 2 0x80000000) 0 ∧
    reservedSource (20480 + 0 * 256 + (evRx 2).pkt.addr % 256) = false := by decide

theorem wit_ResponsesAndLocks : (tileSt sFenced 0).fenced = true ∧ (tileSt up 0).fenced = false ∧ (linkSt (sRsp [] []) 0 0).rxq = [rspRx] ∧
    rspRx.pkt.isRsp = true ∧ rspRx.pkt.tag < 4096 ∧
    Tbl.find? (sRsp [] [(2, .dmaTag 0 2)]).lode.quar ((0 * 8 + 0) * 4096 + rspRx.pkt.tag) = some (.dmaTag 0 2) ∧
    Tbl.find? (sRsp [] []).lode.quar ((0 * 8 + 0) * 4096 + rspRx.pkt.tag) = none ∧
    (let s := { sRsp [] [] with lode := { (sRsp [] []).lode with past := [(2, ())] } }
     Tbl.find? s.lode.past ((0 * 8 + 0) * 4096 + rspRx.pkt.tag) = some () ∧ (tileSt s 0).fenced = false) ∧
    Tbl.find? (sRsp [] []).lode.past ((0 * 8 + 0) * 4096 + rspRx.pkt.tag) = none ∧
    Tbl.get none (sRsp [] []).lode.tags ((0 * 8 + 0) * 4096 + rspRx.pkt.tag) = none ∧
    Tbl.get none (sRsp [(2, some devReq)] []).lode.tags ((0 * 8 + 0) * 4096 + rspRx.pkt.tag) = some devReq ∧
    devReq.issuer = .dmaTag 0 2 ∧ (linkSt sLockRsp 0 0).rxq = [lockRsp] ∧ lockRsp.pkt.isRsp = true ∧
    Tbl.get none sLockRsp.lode.tags ((0 * 8 + 0) * 4096 + lockRsp.pkt.tag) = some lockReq ∧ lockReq.issuer = .lock 0 0 ∧
    rspStatus lockReq lockRsp.pkt = (0, false) ∧ (lockSt sLockRsp 0 0).begun = some lockRd ∧ lockRd.issuer = .inbound 0 1 ∧
    Tbl.get none sLockRsp.host.inb (0 * 1024 + 1) = some inb3 ∧ inb3.inst = lockRd.pkt.inst ∧ inb3.gen = lockRd.pkt.gen := by
  decide +kernel

theorem wit_ResponsesAndLocks_begin : (lockSt up 0 0).wait = [] ∧ oldestLocked sLockWait 0 0 = some (1, lockRd, 0) ∧
    (lockSt sLockWait 0 0).begun = none ∧ linkAlive sLockWait 0 0 = true ∧ lockMayGo sLockWait 0 0 1 lockRd = true ∧
    1 ≤ acctFree sLockWait 0 .shared ∧ (lockSt sLockWait 0 0).wait = lockRd :: [] ∧
    lockMayGo (rg sLockWait [(0x200100C, 0x80000003#32)]) 0 0 1 lockRd = false ∧
    TurnOf sLockBegin 0 (4 + 0) 0 3 2 none (stored lockBegin .shared 0) ∧
    lockBegin.pkt.ty = .lockBegin ∧ lockBegin.pkt.inst < 4096 ∧ lockBegin.mc = none := by
  refine ⟨by decide, by decide, by decide, by decide, by decide, by decide, by decide, by decide, ?_, by decide, by decide, by decide⟩
  refine ⟨by decide, by decide, ⟨[], by decide +kernel⟩, by decide +kernel, by decide +kernel, by decide, by decide +kernel, by decide,
    by decide +kernel, by decide⟩

theorem wit_FramesCrossTheSwitchCore : nextIn up 0 0 = none ∧ nextIn sIngress 0 0 = some (0, wrDown, [far]) ∧
    Tbl.get [] sWaiting.swc.waiting (0 * 12 + 0) = [wrDown] ∧ Tbl.get [] up.swc.waiting (0 * 12 + 0) = [] ∧
    wrDown.credit = none ∧ wrDown.pkt.cells ≤ acctFree sIngress 0 .shared ∧ wrDown.dstPort ≠ 12 ∧ storedOf up 0 1 = none ∧
    hostIn.dstTile = 0 ∧ hostIn.dstPort = 12 ∧ hostIn.pkt.isRsp = false ∧ hostIn.credit = none ∧
    storedOf (sQueue wrUp .pool 0 1 0 0) 0 1 = some (stored wrUp .pool 1) ∧
    onwardAcct (sQueue wrUp .pool 0 1 0 0) 0 (outOf (sQueue wrUp .pool 0 1 0 0) 0 wrUp) (stored wrUp .pool 1) = some .shared ∧
    (stored wrUp .shared 1).acct ≠ .pool ∧
    queueOf up (qKey 0 0 1 (0#2).toNat) = [] ∧ queueOf sUrgent (qKey 0 0 1 (0#2).toNat) ≠ [] ∧
    sUrgent.swc.urgent.contains (qKey 0 0 1 (0#2).toNat) = true ∧ up.swc.urgent.contains (qKey 0 0 1 (0#2).toNat) = false ∧
    headOf (sQueue wrUp .shared 0 1 0 0) 0 0 1 (0#2).toNat = some (1, none, stored wrUp .shared 1) ∧
    mayAge (sQueue wrUp .shared 0 1 0 0) 0 wrUp = true ∧ mayAge sUrgent 0 lockEndFrame = false ∧
    wrUp.pkt.isReq = false ∧ wrUp.pkt.isRsp = false ∧ wrUp.issuer = .nobody ∧ (stored wrUp .shared 1).refs = 1 := by decide +kernel

theorem wit_FramesCrossTheSwitchCore_read :
    headOf (sQueue rdUp .shared 0 8 1 0) 0 0 8 (1#2).toNat = some (1, none, stored rdUp .shared 8) ∧
    mayAge (rg (sQueue rdUp .shared 0 8 1 0) [(0x3000004, 0x00100001#32)]) 0 rdUp = true ∧ rdUp.pkt.isReq = true ∧ rdUp.mc = none ∧
    rdUp.locked = none ∧ rdUp.issuer = .dmaTag 0 2 := by decide +kernel

theorem wit_FramesCrossTheSwitchCore_passes : Passes sIngress 0 wrDown ∧ Passes sWaiting 0 wrDown ∧ Passes sIngress 0 hostIn := by
  unfold Passes; decide +kernel

theorem wit_FramesCrossTheSwitchCore_none : (choose up 0 0).1 = none ∧
    (choose (sQueue wrUp .shared 0 1 0 5) 0 0).1 = some (1, 0, false) ∧ inTransit (sQueue wrUp .shared 0 1 0 5) 0 0 1 0 = false ∧
    (∀ c, c < 4 → inputsOf up 0 0 c = []) ∧ up.swc.urgent = [] ∧ Tbl.get [] up.swc.mgmt 0 = [] ∧
    (∀ c, c < 4 → inputsOf sNoCredit 0 4 c = []) ∧ outQueued sNoCredit 0 4 = true := by decide +kernel

theorem wit_FramesCrossTheSwitchCore_out : TurnOf (sQueue wrUp .shared 0 1 0 5) 0 0 1 0 1 none (stored wrUp .shared 1) ∧
    TurnOf sTwoCells 0 0 1 0 1 none { stored wrUp .shared 1 with cells := 2 } ∧ faultClass sTwoCells 0 3 1 < 2 := by
  refine ⟨⟨by decide, by decide, ⟨[], by decide +kernel⟩, by decide +kernel, by decide +kernel, by decide, by decide +kernel, by decide,
    by decide +kernel, by decide⟩, ⟨by decide, by decide, ⟨[], by decide +kernel⟩, by decide +kernel, by decide +kernel, by decide,
    by decide +kernel, by decide, by decide +kernel, by decide⟩, by decide⟩

theorem wit_FramesCrossTheSwitchCore_tile : TurnOf (sTileOut .shared) 0 12 8 0 1 none (stored far .shared 8) ∧
    TurnOf (sTileOut .transit) 0 12 8 0 1 none (stored far .transit 8) := by
  constructor <;>
    exact ⟨by decide, by decide, ⟨[], by decide +kernel⟩, by decide +kernel, by decide +kernel, by decide, by decide +kernel, by decide,
      by decide +kernel, by decide⟩

theorem wit_FramesCrossTheSwitchCore_abort : (∀ bad started, (linkSt (sLeaving bad started) 0 0).txq = [leaving bad started]) ∧
    (∀ m, m < 11 → m ≠ 0 → (linkSt (sLeaving true true) 0 m).txq = []) ∧ (leaving false true).f.copy = none ∧
    faultClass (sLeaving false true) 0 3 1 < 2 ∧ (∀ n, n < 11 → (linkSt sTaking 0 n).txq = []) ∧
    Tbl.get [] sTaking.swc.into 0 = [{ wrDown with serial := 3, bad := true }] := by
  refine ⟨fun _ _ => rfl, ?_⟩
  decide

theorem wit_MailboxesReadTheirObjects : gf up 0 0x3000400 30 1 = 0 ∧ gf (sMb .running) 0 0x3000400 30 1 = 1 ∧
    mbIndex up 0 0x3000400 = 0 ∧ 47 < mbIndex (sBox 0x3000400 48 []) 0 0x3000400 ∧ mbIndex (sBox 0x6000100 3 []) 0 0x6000100 / 512 = 0 ∧
    mbIndex (sBox 0x9000000 1 []) 0 0x9000000 = 1 ∧ gf up 0 0x9000000 30 1 = 0 ∧ mbIndex up 0 0x9000000 = 0 := by decide

theorem wit_MailboxesReadTheirObjects_heard : Heard up (.swcCntRead 0) ∧ Heard (sMb .running) (.swcCntRead 0) ∧
    Heard (sBox 0x6000100 3 []) (.instanceRead 0 0) ∧ Heard (sBox 0x9000000 1 []) .timestampRead ∧ Heard up .timestampRead := by
  refine ⟨⟨_, _, rfl, ?_⟩, ⟨_, _, rfl, ?_⟩, ⟨_, _, rfl, ?_⟩, ⟨_, _, rfl, ?_⟩, ⟨_, _, rfl, ?_⟩⟩ <;> unfold Reaches <;> decide

theorem wit_MailboxesRefuseOrCommit : gf up 0 0x3000400 30 1 = 0 ∧ mbIndex (sBox 0x6000100 3 []) 0 0x6000100 / 512 = 0 ∧
    mbIndex (sBox 0x6000100 515 []) 0 0x6000100 / 512 ≠ 0 ∧
    winBad (sBox 0x4000100 3 winNew) 0 3 (maskWin ((List.range 8).map (mbData (sBox 0x4000100 3 winNew) 0 0x4000100))) = false ∧
    winBad (sBox 0x4000100 5 winNew) 0 5 (maskWin ((List.range 8).map (mbData (sBox 0x4000100 5 winNew) 0 0x4000100))) = true ∧
    entBad (sBox 0x4000200 3 entNew) 0 3 (maskEnt ((List.range 4).map (mbData (sBox 0x4000200 3 entNew) 0 0x4000200))) = false ∧
    entBad (sBox 0x4000200 9 entNew) 0 9 (maskEnt ((List.range 4).map (mbData (sBox 0x4000200 9 entNew) 0 0x4000200))) = true ∧
    (alarmSlot sAlarm 0 7).count = (mbData sAlarm 0 0xD000300 0).toNat ∧ (alarmSlot up 0 7).count ≠ (1#32).toNat ∧
    up.cal.following = false ∧ (sCal { following := true }).cal.following = true := by decide +kernel

theorem wit_MailboxesRefuseOrCommit_fill : let s := rg (sBox 0x4000200 3 entNew) [(0x4000030, 4#32)]; gf s 0 (0x4000030 + 4 * 0) 0 22 = 4 ∧
    (∀ j, j < 4 → entBad s 0 (3 + j) (fillEntry (maskEnt ((List.range 4).map (mbData s 0 0x4000200))) j) = false) ∧
    entBad s 0 (3 + 5) (fillEntry (maskEnt ((List.range 4).map (mbData s 0 0x4000200))) 5) = true := by decide +kernel

theorem wit_MailboxesRefuseOrCommit_heard : Heard (sBox 0x4000100 3 winNew) (.wttWindowWrite 0) ∧
    Heard (rg (sBox 0x4000200 3 entNew) [(0x4000030, 4#32)]) (.fill 0 0) ∧ Heard sAlarm (.alarmAck 0) ∧ Heard up .slew ∧
    Heard (sBox 0x6000100 515 []) (.instanceWrite 0 0) := by
  refine ⟨⟨_, _, rfl, ?_⟩, ⟨_, _, rfl, ?_⟩, ⟨_, _, rfl, ?_⟩, ⟨_, _, rfl, ?_⟩, ⟨_, _, rfl, ?_⟩⟩ <;> unfold Reaches <;> decide

theorem wit_HostRequestsFollowTheirTable : linkPresent up 0 = true ∧ hostUp up 0 = true ∧ hostUp (sLink 0) 0 = false ∧
    barHit up 0 0x20000010 = some (0, 2) ∧ barHit up 0 0x90000000 = none ∧ barHit up 0 0x10004000 = some (0, 0) ∧
    (fnRefOf (pfsOf up 0) 0).any (fun y => y.pf.manager) = false ∧ boundInst up 0 0 = some 3 ∧ live up 3 = true ∧
    (instOf up 3).frozen = false ∧ (instOf up 3).halted = false ∧ (instOf up 3).resetting = false ∧ freeInb up 0 = some 0 ∧
    live (sIns { inst3 with halted := true }) 3 = true ∧ (span 1 15 0).1 = 0 ∧ accessBad 0x4000 4 = none ∧ accessBad 0x4003 2 ≠ none := by
  decide +kernel

/-- A write of one DW by host link 0, and the same as a Malformed TLP. -/
def hostWr (a : Nat) : Tlp :=
  { link := 0, rid := 0x123, tag := 9, kind := .write, addr := BitVec.ofNat 64 a, dws := 1, fbe := 15, lbe := 0, data := [1, 2, 3, 4],
    rlx := false, ns := false, bad := none }

/-- The manager's package: host link 4 up, its BAR0 at 0x1_0000_0000. -/
def sManager : State :=
  { up with
    regs := hostUpRegs ++ linkUpRegs ++ [(0x11000000, 0xC5455000#32)]
    host := { up.host with upTo := [(0, ()), (4, ())], cfg := [(4 * 65536 * 1024 + 1, 6#32), (4 * 65536 * 1024 + 5, 1#32)] } }

theorem wit_HostRequestsFollowTheirTable_manager : linkPresent sManager 4 = true ∧ hostUp sManager 4 = true ∧
    barHit sManager 4 0x100000000 = some (0, 0) ∧ (fnRefOf (pfsOf sManager 4) 0).any (fun y => y.pf.manager) = true ∧
    recoveryShape sManager = false ∧ (0x100000000 - barBase sManager 4 0 0) / 0x10000000 < sManager.part.tiles ∧
    barHit sManager 4 0x120000000 = some (0, 0) ∧ sManager.part.tiles ≤ (0x120000000 - barBase sManager 4 0 0) / 0x10000000 := by
  decide +kernel

theorem wit_HostRequestsFollowTheirTable_row : creditHeld up (hostWr 0x20000010) = false ∧ rowOneBit (hostWr 0x20000010) = none ∧
    (rowOneBit { hostWr 0x20000010 with bad := some .malformed }).isSome = true := by decide +kernel

theorem wit_HostRequestsFollowTheirTable_port :
    TurnOf (sQueue (mgmtFrame .read .page 0 0x4008) .shared 17 0 1 5) 0 17 0 1 1 none (stored (mgmtFrame .read .page 0 0x4008) .shared 0) ∧
    TurnOf (sQueue (mgmtFrame .write .control 0 0x3000010) .shared 17 0 0 5) 0 17 0 0 1 none
      (stored (mgmtFrame .write .control 0 0x3000010) .shared 0) ∧
    TileOpen up 0 ∧ regThere up 0 (0x3000010 % 0x10000000) = true ∧ blockDomain (0x3000010 % 0x10000000 / 0x1000000) ≠ 21 := by
  refine ⟨⟨by decide, by decide, ⟨[], by decide +kernel⟩, by decide +kernel, by decide +kernel, by decide, by decide +kernel, by decide,
    by decide +kernel, by decide⟩, ⟨by decide, by decide, ⟨[], by decide +kernel⟩, by decide +kernel, by decide +kernel, by decide,
    by decide +kernel, by decide, by decide +kernel, by decide⟩, ?_, by decide, by decide⟩
  unfold TileOpen; decide

theorem wit_RequestsResolveAtTheHomeTile : Tbl.get [] up.host.resolve 0 = [] ∧ (tileSt sFenced 0).fenced = true ∧
    (let s := sRes (req0 .write none 0x10 2) none; (tileSt s 0).fenced = false ∧ Tbl.get [] s.host.resolve 0 = [(1, none)] ∧
      storedOf s 0 1 = some (stored (hostFrame (req0 .write none 0x10 2)) .shared 0) ∧ acctFree s 0 .shared + 1 < 2 ^ 18 ∧
      1 ≤ acctFree s 0 .shared ∧ outUp s 0 4 = true) ∧
    entryHolds (sRes (req0 .read (some (0, 2)) 0x10 1) none) (req0 .read (some (0, 2)) 0x10 1) = false ∧
    entryHolds (sRes (req0 .read (some (0, 1)) 0x10 1) none) (req0 .read (some (0, 1)) 0x10 1) = true ∧
    portsClosed up 0 = false ∧ mode up 0 = 3 ∧ up.wtt.streams = [] ∧ mcBefore (sRes (req0 .read (some (0, 1)) 0x10 1) none) 3 0 = [] ∧
    enables 2 15 15 = List.replicate 8 true ∧ (req0 .read (some (0, 1)) 0x10 1).zeroLen = false ∧
    Tbl.get none (sRes (req0 .read (some (0, 1)) 0x10 1) none).host.inb (0 * 1024 + 1) = some inbRd := by decide +kernel

theorem wit_RequestsResolveAtTheHomeTile_hit :
    (∃ h, resolve (sRes (req0 .write none 0x10 2) none) 3 2 0x10 .write ⟨0, false, false⟩ = .ok h ∧ h.group = none) ∧
    (∃ h, resolve (sRes (req0 .read (some (0, 1)) 0x10010 1) none) 3 2 0x10010 .read ⟨0, false, false⟩ = .ok h) ∧
    resolve (sRes (req0 .write none 0x18010 2) none) 3 2 0x18010 .write ⟨3, false, false⟩ = .error (1, none) ∧
    (hostFrame (req0 .write none 0x18010 2)).issuer = .nobody ∧ (hostFrame (req0 .read (some (0, 1)) 0x18010 1)).issuer = .inbound 0 1 :=
  ⟨⟨_, rfl, rfl⟩, ⟨_, rfl⟩, rfl, rfl, rfl⟩

/-- An Unlock that has come to the home tile, its function holding the lock of slot 0. -/
def sUnlock : State :=
  { sRes (req0 .write none 0x10 1) none with
    swc := { frames := [(frKey 0 1, stored { hostFrame (req0 .write none 0x10 1) with cargo := .unlock 0 0 } .shared 0)], nextId := 2 }
    lode := { locks := [(0, { holder := some (3, fnKey 0 0) })] } }

theorem wit_RequestsResolveAtTheHomeTile_unlock : sUnlock.lode.locks = [(0 * 8 + 0, { holder := some (3, fnKey 0 0) })] ∧
    linkAlive sUnlock 0 0 = true ∧ 1 ≤ acctFree sUnlock 0 .shared ∧
    (storedOf sUnlock 0 1).map (fun x => x.f.cargo) = some (.unlock 0 0) := by decide +kernel

theorem wit_RequestsResolveAtTheHomeTile_streams : streamOf up 0 0 = none ∧ streamOf (sStream none) 0 0 = some (aStream none) ∧
    (∀ p ∈ (aStream none).parts, p.data = none) ∧ streamOf (sStream (some [1])) 0 0 = some (aStream (some [1])) ∧
    (∃ p ∈ (aStream (some [1])).parts, p.data.isSome = true ∧ p.len ≠ 0) := by decide

theorem wit_FenceAndRestampRunToTheirEnd : gf up 0 0x4000000 31 1 = 0 ∧ gf (sWtt 1 7 []) 0 0x4000000 31 1 = 1 ∧
    (515#12).toNat / 512 ≠ 0 ∧ (instOf up (4#12).toNat).state = .free ∧ (instOf up (3#12).toNat).state ≠ .free ∧ wttRun up 0 = none ∧
    (tileSt (sWtt 1 7 [5]) 0).fenced = false ∧ (tileSt sFenced 0).fenced = true ∧
    (wttRun (sWtt 1 7 [5]) 0).map WttRun.op = some 1 ∧ (∃ p ∈ (sWtt 1 7 [5]).brg.posted, p.serial ∈ [5]) ∧
    (∀ p ∈ (sWtt 1 7 []).brg.posted, p.serial ∉ ([] : List Nat)) ∧ (sWtt 1 7 []).wtt.ahead = [] ∧
    (wttRun (sWtt 2 7 []) 0).map WttRun.gen = some (instOf up 3).gen ∧ (wttRun (sWtt 2 6 []) 0).map WttRun.gen = some 6 := by decide

theorem wit_FenceAndRestampRunToTheirEnd_heard : Heard up (.fence 0 515) ∧ Heard up (.restamp 0 3) ∧ Heard (sWtt 1 7 []) (.fence 0 3) := by
  refine ⟨⟨_, _, rfl, ?_⟩, ⟨_, _, rfl, ?_⟩, ⟨_, _, rfl, ?_⟩⟩ <;> unfold Reaches <;> decide

theorem wit_HoldsReleaseInOrder : up.brg.holds.find? (fun h => h.id == 2) = none ∧
    (sHold (.frame 0 1 wrUp) []).brg.holds.find? (fun h => h.id == 2) = some { id := 2, waits := [], item := .frame 0 1 wrUp } ∧
    (sHold (.vector 3 0) []).brg.holds.find? (fun h => h.id == 2) = some { id := 2, waits := [], item := .vector 3 0 } ∧
    (∀ p ∈ (sHold (.frame 0 1 wrUp) []).brg.posted, p.serial ∉ ([] : List Nat)) ∧
    (∃ p ∈ (sHold (.frame 0 1 wrUp) [5]).brg.posted, p.serial ∈ [5] ∧ p.sent = false) ∧
    (∀ g ∈ (sHold (.frame 0 1 wrUp) []).brg.holds, g.id < 2 → sameHold g.item (.frame 0 1 wrUp) = false) ∧
    (evRx 0).pkt.opx = 0 ∧ srcLevel (rg (sHold (.event 0 0 (evRx 0).pkt) []) [(0x7020000 + 4 * 20485, 0xC0000000#32)]) 0
      (20480 + 0 * 256 + (evRx 0).pkt.addr % 256) = true := by decide

/-- A zero-length read held at the output of slot 0. -/
def zeroFrame : Frame :=
  { rdUp with dstPort := 1, srcPort := 0, pkt := { rdUp.pkt with addr := 0x5000 }, issuer := .inbound 0 1, cargo := .zeroRead }

def sZero : State := { sQueue zeroFrame .shared 4 0 1 0 with host := { up.host with inb := [(1, some inbRd)] } }

theorem wit_HoldsReleaseInOrder_zero : (tileSt sFenced 0).fenced = true ∧ (tileSt sZero 0).fenced = false ∧
    headOf sZero 0 (4 + 0) 0 1 = some (1, none, stored zeroFrame .shared 0) ∧ zeroFrame.cargo = .zeroRead ∧
    orderAllows sZero 0 (4 + 0) 0 1 zeroFrame = true ∧ gf sZero 0 (ltp 0 0xC) 31 1 = 0 ∧ sZero.brg.posted = [] ∧
    (∀ j, j < 12 → j ≠ 0 → headOf sZero 0 (4 + 0) j 1 = none) ∧ zeroFrame.issuer = .inbound 0 1 ∧
    Tbl.get none sZero.host.inb (0 * 1024 + 1) = some inbRd ∧ (∀ i, i < 12 → headOf up 0 (4 + 0) i 1 = none) := by decide +kernel

theorem wit_QueuesTakeTheirDriversWrites_bells : (instOf up 3).qCount ≤ 5 ∧ 1 < (instOf up 3).qCount ∧ (instOf up 3).qBase + 1 < 16384 ∧
    doorbellShut (sQ 0 0 0 0 {}) 3 0 1 = some 1 ∧ doorbellShut (sQ 0 1 0 0 {}) 3 0 1 = none ∧ qKind (sQ 0 1 0 0 {}) 0 1 = 0 ∧
    fld (3#32) 0 16 < qSize (sQ 0 1 0 0 {}) 0 1 ∧ qSize (sQ 0 1 0 0 {}) 0 1 ≤ fld (0xFFFF#32) 0 16 ∧ qKind (sQ 1 1 0 0 {}) 0 1 = 1 ∧
    2 ≤ qKind (sQ 2 1 0 0 {}) 0 1 ∧ doorbellShut (sQ 2 1 0 0 {}) 3 0 1 = none ∧ 128 ≤ leAt inlineOne 3 1 ∧ leAt inlineOne 35 1 < 128 ∧
    qSize (sQ 2 1 0 15 {}) 0 1 - 1 < (qTail (sQ 2 1 0 15 {}) 0 1 + qSize (sQ 2 1 0 15 {}) 0 1 - qHead (sQ 2 1 0 15 {}) 0 1) % qSize (sQ 2 1 0 15 {}) 0 1 + 1 ∧
    qTail (sQ 2 1 0 14 {}) 0 1 < 65535 := by decide

theorem wit_QueuesTakeTheirDriversWrites_cmds : qf (rgQ0 0x00020000) 0 1 0 17 1 = 1 ∧ qf (sQ 0 0 0 0 {}) 0 1 0 17 1 = 0 ∧
    limited { sQ 0 0 0 0 {} with ins := (sIns { inst3 with frozen := true }).ins } 0 1 = true ∧ limited (sQ 0 0 0 0 {}) 0 1 = false ∧
    qState (sQ 0 1 0 0 {}) 0 1 ≠ 0 ∧ qState (sQ 0 0 0 0 {}) 0 1 = 0 ∧ badConfig (sQ 0 0 0 0 {}) 0 1 = false ∧
    badConfig { sQ 0 0 0 0 {} with dma := { (sQ 0 0 0 0 {}).dma with qctx := [(20, 0x60010404#32)] } } 0 1 = true ∧
    qKind (sQ 2 0 0 0 {}) 0 1 = 2 ∧ badConfig (sQ 2 0 0 0 {}) 0 1 = false ∧
    16384 < gf (rg (sQ 2 0 0 0 {}) [(0x5000004, 0x4000#32)]) 0 0x5000004 0 15 + qSize (sQ 2 0 0 0 {}) 0 1 ∧
    gf (sQ 2 0 0 0 {}) 0 0x5000004 0 15 + qSize (sQ 2 0 0 0 {}) 0 1 ≤ 16384 ∧ qState (sQ 0 2 1 1 {}) 0 1 = 2 ∧
    (eng (sQ 0 2 1 1 {}) 0 1).halted = none ∧ qf sSkip 0 1 11 28 4 = 3 ∧ qState sSkip 0 1 = 2 ∧ (eng sSkip 0 1).halted = none ∧
    qState (sQ 0 3 0 0 {}) 0 1 = 3 ∧ queueOutstanding (sQ 0 3 0 0 {}) 0 1 = false ∧ cplSize (sQ 0 1 0 0 {}) 0 1 ≤ fld (0xFFFF#32) 0 16 ∧
    fld (mergeBytes (qw (sQ 0 1 0 0 {}) 0 1 8) 15 1) 0 16 < cplSize (sQ 0 1 0 0 {}) 0 1 := by decide

theorem wit_QueuesTakeTheirDriversWrites_pages : instLink (sIns unbound3) 3 = none ∧ instLink up 3 = some 0 ∧
    live (inMode 2 up) 3 = false ∧ instLink (inMode 2 up) 3 = some 0 ∧ PageReaches (sQ 0 1 0 0 {}) 3 17 ∧
    qOwner (sQ 0 1 0 0 {}) 0 1 = some 3 ∧ qOwner up 0 9 = none ∧ (eng (sHaltedRun 0 1) 0 1).halted = some (aRun dUp 64 0 [] [], 2) ∧
    qState (sHaltedRun 0 1) 0 1 = 2 ∧ qf (sHaltedRun 0 1) 0 1 11 28 4 ≠ 2 ∧ qf (sHaltedRun 2 2) 0 1 11 28 4 = 2 ∧
    qKind (sHaltedRun 2 2) 0 1 = 2 ∧ (tileSt sFenced 0).fenced = true ∧ (tileSt (sQ 0 3 0 0 {}) 0).fenced = false ∧
    (eng (sQ 1 1 0 0 { pollWait := true }) 0 1).pollWait = true ∧ mayStart (sQ 1 0 0 0 { pollWait := true }) 0 1 = none := by
  refine ⟨by decide, by decide, by decide, by decide, ⟨by decide, ⟨0, by decide⟩, by decide, by decide⟩, ?_⟩
  decide

theorem wit_ManagersSetQueueContexts : gf (sBox 0x5000100 1 []) 0 0x5000100 30 1 = 0 ∧ mbIndex (sBox 0x5000100 1 []) 0 0x5000100 < 16384 ∧
    16384 ≤ mbIndex (sBox 0x5000100 16384 []) 0 0x5000100 ∧ qState (sBox 0x5000100 1 []) 0 1 = 0 ∧
    localExists (sBox 0x5000100 1 []) (fld (mbData (sBox 0x5000100 1 []) 0 0x5000100 15) 27 5)
      (fld (mbData (sBox 0x5000100 1 []) 0 0x5000100 15) 26 1) = true ∧
    fld (mbData (sBox 0x5000100 1 [0, 1]) 0 0x5000100 1) 0 4 = 1 ∧ limited (sBox 0x5000100 1 [0, 1]) 0 1 = false ∧
    (∃ s', exec (.queueEnable 0 1) (sBox 0x5000100 1 [0, 1]) = .next s') := by
  refine ⟨by decide, by decide, by decide, by decide, by decide, by decide, by decide, ⟨_, rfl⟩⟩

theorem wit_ManagersSetQueueContexts_heard : Heard (sBox 0x5000100 1 [0, 1]) (.qctxCommand 0) ∧ Heard (sBox 0x5000100 1 []) (.setShare 0) ∧
    Heard (sBox 0x5000100 16384 []) (.dmaQctxWrite 0) ∧ qOwner (sBox 0x5000100 1 [0, 1]) 0 1 = some 3 ∧
    PageReaches (sBox 0x5000100 1 [0, 1]) 3 17 := by
  refine ⟨⟨_, _, rfl, ?_⟩, ⟨_, _, rfl, ?_⟩, ⟨_, _, rfl, ?_⟩, by decide, ⟨by decide, ⟨0, by decide⟩, by decide, by decide⟩⟩ <;>
    unfold Reaches <;> decide

theorem wit_DescriptorsAreFetchedStartedAndCompleted : mayStart (sQ 0 0 0 0 {}) 0 1 = none ∧ mayStart sFetch 0 1 = some 3 ∧
    qKind sFetch 0 1 = 0 ∧ (eng sFetch 0 1).fetched = [] ∧ (eng sFetch 0 1).runs = [] ∧ (eng sFetch 0 1).pollWait = false ∧
    (eng sFetch 0 1).failed = none ∧ (eng sFetch 0 1).stop = none ∧ (eng sFetch 0 1).settling = false ∧ qTail sFetch 0 1 = qHead sFetch 0 1 + 1 ∧
    qTail sFetch 0 1 < qSize sFetch 0 1 ∧ (instLink sFetch 3).isSome = true ∧ nextDesc sFetch 0 1 = none ∧
    qKind (sQ 2 1 0 1 {}) 0 1 = 2 ∧ mayStart (sStart dUp) 0 1 = some 3 ∧ (eng (sStart dUp) 0 1).fetched = dUp :: [] ∧
    fld (shareNow (sStart dUp) 0 1) 0 16 ≠ 0 ∧ instShareNow (sStart dUp) 3 ≠ 0 ∧ apertureFails (sStart dUp) 0 1 dUp = none ∧
    dUp.wantsEntry = true ∧ cplFree (sStart dUp) 0 1 ≠ 0 ∧ apertureFails (sStart dFar) 0 1 dFar = some (false, 0xFFFFFFFFFFFF) ∧
    cplFree sNoEntry 0 1 = 0 ∧ mayStart sNoEntry 0 1 = some 3 := by decide +kernel

theorem wit_DescriptorsAreFetchedStartedAndCompleted_end : qOwner sEnded 0 1 = some 3 ∧ qState sEnded 0 1 = 1 ∧
    (∃ r, (eng sEnded 0 1).runs = [r] ∧ r.done = true ∧ r.d.wantsEntry = true ∧ r.poisoned = false ∧ bit r.d.ctrl 29 = false) ∧
    qf sEnded 0 1 4 29 1 = 1 ∧ qState (sQ 0 0 0 0 {}) 0 1 ≠ 1 ∧
    (∃ r ∈ (eng sSettle 0 1).runs, r.ended = false) ∧ (eng sSettle 0 1).settling = true ∧ qState sSettle 0 1 = 1 ∧
    (eng sFailed 0 1).failed = some ⟨2, true, true, 0, 0, 0x5000⟩ ∧ (eng sFailed 0 1).runs = [] ∧ qState sFailed 0 1 = 1 := by
  refine ⟨by decide, by decide, ⟨_, rfl, by decide⟩, by decide⟩

theorem wit_DescriptorsAreFetchedStartedAndCompleted_fetch : (tileSt sFenced 0).fenced = true ∧ (tileSt sFetch 0).fenced = false ∧
    mayFetch sFetch 0 1 = true ∧ fetchCount sFetch 0 1 = 1 ∧ fetchCount (sQ 0 1 0 0 {}) 0 1 = 0 ∧ slotsFor sFetch 0 1 ≠ 0 ∧
    slotsFor sStageFull 0 1 = 0 ∧ mayFetch sStageFull 0 1 = true ∧ fetchCount sStageFull 0 1 ≠ 0 ∧ engineWaits sFetch 0 8 1 = false ∧ engineWaits (waitingAt 8 1 sFetch) 0 8 1 = true ∧
    gf sFetch 0 0x5000208 0 13 + (fetchReads sFetch 0 1 3).length ≤ 4096 ∧ (fetchReads sFetch 0 1 3).length = [7].length ∧
    ([7] : List Nat).Nodup ∧ (∀ x ∈ [7], x < 4096 ∧ Tbl.get none sFetch.dma.tags (0 * 4096 + x) = none) := by decide +kernel

theorem wit_DescriptorsAreFetchedStartedAndCompleted_data : Tbl.get [] (sFetching 1 0).dma.dataIn 0 = [⟨2, 0, List.replicate 32 0x80, false⟩] ∧
    Tbl.get none (sFetching 1 0).dma.tags (0 * 4096 + 2) = some { queue := 1, slot := none, inst := 3, gen := 7 } ∧
    (instOf (sFetching 1 0) 3).gen = 7 ∧ (instOf (sFetching 1 0) 3).resetting = false ∧ (instOf (sFetching 1 0) 3).halted = false ∧
    qState (sFetching 1 0) 0 1 ≠ 3 ∧ qKind (sFetching 1 0) 0 1 ≤ 1 ∧
    (eng (sFetching 1 0) 0 1).fetch = [{ tag := 2, off := 0, len := 32 }] ∧ (eng (sFetching 1 0) 0 1).fetchN = 1 ∧
    b2n (bit (readDesc 0 (bytesAt (List.replicate 32 (0x80#8)) 0 32)).ctrl 31) = 1 ∧ qf (sFetching 1 0) 0 1 0 16 1 = 1 ∧
    b2n (bit (readDesc 0 (bytesAt (List.replicate 32 (0#8)) 0 32)).ctrl 31) ≠ 1 ∧ 1 < qSize (sFetching 1 0) 0 1 ∧
    Tbl.get [] (sFetching 0 3).dma.dataIn 0 = [⟨2, 3, [], false⟩] := by decide +kernel

theorem wit_DescriptorsAreFetchedStartedAndCompleted_write : runsOn sEnded 3 = true ∧ (instOf sEnded 3).halted = false ∧
    (eng sEnded 0 1).settling = false ∧ engineWaits sEnded 0 9 0 = false ∧ engineWaits (waitingAt 9 0 sEnded) 0 9 0 = true ∧
    (eng (sQ 0 1 1 1 { skipped := some (⟨0, 5, 1, 2, false⟩, true) }) 0 1).skipped = some (⟨0, 5, 1, 2, false⟩, true) ∧
    (eng (sQ 0 1 1 1 { skipped := some (⟨0, 5, 1, 2, false⟩, true) }) 0 1).runs = [] ∧ (instLink sEnded 3).isSome = true ∧
    (eng sEnded 0 1).skipped = none := by decide +kernel

theorem wit_DescriptorsAreFetchedStartedAndCompleted_halt : qState sFound 0 1 = 1 ∧ (eng sFound 0 1).settling = true ∧
    (∀ r ∈ (eng sFound 0 1).runs, r.ended = true) ∧ (eng sFound 0 1).fetch = [] ∧ (eng sFound 0 1).failed = none ∧
    (∃ r k h, (eng sFound 0 1).runs.find? Run.failed = some r ∧ failing r = some (k, h)) ∧
    (eng sEntryRefused 0 1).failed = some ⟨4, true, false, 2, 0, 0x8000⟩ ∧ (eng sEntryRefused 0 1).settling = true ∧
    (eng sEntryRefused 0 1).runs = [] ∧ qState sEntryRefused 0 1 = 1 ∧ qOwner sEntryRefused 0 1 = some 3 ∧
    (instOf sEntryRefused 3).frozen = false ∧ qState sStopping 0 1 = 1 ∧ (eng sStopping 0 1).settling = false ∧
    (∃ r, (eng sStopping 0 1).stop = some (r.born, 0, ⟨1, false, true, 3, 0, 0x1000⟩) ∧ (eng sStopping 0 1).runs = r :: [] ∧
      0 * r.d.dw ≤ r.wroteTo ∧ r.writes = []) ∧ (eng sFailed 0 1).settling = false ∧ (eng sFailed 0 1).stop = none ∧
    (eng sFailed 0 1).fetch = [] := by
  refine ⟨by decide, by decide, by decide, by decide, by decide, ⟨_, _, _, rfl, rfl⟩, by decide, by decide, by decide, by decide, by decide,
    by decide, by decide, by decide, ⟨_, rfl, rfl, by decide, by decide⟩, ?_⟩
  decide

theorem wit_EnginesReadAndWrite : (∀ c, c < 4 → eligibleQ up 0 c = []) ∧ eligibleQ sReads 0 0 = [⟨1, 3, 0, aRun dUp 0 0 [] []⟩] ∧
    (∀ d, d < 4 → d ≠ 0 → eligibleQ sReads 0 d = []) ∧ 0 < Tbl.get 0 sReads.dma.instDef (idKey 0 0 3) ∧
    0 < Tbl.get 0 sReads.dma.queueDef (qdKey 0 0 1) ∧ bit dUp.ctrl 27 = true ∧ Tbl.get [] sReads.dma.urgent 0 = [] ∧
    (∃ x ∈ eligibleQ sReads 0 (0#2).toNat, x.q = 1) ∧ Tbl.get [] up.dma.dataIn 0 = [] ∧
    Tbl.get [] (sData 0 false).dma.dataIn 0 = [⟨2, 0, List.replicate 64 7, false⟩] ∧ (Tbl.get none (sData 0 false).dma.tags 2).isSome = true ∧
    Tbl.get none (sEng (fun d => { d with dataIn := [(0, [⟨2, 0, [1], false⟩])] }) 0 1 1 1 {}).dma.tags 2 = none ∧
    qState (sData 4 false) 0 1 ≠ 3 ∧ Tbl.get [] sWrite.dma.ready 0 = [1] ∧ mayIssue sWrite 0 1 = some 3 ∧
    (nextWrite sWrite 0 1 3).map (fun x => (x.1, x.2.2)) = some (0, 0, 64) ∧ bit dDown.ctrl 26 = true ∧ Tbl.get [] up.dma.ready 0 = [] := by
  decide +kernel

theorem wit_EnginesReadAndWrite_settle : Tbl.get [] up.dma.settles 0 = [] ∧ Tbl.get [] (sSettles 0).dma.settles 0 = [(3, 0)] ∧
    Tbl.get none (sSettles 0).dma.writes 3 = some ⟨1, false, 0x2000, 0, true⟩ ∧ Tbl.get none (sSettles 0).dma.writes 4 = none ∧
    qOwner (sSettles 0) 0 1 = some 3 ∧ qState (sSettles 0) 0 1 ≠ 3 ∧ Tbl.get [] up.dma.aborts 0 = [] ∧
    Tbl.get [] sAborts.dma.aborts 0 = [.dmaTag 0 2] := by decide

theorem wit_EnginesReadAndWrite_more : (tileSt sFenced 0).fenced = true ∧ (tileSt sReads 0).fenced = false ∧
    engineWaits sReads 0 8 1 = false ∧ engineWaits (waitingAt 8 1 sReads) 0 8 1 = true ∧ (freeTag sReads 0).isSome = true ∧
    (instLink sReads 3).isSome = true ∧ instLink { sReads with ins := (sIns unbound3).ins } 3 = none ∧
    (let s := { sReads with dma := { sReads.dma with urgent := [(0, [4])] } }
     Tbl.get [] s.dma.urgent 0 = [4] ∧ (eligibleQ s 0 (4 % 4)).find? (fun x => x.q == 4 / 4) = some ⟨1, 3, 0, aRun dUp 0 0 [] []⟩) ∧
    (∃ x ∈ wantsRead sReads 0 0, x.q = 1) ∧ wantsRead up 0 0 = [] ∧
    (Tbl.get none (sData 0 true).dma.tags (0 * 4096 + 2)).map DTag.quar = some true ∧
    (Tbl.get none (sData 0 false).dma.tags (0 * 4096 + 2)).map DTag.quar = some false ∧
    Tbl.get [] (sData 4 false).dma.dataIn 0 = [⟨2, 4, [], false⟩] ∧ qState (sData 0 false) 0 1 ≠ 3 ∧
    (instOf (sData 0 false) 3).gen = 7 ∧ (eng (sData 0 false) 0 1).fetch = [] ∧ (eng (sData 0 false) 0 1).runs = [aRun dUp 64 0 [anRd none] []] ∧
    (anRd none).status = none ∧ engineWaits sWrite 0 9 0 = false ∧ engineWaits (waitingAt 9 0 sWrite) 0 9 0 = true := by
  refine ⟨by decide, by decide, by decide, by decide, by decide +kernel, by decide, by decide, by decide +kernel,
    ⟨⟨1, 3, 0, aRun dUp 0 0 [] []⟩, by decide +kernel, rfl⟩, ?_⟩
  decide +kernel

/-- A tag that a reset has quarantined. -/
def sResetTag : State := sEng (fun d => { d with tags := [(2, some { queue := 1, slot := none, inst := 3, gen := 7, quar := true, byReset := true })] }) 0 1 1 1 {}

theorem wit_EnginesReadAndWrite_timeouts :
    (Tbl.get none sResetTag.dma.tags (0 * 4096 + 2)).map (fun x => (x.quar, x.byReset)) = some (true, true) ∧
    (Tbl.get none (sData 0 true).dma.tags (0 * 4096 + 2)).map (fun x => (x.quar, x.byReset)) = some (true, false) ∧
    Tbl.get none (sEng (fun d => { d with writes := [(3, some ⟨1, true, 0x8000, 0, false⟩)] }) 0 1 1 1 {}).dma.writes (0 * 2 ^ 32 + 3) =
      some ⟨1, true, 0x8000, 0, false⟩ ∧
    Tbl.get [] (sEng (fun d => { d with aborts := [(0, [.dmaWr 0 3])] }) 0 1 1 1 {}).dma.aborts 0 = [.dmaWr 0 3] := by decide

theorem wit_InstanceCommandsAreCheckedInOrder : gf (sInsMb inst3 3 []) 0 0x6000100 30 1 = 0 ∧ mbIndex (sInsMb inst3 3 []) 0 0x6000100 / 512 = 0 ∧
    mbIndex (sInsMb inst3 515 []) 0 0x6000100 / 512 ≠ 0 ∧ (Tbl.get none sBusy.ins.busy 3).isSome = true ∧
    (Tbl.get none (sInsMb inst3 3 []).ins.busy 3).isSome = false ∧ insModeOk (inMode 5 (sInsMb inst3 3 [])) 0 false = false ∧
    insModeOk (sInsMb inst3 3 []) 0 false = true ∧ (instOf (sInsMb inst3 3 []) 3).state ≠ .free ∧
    createBad sCreateBad 0 0 3 = some 4 ∧ (instOf sCreateBad 3).state = .free ∧ bindBad (sInsMb unbound3 3 [0, 0, 9]) 0 0 3 = some 7 ∧
    (instOf (sInsMb unbound3 3 [0, 0, 9]) 3).state = .unbound := by decide +kernel

theorem wit_InstanceCommandsAreCheckedInOrder_heard : Heard (sInsMb inst3 3 []) (.freeze 0 0) ∧
    Heard (sInsMb inst3 515 []) (.create 0 0) ∧
    Heard (sBusy) (.setWeight 0 0) ∧
    Heard (sCreateBad) (.create 0 0) ∧
    Heard (sInsMb unbound3 3 [0, 0, 9]) (.bind 0 0) := by
  refine ⟨⟨_, _, rfl, ?_⟩, ⟨_, _, rfl, ?_⟩, ⟨_, _, rfl, ?_⟩, ⟨_, _, rfl, ?_⟩, ⟨_, _, rfl, ?_⟩⟩ <;> unfold Reaches <;> decide

theorem wit_InstanceCommandsAct : insModeOk sCreate 0 false = true ∧ (instOf sCreate 3).state = .free ∧ createBad sCreate 0 0 3 = none ∧
    Tbl.get none sCreate.ins.busy 3 = none ∧ (instOf sBind 3).state = .unbound ∧ bindBad sBind 0 0 3 = none ∧
    (instOf sBind 3).lastLink.any (fun l => l != fld (mbData sBind 0 0x6000100 2) 16 5) = false ∧
    (instOf (sInsMb inst3 3 []) 3).frozen = false ∧ (instOf (sInsMb frozen3 3 []) 3).frozen = true ∧
    fld (mbData (sInsMb inst3 3 [0, 5]) 0 0x6000100 1) 0 16 +
      (((othersOf (sInsMb inst3 3 [0, 5]) 3).filter (fun x => x.pool == 0)).map Inst.weight).sum ≤ (poolOf (sInsMb inst3 3 [0, 5]) 0 0).shareBudget ∧
    bit (logOf sLogMb 3).cfg 0 = true ∧ (instOf sLogMb 3).state = .bound ∧ insModeOk (sInsMb frozen3 3 []) 0 true = true ∧
    (instOf (sInsMb frozen3 3 []) 3).fn = some (0, 0) ∧ (instOf (sInsMb inst3 3 []) 3).resetting = false ∧ (tileSt up 0).fenced = false := by
  decide +kernel

theorem wit_InstanceCommandsAct_heard : Heard (sCreate) (.create 0 0) ∧
    Heard (sBind) (.create 0 0) ∧
    Heard (sInsMb frozen3 3 []) (.create 0 0) ∧
    Heard (sLogMb) (.create 0 0) := by
  refine ⟨⟨_, _, rfl, ?_⟩, ⟨_, _, rfl, ?_⟩, ⟨_, _, rfl, ?_⟩, ⟨_, _, rfl, ?_⟩⟩ <;> unfold Reaches <;> decide

theorem wit_InstanceEnginesRunToTheirEnd : Tbl.get none up.ins.freezes 3 = none ∧ Tbl.get none sFreezing.ins.freezes 3 = some 0x6000100 ∧
    (instOf sFreezing 3).resetting = false ∧ writesOnWay sFreezing 3 = false ∧ (instQueues sFreezing 3).any (queueRuns sFreezing 0) = false ∧
    readsOut sFreezing 3 = [] ∧ sFreezing.dma.tags = [] ∧ sFreezing.wtt.ahead = [] ∧ (instOf up 4).state = .free ∧ (instOf up 3).state ≠ .free ∧
    2 ≤ mode up 0 ∧ resetRun up 3 = none ∧ resetRun (sRun { step := 2, flr := false } resetting3) 3 = some { step := 2, flr := false } ∧
    tagsRecord (sRun { step := 2, flr := false } resetting3) 3 8 = false ∧ tagsRecord sStalled 3 8 = true ∧
    writesOnWay (sRun { step := 4, flr := false } resetting3) 3 = false ∧ (instOf (sIns frozen3) 3).frozen = true ∧
    bit (logOf up 3).cfg 0 = false ∧ bit (logOf up 3).state 31 = false ∧ bit (logOf (sLog { cfg := 1, state := 0x80000000 }) 3).state 31 = true ∧
    (logOf sDue 3).due = (4, true, 5) :: [] ∧ (∀ x ∈ sDue.brg.posted, x.serial ≠ 5) ∧ (logOf sDue 3).tail + 1 < 2 ^ 20 ∧
    instLink sDue 3 = some 0 ∧ (logOf up 3).due = [] := by decide

theorem wit_InstanceEnginesRunToTheirEnd_pages : (tileSt sFenced 0).fenced = true ∧ instLink (sIns unbound3) 3 = none ∧
    instLink (inMode 2 up) 3 = some 0 ∧ live (inMode 2 up) 3 = false ∧ PageReaches up 3 1 ∧ PageReaches (sIns frozen3) 3 1 ∧
    PageReaches (sLog { cfg := 1, state := 0x80000000 }) 3 1 ∧ (logOf (sLog { state := 0x80000000 }) 3).clearEnts = 0 ∧
    (logOf (sLog { state := 0x80000000 }) 3).clearWaits = [] := by
  refine ⟨by decide, by decide, by decide, by decide, ⟨by decide, ⟨0, by decide⟩, by decide, by decide⟩,
    ⟨by decide, ⟨0, by decide⟩, by decide, by decide⟩, ⟨by decide, ⟨0, by decide⟩, by decide, by decide⟩, by decide, by decide⟩

theorem wit_EventsPendRouteAndAreDelivered : mode (inMode 1 up) 0 ≤ 1 ∧ srcLevel up 0 22528 = false ∧
    srcLevel (rg up [(0x7020000 + 4 * 22528, 0xC0000000#32)]) 0 22528 = true ∧ srcLocked up 0 5 = false ∧
    srcLocked (sIns resetting3) 0 1 = true ∧ (tileSt (tile0 { fenced := true } up) 0).fenced = true ∧ svcOf up 0 9 = [] ∧
    svcOf sSvc 0 9 = [⟨0, 4, 20485, false⟩] ∧ tgtLocked up 0 9 = false ∧ prioMode up 0 = false ∧ tgtLocked (sIns resetting3) 0 1 = true ∧
    (tgtOwner up 0 (2#11).toNat).isSome = true ∧ tgtOwner up 0 (2#11).toNat = srcOwner up 0 1 ∧ tgtOwner up 0 (9#11).toNat = none := by decide

theorem wit_EventsPendRouteAndAreDelivered_select : select (evcRefresh (inMode 3 up) 0) 0 = none ∧
    (select (evcRefresh sEvt 0) 0).map (fun x => (x.1, x.2.1)) = some (20485, 9) := by decide +kernel

theorem wit_EventsPendRouteAndAreDelivered_reach : sScan.core.scanned = true ∧ up.core.scanned = false ∧ Reaches up 0 (0x7000000 + 4 * 640) ∧
    Reaches up 0 (evcSrc 20485) ∧ Reaches sSvc 0 (tgtReg 9 8) ∧ (tileSt sEvt 0).fenced = false ∧ 2 ≤ mode sEvt 0 ∧
    tgtKind sEvt 0 9 = 1 ∧ (tgtOwner up 0 (9#11).toNat).isSome = false := by unfold Reaches; decide +kernel

theorem wit_FaultsAreRecordedAndReactedTo : mode (inMode 1 up) 0 ≤ 1 ∧ faultDefault 1 7 = none ∧ faultDefault 2 1 = some (2, false, false) ∧
    1 ≤ mode up 0 ∧ actsAs up 0 2 1 none = 2 ∧ actsAs up 0 2 2 none = 0 ∧ actsAs up 0 0 3 none = 2 ∧ recordsOnly (inMode 1 up) 0 = true ∧
    recordsOnly up 0 = false ∧ (sFault [dlB]).flt.deadlines = [dlB] ∧ dlB.isB 0 1 3 = true ∧ (instOf (sFault [dlB]) 3).state ≠ .free ∧
    (sFault [dlC]).flt.deadlines = [dlC] ∧ dlC.tile = 0 ∧ dlC.bank = 2 ∧ dlC.inst = none ∧ mode (sFault [dlC]) 0 ≤ 5 ∧
    (Tbl.get {} (sFault []).flt.lost (0 * 16 + 1)).count ≠ 0 ∧ faultToken (sFault []) 0 = true ∧ (Tbl.get {} up.flt.lost 1).count = 0 ∧
    Tbl.get [] sHfDue.evc.hfDue 0 = [26625] ∧ Tbl.get [] up.evc.hfDue 0 = [] ∧ pendBit sHfDue 0 (26624 + 1) = true ∧
    bit (rreg sHfDue 0 (fltB 1 4)) 2 = true := by decide

theorem wit_FaultsAreRecordedAndReactedTo_more : Reaches up 0 (fltB 3 0) ∧ mode State.reset 0 = 0 ∧
    (∃ e m, faultDefault 3 1 = some (e, m, false)) ∧ (∃ e m, faultDefault 4 1 = some (e, m, false)) ∧ actsAs up 0 3 1 none = 0 ∧
    actsAs up 0 4 1 none = 2 ∧ up.flt.deadlines = [] ∧ (instOf (sFault [dlB]) 3).resetting = false ∧
    (tileSt (sFault [dlB]) (3 / 512)).fenced = false ∧ 2 ≤ mode (sFault [dlB]) (3 / 512) ∧ (sFault [dlC]).core.scanned = false ∧
    recordsOnly (sFault [dlC]) 0 = false ∧ (tileSt sHfDue 0).fenced = false ∧ (tileSt sFenced 0).fenced = true ∧ 26625 < 262144 := by
  refine ⟨by unfold Reaches; decide, by decide, ⟨_, _, rfl⟩, ⟨_, _, rfl⟩, ?_⟩
  decide

theorem wit_DumpsAreWrittenAndReleased : up.flt.dumpReq = none ∧ (sDump 0x11 { dumpReq := some aDump }).flt.dumpReq = some aDump ∧
    dumpSlot (sDump 0x11 { dumpReq := some aDump }) = none ∧ dumpSlot (sDump 0 { dumpReq := some aDump }) = some 1 ∧
    (sDump 0 { dumpReq := some aDump }).flt.dump = none ∧ (sDump 4 { dump := some ⟨aDump, 0, 3⟩ }).flt.dump = some ⟨aDump, 0, 3⟩ ∧
    up.part.tiles ≤ 8 ∧ slotState (sDump 0x11 {}) 0 = 1 ∧ slotState up 0 ≠ 1 := by decide

theorem wit_DumpsAreWrittenAndReleased_reach : Reaches (sDump 0x11 {}) 0 0x8001004 ∧ mode (inMode 1 up) 0 ≤ 1 ∧
    2 ≤ mode (sDump 0 { dumpReq := some aDump }) 0 := by unfold Reaches; decide

theorem wit_CalendarAndAgeingKeepTheirRecords : (sCal { still := true }).cal.still = true ∧ (sCal { dead := true }).cal.dead = true ∧
    up.cal.still = false ∧ up.cal.dead = false ∧ sDark.cal.still = false ∧ sDark.core.pwrgood = false ∧ (sCal { slew := 5 }).cal.slew ≠ 0 ∧
    worstSlack (sAge { now := [(48, 0x80000005)] }) = some 5 ∧ (5 : Int) < guardOf up - hystOf up ∧ vreq up < 8500 ∧
    worstSlack (sAge { now := [(48, 0x80000900)] }) = some 0x900 ∧ guardOf up - hystOf up ≤ 0x900 ∧
    (sAge { volt := some ⟨false, 1, 8000, false, false⟩ }).age.volt = some ⟨false, 1, 8000, false, false⟩ ∧ up.age.volt = none ∧
    up.cal.sec % 86400 ≠ gf up 0 0x9000090 0 17 ∧ planning (sAge aPlan) = true ∧ planning up = false ∧
    sPlanDay.cal.sec % 86400 = gf sPlanDay 0 0x9000090 0 17 ∧ gf sPlanDay 0 0x9000080 1 1 = 1 ∧
    (sAge aPlan).age.plan = some { tiles := [0], recs := [0] } ∧ (sAge aPlan).age.maintDue = [] := by decide

theorem wit_CalendarAndAgeingKeepTheirRecords_lanes : (let k := (0 * 11 + 0) * 128 + 3
      0 ∈ [0] ∧ mode (sAge aPlan) 0 = 3 ∧ linkState (sAge aPlan) 0 0 = 6 ∧ 3 < 8 ∧ k ∉ ([] : List Nat) ∧ 5 < gf (sAge aPlan) 0 0x900008C 0 8 + 8) ∧
    gf up 0 0x9000084 30 1 = 0 ∧ gf sMaint 0 0x9000084 30 1 = 1 ∧ Tbl.get [] up.age.lowPorts 0 = [] ∧
    (∃ minutes : BitVec 8, minutes ≠ 0) := by
  refine ⟨by decide, by decide, by decide, by decide, 1, by decide⟩

theorem wit_CalendarAndAgeingKeepTheirRecords_reach : Reaches up 0 0x9000080 ∧ Reaches (sAge aPlan) 0 0x9000080 ∧ Reaches up 0 0x9000094 ∧
    Reaches sMaint 0 0x9000094 ∧ (tileSt sFenced 0).fenced = true ∧ (tileSt sMaint 0).fenced = false ∧
    up.cal.slew = 0 ∧ sPlanDay.age.plan = none ∧ planning sPlanDay = false ∧ 2 ≤ mode sPlanDay 0 ∧
    planning { sPlanDay with age := aPlan } = true ∧ (sAge aPlan).age.volt = none ∧
    (let s := sAge { volt := some ⟨false, 1, 8000, false, false⟩, now := [(48, 0x80000005)] }
     worstSlack s = some 5 ∧ (5 : Int) < guardOf s ∧ vreq s < 8500 ∧ 8000 < 65536) := by unfold Reaches; decide

theorem wit_RingFramesAreSentAndTaken : ringRuns sDark = false ∧ ringRuns up = true ∧ galManager (sGal 0x8E004000 {}) = true ∧
    galBit (sGal 0x8E004000 {}) 29 = false ∧ galManager (sGal 0x0E004000 {}) = false ∧ ringOk [1, 2] = false ∧
    galBit (sGal 0x0E004000 {}) 26 = true ∧ galBit (sGal 0 {}) 26 = false ∧ galBit (sGal 0x1E004000 {}) 28 = true ∧
    galBit (sGal 0x0E004000 {}) 28 = false ∧ bit (rreg (sGal 0x0E004000 {}) 0 0xB00000C) 3 = true ∧ galId (sGal 0x0E004000 {}) = 2 ∧
    bit (rreg up 0 0xB00000C) 3 = false ∧ (sGal 0x0E004000 {}).gal.time = none ∧ (sGal 0x0E004000 { time := some 99 }).gal.time = some 99 ∧
    (sGal 0x0E004000 {}).cal.following = false ∧ galBit (sGal 0x0E004000 {}) 25 = true ∧ galBit (sGal 0x0C004000 {}) 25 = false := by decide

theorem wit_RingFramesAreSentAndTaken_frames :
    (∀ l ∈ [helloFrom 3, helloFrom 2, aResponse], ringOk l = true) ∧ (readFrame (helloFrom 3)).src ≠ galId (sGal 0x0E004000 {}) ∧
    (readFrame (helloFrom 2)).src = galId (sGal 0x0E004000 {}) ∧ helloFrom 2 ∉ (sGal 0x0E004000 {}).gal.sent ∧
    clashes (sGal 0x0E004000 {}) (readFrame (helloFrom 3)) = false ∧ (readFrame (helloFrom 3)).bcast = true ∧
    (readFrame (helloFrom 3)).kind = 1 ∧ isDuplicate (sGal 0x0E004000 {}) (readFrame (helloFrom 3)) = false ∧
    isDuplicate (sGal 0x0E004000 { taken := [(3, [2])] }) (readFrame (helloFrom 3)) = true ∧
    (readFrame aResponse).bcast = false ∧ (readFrame aResponse).dest ≠ galId (sGal 0x0E004000 {}) ∧
    clashes (sGal 0x0E004000 {}) (readFrame aResponse) = false := by decide +kernel

theorem wit_RingFramesAreSentAndTaken_links : ringRuns (sGal 0x0E004000 {}) = true ∧ ringRuns (sGal 0x8E004000 {}) = true ∧
    galBit (sGal 0x1E004000 {}) 26 = true ∧ galBit (sGal 0x0E004000 {}) 27 = true ∧ galManager (sGal 0x8C004000 {}) = true ∧
    (99 : Nat) < 2 ^ 48 - 1 := by decide

theorem wit_RemoteRequestsAreSentAndEnd : gf sRmtNo 0 0xB000100 30 1 = 0 ∧ rmtBad 3 9 1 = true ∧
    rmtBad 3 (mbIndex sRmtNo 0 0xB000100) (fld (rreg sRmtNo 0 0xB000300) 0 5) = false ∧
    fld (rreg sRmtNo 0 0xB000300) 8 5 ≠ galId sRmtNo ∧ galBit sRmtNo 29 = false ∧ galManager sRmtNo = false ∧
    rmtWhy (sRmt 0x8E004000 0xB000100 8 0x00000501) (fld (rreg (sRmt 0x8E004000 0xB000100 8 0x00000501) 0 0xB000300) 8 5) = none ∧
    fld (rreg (sRmt 0x8E004000 0xB000100 8 0x00000201) 0 0xB000300) 8 5 = galId (sRmt 0x8E004000 0xB000100 8 0x00000201) ∧
    Tbl.get none up.gal.run 0 = none ∧ Tbl.get none (sGal 0x8E004000 { run := [(0, some aRmt)] }).gal.run 0 = some aRmt ∧ aRmt.isLocal = false := by
  decide

theorem wit_RemoteRequestsAreSentAndEnd_clash :
    (let s := { sRmt 0x8E004000 0xB000100 8 0x00000501 with gal := { clash := [(5, ())] } }
     galBit s 29 = false ∧ galManager s = true ∧ bit (rreg s 0 0xB00000C) 5 = true ∧ (Tbl.find? s.gal.clash 5).isSome = true ∧
     fld (rreg s 0 0xB000300) 8 5 = 5) ∧ galBit (sRmt 0xAE004000 0xB000100 8 0x00000501) 29 = true ∧
    bit (rreg (sRmt 0x8E004000 0xB000100 8 0x00001F01) 0 0xB00000C) 31 = false ∧ gf (rg sRmtNo [(0xB000100, 0x40000000#32)]) 0 0xB000100 30 1 = 1 := by
  decide

theorem wit_RemoteRequestsAreSentAndEnd_heard : Heard (sRmtNo) (.rread 0) ∧
    Heard (sRmt 0x8E004000 0xB000100 8 0x00000501) (.hfCheck 0) := by
  refine ⟨⟨_, _, rfl, ?_⟩, ⟨_, _, rfl, ?_⟩⟩ <;> unfold Reaches <;> decide

theorem wit_TracesPowerAndManagementBus : (Tbl.get {} up.trc.lost 1).count = 0 ∧ (Tbl.get {} sTrc.trc.lost (0 * 16 + 1)).count ≠ 0 ∧
    hasToken sTrc 0 1 = true ∧ ringHeld sTrc 0 1 = false ∧ mode State.reset 0 = 0 ∧ 1 ≤ mode up 0 ∧
    (125 : Int) < max (max 126 3) (max 4 5) ∧ max (max (126 : Int) 3) (max 4 5) ≤ 127 ∧ up.core.pwrgood = true ∧ up.core.resetN = true ∧
    sDark.core.pwrgood = false ∧ (9#4).getLsbD 3 = true ∧ (9#4).getLsbD 0 = true ∧ fld (0x43000001#32) 24 8 = 0x43 ∧
    (sPwr none).pwr.retry = none ∧ (sPwr (some 0x21)).pwr.retry = some 0x21 ∧ 8 ≤ (8#8).toNat := by decide

theorem wit_TracesPowerAndManagementBus_reach : Reaches up 0 0xC000020 ∧ fld (0x43000001#32) 24 8 = 0x43 ∧ (8#4).getLsbD 0 = false ∧
    sLatched.core.resetN = false := by unfold Reaches; decide

end Sys2Proof.Tests
end

namespace Sys2Proof.Laws

open Sys2Proof Sys2Proof.Machine

theorem onTile_eq_onUnit (s : State) (t : Nat) (k : State) : onTile s t k = onUnit (Wf.tile s.part.tiles t) k := by
  simp [onTile, onUnit, Wf.tile]

theorem onUnit_decide_and (p q : Prop) [Decidable p] [Decidable q] (k : State) :
    onUnit (decide (p ∧ q)) k = onUnit (decide p && decide q) k := by rw [Bool.decide_and]

/-- Every arm of `exec` asks whether the units it names are there, and nothing else, before it answers a next state. -/
theorem exec_eq_onUnit (c : Instr) (s : State) : ∃ k, exec c s = onUnit (c.wf s.part.tiles) k := by
  cases c with
  | crossingWriteTakesEffect | tvScrub | enterService | enterRecovery | enterTest | modeCommandDone | tileReset
  | tileResetComplete | testMemoryBist | testPrbs | testNearLoopback | testFarLoopback | testStop | bistDone
  | hostRequestResolve | hostTagWait | poolTransfer | frameAbort | swcCntRead | swcCntWrite | wttWindowRead
  | wttWindowWrite | fence | fenceComplete | restamp | restampComplete | dmaQctxRead | dmaQctxWrite | setShare
  | qctxCommand | readIssue | drrEpoch | dmaReadData | writeIssue | writeSettle | writeSettleTimeout | dmaAbortReport
  | dmaCntRead | dmaCntWrite | evcDelivery | headframeFaultService | hfWatchdog | maintGrant | maintWindowEnd
  | alarmRead | alarmAck | alarmWrite | governorWindow | tempSample => exact ⟨_, onTile_eq_onUnit ..⟩
  | dmaReadTimeout | eventPinChange | pendingWordWrite | pendingWordRead | routeWrite | targetDone | holdoffExpiry =>
    exact ⟨_, onUnit_decide_and ..⟩
  | _ => exact ⟨_, rfl⟩

/-- What a command may change, read off its own meaning's frame. -/
theorem exec_within : ∀ {c : Instr} {s s' : State}, exec c s = .next s' → Within c.touches s s'
  | .registerWrite .., _, _, h => execRegisterWrite_within h
  | .reservedAddressWrite .., _, _, h => execReservedAddressWrite_within h
  | .crossingWriteTakesEffect .., _, _, h => execCrossingWriteTakesEffect_within h
  | .tvRegisterRead .., _, _, h => execTvRegisterRead_within h
  | .tvScrub .., _, _, h => execTvScrub_within h
  | .mbDataWrite .., _, _, h => execMbDataWrite_within h
  | .mailboxCommandEnd .., _, _, h => execMailboxCommandEnd_within h
  | .indirectDataAccess .., _, _, h => execIndirectDataAccess_within h
  | .powerGoodRise, _, _, h => execPowerGoodRise_within h
  | .packageStart .., _, _, h => execPackageStart_within h
  | .packageReset, _, _, h => execPackageReset_within h
  | .powerDown, _, _, h => execPowerDown_within h
  | .enterService .., _, _, h => execEnterService_within h
  | .enterRecovery .., _, _, h => execEnterRecovery_within h
  | .enterTest .., _, _, h => execEnterTest_within h
  | .modeCommandDone .., _, _, h => execModeCommandDone_within h
  | .tileReset .., _, _, h => execTileReset_within h
  | .tileResetComplete .., _, _, h => execTileResetComplete_within h
  | .testMemoryBist .., _, _, h => execTestMemoryBist_within h
  | .testPrbs .., _, _, h => execTestPrbs_within h
  | .testNearLoopback .., _, _, h => execTestNearLoopback_within h
  | .testFarLoopback .., _, _, h => execTestFarLoopback_within h
  | .testStop .., _, _, h => execTestStop_within h
  | .bistDone .., _, _, h => execBistDone_within h
  | .jtagBoundaryScan, _, _, h => execJtagBoundaryScan_within h
  | .tapReset, _, _, h => execTapReset_within h
  | .verify, _, _, h => execVerify_within h
  | .activate, _, _, h => execActivate_within h
  | .commitFloor, _, _, h => execCommitFloor_within h
  | .enrol, _, _, h => execEnrol_within h
  | .eraseInactive, _, _, h => execEraseInactive_within h
  | .refreshFlash, _, _, h => execRefreshFlash_within h
  | .strCommandDone, _, _, h => execStrCommandDone_within h
  | .flashCopyDone, _, _, h => execFlashCopyDone_within h
  | .strImgDataWrite .., _, _, h => execStrImgDataWrite_within h
  | .hostMemoryRequest .., _, _, h => execHostMemoryRequest_within h
  | .hostRequestResolve .., _, _, h => execHostRequestResolve_within h
  | .prefetchAgeExpiry .., _, _, h => execPrefetchAgeExpiry_within h
  | .configRequest .., _, _, h => execConfigRequest_within h
  | .deviceReadinessStatus .., _, _, h => execDeviceReadinessStatus_within h
  | .hostIssue .., _, _, h => execHostIssue_within h
  | .hostTagWait .., _, _, h => execHostTagWait_within h
  | .hostCompletion .., _, _, h => execHostCompletion_within h
  | .hostReadTimeout .., _, _, h => execHostReadTimeout_within h
  | .hostTagQuarantineEnd .., _, _, h => execHostTagQuarantineEnd_within h
  | .msixSend .., _, _, h => execMsixSend_within h
  | .aspmL1Entry .., _, _, h => execAspmL1Entry_within h
  | .rateCapWrite .., _, _, h => execRateCapWrite_within h
  | .narrowWrite .., _, _, h => execNarrowWrite_within h
  | .hostL0pRequest .., _, _, h => execHostL0pRequest_within h
  | .wakeAssert .., _, _, h => execWakeAssert_within h
  | .wakeTimeout .., _, _, h => execWakeTimeout_within h
  | .retrain .., _, _, h => execRetrain_within h
  | .ltrWrite .., _, _, h => execLtrWrite_within h
  | .spdmRequest .., _, _, h => execSpdmRequest_within h
  | .ideCheckFail .., _, _, h => execIdeCheckFail_within h
  | .unlockMessage .., _, _, h => execUnlockMessage_within h
  | .perstAssert .., _, _, h => execPerstAssert_within h
  | .perstDeassert .., _, _, h => execPerstDeassert_within h
  | .hotReset .., _, _, h => execHotReset_within h
  | .dlDown .., _, _, h => execDlDown_within h
  | .flrInstanceFunction .., _, _, h => execFlrInstanceFunction_within h
  | .flrPf .., _, _, h => execFlrPf_within h
  | .flrManagerFunction, _, _, h => execFlrManagerFunction_within h
  | .linkTraining .., _, _, h => execLinkTraining_within h
  | .trainingStepTimeout .., _, _, h => execTrainingStepTimeout_within h
  | .identifyRetry .., _, _, h => execIdentifyRetry_within h
  | .tileLinkTraining .., _, _, h => execTileLinkTraining_within h
  | .change .., _, _, h => execChange_within h
  | .lcrReceive .., _, _, h => execLcrReceive_within h
  | .lcrAckReceive .., _, _, h => execLcrAckReceive_within h
  | .lcrRefuseReceive .., _, _, h => execLcrRefuseReceive_within h
  | .lcrTimeout .., _, _, h => execLcrTimeout_within h
  | .liveChangeComplete .., _, _, h => execLiveChangeComplete_within h
  | .down .., _, _, h => execDown_within h
  | .disable .., _, _, h => execDisable_within h
  | .downReceive .., _, _, h => execDownReceive_within h
  | .lockLoss .., _, _, h => execLockLoss_within h
  | .recoveryComplete .., _, _, h => execRecoveryComplete_within h
  | .locklossTimerExpiry .., _, _, h => execLocklossTimerExpiry_within h
  | .flitTransmit .., _, _, h => execFlitTransmit_within h
  | .flitReceive .., _, _, h => execFlitReceive_within h
  | .nakTimerExpiry .., _, _, h => execNakTimerExpiry_within h
  | .nakResume .., _, _, h => execNakResume_within h
  | .replayTimerExpiry .., _, _, h => execReplayTimerExpiry_within h
  | .creditStallTimer .., _, _, h => execCreditStallTimer_within h
  | .wrReceive .., _, _, h => execWrReceive_within h
  | .rdReceive .., _, _, h => execRdReceive_within h
  | .heldReadSlotTake .., _, _, h => execHeldReadSlotTake_within h
  | .eventAssert .., _, _, h => execEventAssert_within h
  | .eventDeassert .., _, _, h => execEventDeassert_within h
  | .eventEdge .., _, _, h => execEventEdge_within h
  | .rspReceive .., _, _, h => execRspReceive_within h
  | .ltpRspTimeout .., _, _, h => execLtpRspTimeout_within h
  | .lockBeginSend .., _, _, h => execLockBeginSend_within h
  | .lockWaitExpiry .., _, _, h => execLockWaitExpiry_within h
  | .frameArrival .., _, _, h => execFrameArrival_within h
  | .frameAdmit .., _, _, h => execFrameAdmit_within h
  | .poolTransfer .., _, _, h => execPoolTransfer_within h
  | .transitForward .., _, _, h => execTransitForward_within h
  | .outputArbitration .., _, _, h => execOutputArbitration_within h
  | .queueUrgent .., _, _, h => execQueueUrgent_within h
  | .frameAgeExpiry .., _, _, h => execFrameAgeExpiry_within h
  | .frameAbort .., _, _, h => execFrameAbort_within h
  | .swcCntRead .., _, _, h => execSwcCntRead_within h
  | .swcCntWrite .., _, _, h => execSwcCntWrite_within h
  | .wttWindowRead .., _, _, h => execWttWindowRead_within h
  | .wttWindowWrite .., _, _, h => execWttWindowWrite_within h
  | .wttEntryRead .., _, _, h => execWttEntryRead_within h
  | .wttEntryWrite .., _, _, h => execWttEntryWrite_within h
  | .fill .., _, _, h => execFill_within h
  | .fence .., _, _, h => execFence_within h
  | .fenceComplete .., _, _, h => execFenceComplete_within h
  | .restamp .., _, _, h => execRestamp_within h
  | .restampComplete .., _, _, h => execRestampComplete_within h
  | .holdRelease .., _, _, h => execHoldRelease_within h
  | .zeroLengthReadComplete .., _, _, h => execZeroLengthReadComplete_within h
  | .doorbellWrite .., _, _, h => execDoorbellWrite_within h
  | .inlineDoorbell .., _, _, h => execInlineDoorbell_within h
  | .queueEnable .., _, _, h => execQueueEnable_within h
  | .queueResume .., _, _, h => execQueueResume_within h
  | .queueSkip .., _, _, h => execQueueSkip_within h
  | .queueReset .., _, _, h => execQueueReset_within h
  | .queueResetComplete .., _, _, h => execQueueResetComplete_within h
  | .cplHeadWrite .., _, _, h => execCplHeadWrite_within h
  | .descriptorFetch .., _, _, h => execDescriptorFetch_within h
  | .localRingPoll .., _, _, h => execLocalRingPoll_within h
  | .descriptorStart .., _, _, h => execDescriptorStart_within h
  | .completionEntryWrite .., _, _, h => execCompletionEntryWrite_within h
  | .dmaQctxRead .., _, _, h => execDmaQctxRead_within h
  | .dmaQctxWrite .., _, _, h => execDmaQctxWrite_within h
  | .setShare .., _, _, h => execSetShare_within h
  | .qctxCommand .., _, _, h => execQctxCommand_within h
  | .readIssue .., _, _, h => execReadIssue_within h
  | .dmaUrgent .., _, _, h => execDmaUrgent_within h
  | .drrEpoch .., _, _, h => execDrrEpoch_within h
  | .dmaReadData .., _, _, h => execDmaReadData_within h
  | .dmaReadTimeout .., _, _, h => execDmaReadTimeout_within h
  | .writeIssue .., _, _, h => execWriteIssue_within h
  | .writeSettle .., _, _, h => execWriteSettle_within h
  | .writeSettleTimeout .., _, _, h => execWriteSettleTimeout_within h
  | .dmaAbortReport .., _, _, h => execDmaAbortReport_within h
  | .queueHalt .., _, _, h => execQueueHalt_within h
  | .dmaCntRead .., _, _, h => execDmaCntRead_within h
  | .dmaCntWrite .., _, _, h => execDmaCntWrite_within h
  | .instanceRead .., _, _, h => execInstanceRead_within h
  | .instanceWrite .., _, _, h => execInstanceWrite_within h
  | .create .., _, _, h => execCreate_within h
  | .remove .., _, _, h => execRemove_within h
  | .bind .., _, _, h => execBind_within h
  | .unbind .., _, _, h => execUnbind_within h
  | .freeze .., _, _, h => execFreeze_within h
  | .freezeComplete .., _, _, h => execFreezeComplete_within h
  | .instanceResume .., _, _, h => execInstanceResume_within h
  | .instanceResetCommand .., _, _, h => execInstanceResetCommand_within h
  | .setWeight .., _, _, h => execSetWeight_within h
  | .logClear .., _, _, h => execLogClear_within h
  | .logCmdClear .., _, _, h => execLogCmdClear_within h
  | .logClearComplete .., _, _, h => execLogClearComplete_within h
  | .logEnable .., _, _, h => execLogEnable_within h
  | .dirtyLogEntryWrite .., _, _, h => execDirtyLogEntryWrite_within h
  | .instanceReset .., _, _, h => execInstanceReset_within h
  | .instanceResetStallEnd .., _, _, h => execInstanceResetStallEnd_within h
  | .instanceResetDrainEnd .., _, _, h => execInstanceResetDrainEnd_within h
  | .release .., _, _, h => execRelease_within h
  | .eventPinChange .., _, _, h => execEventPinChange_within h
  | .pendingWordWrite .., _, _, h => execPendingWordWrite_within h
  | .pendingWordRead .., _, _, h => execPendingWordRead_within h
  | .routeWrite .., _, _, h => execRouteWrite_within h
  | .evcDelivery .., _, _, h => execEvcDelivery_within h
  | .targetDone .., _, _, h => execTargetDone_within h
  | .holdoffExpiry .., _, _, h => execHoldoffExpiry_within h
  | .faultRecord .., _, _, h => execFaultRecord_within h
  | .headframeFaultService .., _, _, h => execHeadframeFaultService_within h
  | .faultAcknowledge .., _, _, h => execFaultAcknowledge_within h
  | .classBExpiry .., _, _, h => execClassBExpiry_within h
  | .classCExpiry .., _, _, h => execClassCExpiry_within h
  | .hfWatchdog .., _, _, h => execHfWatchdog_within h
  | .dumpWrite, _, _, h => execDumpWrite_within h
  | .dumpComplete, _, _, h => execDumpComplete_within h
  | .dumpRelease .., _, _, h => execDumpRelease_within h
  | .faultLossSummary .., _, _, h => execFaultLossSummary_within h
  | .crystalStop, _, _, h => execCrystalStop_within h
  | .crystalResume, _, _, h => execCrystalResume_within h
  | .timestampRead, _, _, h => execTimestampRead_within h
  | .timestampWrite, _, _, h => execTimestampWrite_within h
  | .slew, _, _, h => execSlew_within h
  | .slewEnd, _, _, h => execSlewEnd_within h
  | .canarySample .., _, _, h => execCanarySample_within h
  | .voltageRaiseStep .., _, _, h => execVoltageRaiseStep_within h
  | .replanStart .., _, _, h => execReplanStart_within h
  | .planNow .., _, _, h => execPlanNow_within h
  | .eqTrialEnd .., _, _, h => execEqTrialEnd_within h
  | .replanEnd .., _, _, h => execReplanEnd_within h
  | .maintGrant .., _, _, h => execMaintGrant_within h
  | .maintWindowEnd .., _, _, h => execMaintWindowEnd_within h
  | .helloSend, _, _, h => execHelloSend_within h
  | .ringFrameReceive .., _, _, h => execRingFrameReceive_within h
  | .ringRxDown .., _, _, h => execRingRxDown_within h
  | .ringRxUp .., _, _, h => execRingRxUp_within h
  | .packageLost .., _, _, h => execPackageLost_within h
  | .rread .., _, _, h => execRread_within h
  | .rwrite .., _, _, h => execRwrite_within h
  | .distImg .., _, _, h => execDistImg_within h
  | .hfErase .., _, _, h => execHfErase_within h
  | .distHf .., _, _, h => execDistHf_within h
  | .hfCheck .., _, _, h => execHfCheck_within h
  | .remoteTimeout .., _, _, h => execRemoteTimeout_within h
  | .timeSend, _, _, h => execTimeSend_within h
  | .galSyncEdge, _, _, h => execGalSyncEdge_within h
  | .syncLost, _, _, h => execSyncLost_within h
  | .followingTimeout, _, _, h => execFollowingTimeout_within h
  | .traceLossSummary .., _, _, h => execTraceLossSummary_within h
  | .alarmRead .., _, _, h => execAlarmRead_within h
  | .alarmAck .., _, _, h => execAlarmAck_within h
  | .alarmWrite .., _, _, h => execAlarmWrite_within h
  | .governorWindow .., _, _, h => execGovernorWindow_within h
  | .tempSample .., _, _, h => execTempSample_within h
  | .vbatSample .., _, _, h => execVbatSample_within h
  | .chargeControlWrite .., _, _, h => execChargeControlWrite_within h
  | .pmbusRetry .., _, _, h => execPmbusRetry_within h
  | .vrmAlert, _, _, h => execVrmAlert_within h
  | .smbusBlockRead .., _, _, h => execSmbusBlockRead_within h
  | .dlUp .., _, _, h => execDlUp_within h
  | .rateChanged .., _, _, h => execRateChanged_within h
  | .l0pChanged .., _, _, h => execL0pChanged_within h
  | .ltpHeldRead .., _, _, h => execLtpHeldRead_within h
  | .readVoutSample .., _, _, h => execReadVoutSample_within h
  | .vbatLost, _, _, h => execVbatLost_within h

theorem exec_keeps {c : Instr} {s s' : State} (h : exec c s = .next s') : Keeps s s' := (exec_within h).keeps

/-- Settles O1: the answer of `exec` is one question about the units named, and a next state is within the frame of its command. -/
theorem everyCommandCompletesOrStops : Obligations.EveryCommandCompletesOrStops := by
  intro c s
  obtain ⟨k, hk⟩ := exec_eq_onUnit c s
  refine ⟨fun present => ?_, fun absent => ?_⟩
  · have done : exec c s = .next k := by rw [hk, present]; rfl
    exact ⟨k, done, exec_keeps done⟩
  · rw [hk, absent]; rfl

end Sys2Proof.Laws

namespace Sys2Proof.Machine

open Sys2Proof.Laws

/-! ## Registers a change leaves alone -/

theorem RegsBut.of_regs {p : Nat → Nat → Prop} {s s' : State} (h : s'.regs = s.regs) : RegsBut p s s' :=
  fun t off _ _ => rreg_congr h t off

theorem RegsBut.trans {p : Nat → Nat → Prop} {a b c : State} (h : RegsBut p a b) (h' : RegsBut p b c) : RegsBut p a c :=
  fun t off lt np => (h' t off lt np).trans (h t off lt np)

theorem RegsBut.mono {p q : Nat → Nat → Prop} {a b : State} (h : RegsBut p a b) (sub : ∀ t off, p t off → q t off) :
    RegsBut q a b :=
  fun t off lt nq => h t off lt (fun hp => nq (sub t off hp))

end Sys2Proof.Machine

namespace Sys2Proof.Laws

open Sys2Proof Sys2Proof.Machine

/-- A store to a register that `p` picks leaves the others alone. -/
theorem wreg_regsBut {p : Nat → Nat → Prop} {s : State} {t off : Nat} (v : Word) (lt : off < 0x10000000) (hp : p t off) :
    RegsBut p s (wreg s t off v) := by
  intro u o hlt np
  refine rreg_wreg_other s v (key_ne hlt lt ?_)
  refine Decidable.by_contra fun same => ?_
  obtain ⟨rfl, rfl⟩ : u = t ∧ o = off := by omega
  exact np hp

/-! ## A link that leaves L1 (R94) -/

theorem hls_leaveL1 (s : State) (h : Nat) :
    hls (leaveL1 s h) h 24 4 = if hls s h 24 4 = 6 then 5 else hls s h 24 4 := by
  unfold leaveL1
  split
  · simp [hls, setHls]
  · rfl

theorem leaveL1_not_inL1 (s : State) (h : Nat) : hls (leaveL1 s h) h 24 4 ≠ 6 := by
  rw [hls_leaveL1]
  split
  · decide
  · assumption

theorem leaveL1_of_not_inL1 {s : State} {h : Nat} (awake : hls s h 24 4 ≠ 6) : leaveL1 s h = s := if_neg awake

/-- Leaving L1 changes the register file alone. -/
theorem leaveL1_eq (s : State) (h : Nat) : leaveL1 s h = { s with regs := (leaveL1 s h).regs } := by
  unfold leaveL1
  split <;> rfl

theorem hptOf_lt (h : Nat) {o : Nat} (lt : o < 0x100) : hptOf h o < 0x10000000 := by
  unfold hptOf hpt
  omega

theorem leaveL1_regsBut (s : State) (h : Nat) : RegsBut (at_ (h / 4) (hptOf h 0)) s (leaveL1 s h) := by
  unfold leaveL1
  split
  · exact wreg_regsBut _ (hptOf_lt h (by decide)) ⟨rfl, rfl⟩
  · exact .of_regs rfl

/-- Where the registers are those of `s` with link `h` out of L1, its state is L0 for L1, and no other register has changed. -/
theorem awake_of_regs {s s' : State} {h : Nat} (e : s'.regs = (leaveL1 s h).regs) :
    hls s' h 24 4 = (if hls s h 24 4 = 6 then 5 else hls s h 24 4) ∧ RegsBut (at_ (h / 4) (hptOf h 0)) s s' := by
  refine ⟨?_, (leaveL1_regsBut s h).trans (.of_regs e)⟩
  rw [← hls_leaveL1]
  exact gf_congr e ..

/-- The same with one half-word of the link counted up. -/
theorem awake_counted {s s' : State} {h o : Nat} (pos : 0 < o) (lt : o < 0x100)
    (e : s'.regs = (cf (leaveL1 s h) (h / 4) (hptOf h o) 16 16).regs) :
    gf s' (h / 4) (hptOf h o) 16 16 = (gf s (h / 4) (hptOf h o) 16 16 + 1) % 65536 ∧
    RegsBut (ats (h / 4) [hptOf h 0, hptOf h o]) s s' := by
  have others : RegsBut (at_ (h / 4) (hptOf h 0)) s (leaveL1 s h) := leaveL1_regsBut s h
  have same : rreg (leaveL1 s h) (h / 4) (hptOf h o) = rreg s (h / 4) (hptOf h o) := by
    refine others _ _ (hptOf_lt h lt) ?_
    unfold at_ hptOf hpt
    omega
  constructor
  · rw [gf_congr e, gf_cf_same _ _ _ _ _ _ (by decide), gf, same]
    rfl
  · have counted : RegsBut (ats (h / 4) [hptOf h 0, hptOf h o]) (leaveL1 s h) (cf (leaveL1 s h) (h / 4) (hptOf h o) 16 16) :=
      wreg_regsBut _ (hptOf_lt h lt) ⟨rfl, by simp⟩
    refine .trans (others.mono ?_) (.trans counted (.of_regs e))
    rintro t off ⟨rfl, rfl⟩
    exact ⟨rfl, by simp⟩

/-! ## The error log of a function (R108) -/

theorem pfsOf_setCfg (s : State) (h f dw : Nat) (v : Word) (l : Nat) : pfsOf (setCfg s h f dw v) l = pfsOf s l := by
  unfold setCfg
  split <;> rfl

theorem cfgWord_setCfg_same {s : State} {h f : Nat} (dw : Nat) (v : Word) (ex : (fnRefOf (pfsOf s h) f).isSome = true) :
    cfgWord (setCfg s h f dw v) h f dw = v := by
  obtain ⟨y, hy⟩ := Option.isSome_iff_exists.1 ex
  unfold cfgWord
  rw [pfsOf_setCfg]
  simp [setCfg, hy, get_set_same]

theorem cfgWord_setCfg_other (s : State) (h f : Nat) {dw dw' : Nat} (v : Word) (ne : dw' ≠ dw) :
    cfgWord (setCfg s h f dw v) h f dw' = cfgWord s h f dw' := by
  unfold cfgWord
  rw [pfsOf_setCfg]
  unfold setCfg
  split
  · exact get_set_other _ _ _ _ (by omega)
  · rfl

/-- What holds once the status bit is set, and through every later word set and message sent, holds at the log's end. -/
theorem aerLog_induction {P : State → Prop} {s : State} {h f : Nat} (b : Nat) (advisory : Bool) (ex : fnExists s h f = true)
    (start : ∀ s1, s1 = s ∨ s1 = headerLog s h f b → P (orCfg s1 h f 0x104 (2 ^ b)))
    (mark : ∀ s1 off m, off = 0x58 ∨ off = 0x110 → P s1 → P (orCfg s1 h f off m))
    (say : ∀ s1 k, P s1 → P (errorMsg s1 h f k)) : P (aerLog s h f b advisory) := by
  have logged : P (orCfg (if bit (cfgWord s h f (0x108 / 4)) b then s else headerLog s h f b) h f 0x104 (2 ^ b)) :=
    start _ (by split <;> simp)
  have found : ∀ (c : Bool) s1, P s1 → P (if c then orCfg s1 h f 0x58 0x80000 else s1) := by
    intro c s1 h1
    cases c
    · exact h1
    · exact mark _ _ _ (.inl rfl) h1
  have told : ∀ (c : Prop) [Decidable c] k s1, P s1 → P (if c then errorMsg s1 h f k else s1) := by
    intro c _ k s1 h1
    split
    · exact say _ _ h1
    · exact h1
  unfold aerLog
  simp only [ex, Bool.true_eq_false, if_false]
  have here := found (b = 20) _ logged
  simp only [decide_eq_true_eq] at here
  split
  · exact told _ _ _ (mark _ _ _ (.inr rfl) (mark _ _ _ (.inl rfl) here))
  · split
    · exact told _ _ _ (mark _ _ _ (.inl rfl) here)
    · exact told _ _ _ (mark _ _ _ (.inl rfl) here)

theorem orCfg_regs (s : State) (h f off m : Nat) : (orCfg s h f off m).regs = s.regs := orCfg_within.same .regs rfl

theorem headerLog_regs (s : State) (h f b : Nat) : (headerLog s h f b).regs = s.regs := headerLog_within.same .regs rfl

/-- An error logged on a link that is not in L1 changes no register. -/
theorem aerLog_regs {s : State} {h : Nat} (f b : Nat) (advisory : Bool) (awake : hls s h 24 4 ≠ 6) :
    (aerLog s h f b advisory).regs = s.regs := by
  cases ex : fnExists s h f with
  | false => simp [aerLog, ex]
  | true =>
    refine aerLog_induction (P := fun s' => s'.regs = s.regs) b advisory ex ?_ ?_ ?_
    · rintro s1 (rfl | rfl)
      · exact orCfg_regs ..
      · rw [orCfg_regs, headerLog_regs]
    · intro s1 off m _ h1
      rw [orCfg_regs, h1]
    · intro s1 k h1
      have : leaveL1 s1 h = s1 := leaveL1_of_not_inL1 (by unfold hls; rwa [gf_congr h1])
      simp [errorMsg, this, h1]

theorem pfsOf_headerLog (s : State) (h f b l : Nat) : pfsOf (headerLog s h f b) l = pfsOf s l := by
  unfold headerLog
  split
  · simp only [List.range, List.range.loop, List.foldl, pfsOf_setCfg]
    rfl
  · rfl

theorem fld_or_bit (w : Word) {b : Nat} (lt : b < 32) : fld (w ||| word (2 ^ b)) b 1 = 1 := by
  have e : (w ||| word (2 ^ b)).extractLsb' b 1 = 1#1 := by
    apply BitVec.eq_of_getLsbD_eq
    intro i hi
    obtain rfl : i = 0 := by omega
    have set : (word (2 ^ b)).getLsbD b = true := by rw [BitVec.getLsbD_ofNat, Nat.testBit_two_pow_self, decide_eq_true lt]; rfl
    simp only [BitVec.getLsbD_extractLsb', Nat.add_zero, BitVec.getLsbD_or, set]
    simp
  rw [fld, e]
  rfl

/-- The status bit of an error that is logged is set in its function's AER capability. -/
theorem aerLog_status {s : State} {h f b : Nat} (advisory : Bool) (lt : b < 32) (ex : fnExists s h f = true) :
    cfgF (aerLog s h f b advisory) h f 0x104 b 1 = 1 := by
  have there : (fnRefOf (pfsOf s h) f).isSome = true := by
    cases e : fnRefOf (pfsOf s h) f with
    | none => simp [fnExists, e] at ex
    | some y => rfl
  refine aerLog_induction (P := fun s' => cfgF s' h f 0x104 b 1 = 1) b advisory ex ?_ ?_ ?_
  · intro s1 h1
    have : (fnRefOf (pfsOf s1 h) f).isSome = true := by
      rcases h1 with rfl | rfl
      · exact there
      · rwa [pfsOf_headerLog]
    rw [cfgF, orCfg, cfgWord_setCfg_same _ _ this]
    exact fld_or_bit _ lt
  · intro s1 off m hoff h1
    rw [cfgF, orCfg, cfgWord_setCfg_other _ _ _ _ (by omega)]
    exact h1
  · intro s1 k h1
    rw [errorMsg, leaveL1_eq]
    exact h1

end Sys2Proof.Laws

namespace Sys2Proof.Laws

open Sys2Proof Sys2Proof.Machine

/-! ## A request goes on from its host port (R21, R22, R230) -/

@[simp] theorem get_app_same {α : Type} [DecidableEq α] (t : Tbl (List α)) (k : Nat) (l : List α) :
    Tbl.get [] (Tbl.app t k l) k = Tbl.get [] t k ++ l := get_set_same ..

/-- A request that needs no inbound entry, or finds one free, is sent on under the names its link and function give it. -/
theorem sendHost_sentOn {s : State} {r : Tlp} (f i x b dstTile dstPort a len : Nat) (glob posts : Bool) (cargo : HReq → Cargo)
    (free : r.kind = .write ∨ (freeInb s (r.link / 4)).isSome = true) :
    SentOn s (sendHost s r f i x b dstTile dstPort a len glob posts cargo) r f i x b dstTile dstPort a len glob cargo := by
  by_cases w : r.kind = .write
  · cases posts <;>
      simp [SentOn, sendHost, nonPosted, w, newSerial, enter, sendIn, notePosted, kindType]
  · obtain ⟨e, he⟩ := Option.isSome_iff_exists.1 (free.resolve_left w)
    simp [SentOn, sendHost, nonPosted, w, he, newSerial, enter, sendIn]

theorem sendHost_posts {s : State} {r : Tlp} (f i x b dstTile dstPort a len : Nat) (glob : Bool) (cargo : HReq → Cargo)
    (w : r.kind = .write) :
    ∃ p, (sendHost s r f i x b dstTile dstPort a len glob true cargo).brg.posted = s.brg.posted ++ [p] ∧
      p.serial = s.brg.serial ∧ p.inst = i ∧ p.fromHost = some r.link ∧ p.resolved = false := by
  simp [sendHost, nonPosted, w, newSerial, enter, sendIn, notePosted]

end Sys2Proof.Laws

namespace Sys2Proof.Laws

open Sys2Proof Sys2Proof.Machine

/-! ## What the decision of a request reads, past the link's leaving L1 -/

@[simp] theorem barHit_leaveL1 (s : State) (h k a : Nat) : barHit (leaveL1 s h) k a = barHit s k a := by rw [leaveL1_eq]; rfl

@[simp] theorem barBase_leaveL1 (s : State) (h k f b : Nat) : barBase (leaveL1 s h) k f b = barBase s k f b := by
  rw [leaveL1_eq]; rfl

@[simp] theorem boundInst_leaveL1 (s : State) (h k f : Nat) : boundInst (leaveL1 s h) k f = boundInst s k f := by
  rw [leaveL1_eq]; rfl

@[simp] theorem live_leaveL1 (s : State) (h i : Nat) : live (leaveL1 s h) i = live s i := by rw [leaveL1_eq]; rfl

@[simp] theorem instOf_leaveL1 (s : State) (h i : Nat) : instOf (leaveL1 s h) i = instOf s i := by rw [leaveL1_eq]; rfl

@[simp] theorem pfsOf_leaveL1 (s : State) (h k : Nat) : pfsOf (leaveL1 s h) k = pfsOf s k := by rw [leaveL1_eq]; rfl

@[simp] theorem freeInb_leaveL1 (s : State) (h t : Nat) : freeInb (leaveL1 s h) t = freeInb s t := by rw [leaveL1_eq]; rfl

@[simp] theorem part_leaveL1 (s : State) (h : Nat) : (leaveL1 s h).part = s.part := by rw [leaveL1_eq]

@[simp] theorem brg_leaveL1 (s : State) (h : Nat) : (leaveL1 s h).brg = s.brg := by rw [leaveL1_eq]

@[simp] theorem outbox_leaveL1 (s : State) (h : Nat) : (leaveL1 s h).outbox = s.outbox := by rw [leaveL1_eq]

@[simp] theorem fnExists_leaveL1 (s : State) (h k f : Nat) : fnExists (leaveL1 s h) k f = fnExists s k f := by
  rw [leaveL1_eq]; rfl

@[simp] theorem recoveryShape_leaveL1 (s : State) (h : Nat) : recoveryShape (leaveL1 s h) = recoveryShape s := by
  have other : rreg (leaveL1 s h) 0 0xA000000 = rreg s 0 0xA000000 := by
    refine leaveL1_regsBut s h _ _ (by decide) ?_
    unfold at_ hptOf hpt
    omega
  simp [recoveryShape, gf, other]

/-- A request that goes on from the link out of L1 goes on from the link as it was. -/
theorem sentOn_of_leaveL1 {s s' : State} {h f i x b dstTile dstPort a len : Nat} {r : Tlp} {glob : Bool} {cargo : HReq → Cargo}
    (sent : SentOn (leaveL1 s h) s' r f i x b dstTile dstPort a len glob cargo) :
    SentOn s s' r f i x b dstTile dstPort a len glob cargo := by
  rw [leaveL1_eq] at sent
  exact sent

/-! ## The rows of the table (R100) -/

theorem hostRequest_ignored {s : State} {r : Tlp} (no : hostUp s r.link = false ∨ creditHeld s r = true) : hostRequest s r = s :=
  if_pos no

section
variable {s : State} {r : Tlp} (up : hostUp s r.link = true) (credit : creditHeld s r = false)
include up credit

theorem hostRequest_rowOne {k : Nat} (row : rowOneBit r = some k) :
    hostRequest s r = aerLog (leaveL1 s r.link) r.link 0 k false := by
  simp [hostRequest, up, credit, row]

theorem hostRequest_noBar (row : rowOneBit r = none) (hit : barHit s r.link (dwAddr r + (span r.dws r.fbe r.lbe).1) = none) :
    hostRequest s r = unsupported (leaveL1 s r.link) r 0 := by
  simp [hostRequest, up, credit, row, hit]

theorem hostRequest_bar {f b : Nat} (row : rowOneBit r = none)
    (hit : barHit s r.link (dwAddr r + (span r.dws r.fbe r.lbe).1) = some (f, b)) :
    hostRequest s r = toFunction (leaveL1 s r.link) r f b (dwAddr r - barBase s r.link f b) := by
  simp [hostRequest, up, credit, row, hit]

end

/-- Row 5: a read or write of the manager function's BAR0. -/
theorem toFunction_manager {s : State} {r : Tlp} {f : Nat} (b x : Nat) (kind : r.kind = .read ∨ r.kind = .write)
    (mgr : (fnRefOf (pfsOf s r.link) f).any (fun y => y.pf.manager) = true) : toFunction s r f b x = toControl s r f x := by
  have notAtomic : ¬ (b = 0 ∧ r.kind ≠ .read ∧ r.kind ≠ .write) := fun h => kind.elim h.2.1 h.2.2
  have notLocked : r.kind ≠ .lockedRead := by rcases kind with h | h <;> simp [h]
  simp only [toFunction, notAtomic, notLocked, mgr, false_and, if_false, if_true]

/-- Rows 7 and 8 and the limits of R290: a request to a live instance. -/
theorem toFunction_instance {s : State} {r : Tlp} {f b i : Nat} (x : Nat) (whole : b = 0 → r.kind = .read ∨ r.kind = .write)
    (legacy : r.kind = .lockedRead → (fnRefOf (pfsOf s r.link) f).any (fun y => y.pf.legacy && y.vf.isNone) = true)
    (mgr : (fnRefOf (pfsOf s r.link) f).any (fun y => y.pf.manager) = false) (bound : boundInst s r.link f = some i)
    (alive : live s i = true) :
    toFunction s r f b x =
      if b = 0 then toPage s r f i x
      else if (instOf s i).frozen || (instOf s i).halted || (instOf s i).resetting then notLive s r f
      else toWindow s r f i b x := by
  have notAtomic : ¬ (b = 0 ∧ r.kind ≠ .read ∧ r.kind ≠ .write) := fun h => (whole h.1).elim h.2.1 h.2.2
  have notRefused : ¬ (r.kind = .lockedRead ∧ (fnRefOf (pfsOf s r.link) f).any (fun y => y.pf.legacy && y.vf.isNone) = false) :=
    fun h => by simp [legacy h.1] at h
  simp only [toFunction, notAtomic, notRefused, mgr, bound, alive, if_false, Bool.false_eq_true, Bool.true_eq_false]

/-! ## One DW -/

/-- The bytes of one DW that its enables name lie in that DW. -/
theorem span_oneDw (fbe lbe : BitVec 4) : (span 1 fbe lbe).1 < 4 ∧ (span 1 fbe lbe).1 + (span 1 fbe lbe).2 ≤ 4 := by
  have all : ∀ be : BitVec 4, (span 1 be 0).1 < 4 ∧ (span 1 be 0).1 + (span 1 be 0).2 ≤ 4 := by decide
  exact all fbe

theorem accessBad_oneDw {a : Nat} (fbe lbe : BitVec 4) (aligned : a % 4 = 0) :
    accessBad (a + (span 1 fbe lbe).1) (span 1 fbe lbe).2 = none := by
  obtain ⟨first, last⟩ := span_oneDw fbe lbe
  unfold accessBad
  rw [if_neg (by omega), if_pos (by omega), if_pos (by omega)]

theorem barBase_aligned (s : State) (h f : Nat) : barBase s h f 0 % 4 = 0 := by
  unfold barBase
  split
  · dsimp only; omega
  · simp only [if_true]; omega
  · rfl

theorem zeroCpl_oneDw {s : State} {r : Tlp} (one : r.dws = 1) :
    zeroCpl s r = emit s (.cpl r.link r.rid r.tag 0 [0, 0, 0, 0] false r.rlx r.ns) := by
  have room : 4 ≤ mpsOf s r.link := by
    have : 0 < 2 ^ Nat.min 2 (cfgF s r.link 0 0x58 5 3) := Nat.two_pow_pos _
    unfold mpsOf
    omega
  simp [zeroCpl, one, splitCpl, room]

/-! ## Answers and refusals at the host port -/

theorem abortReq_regs {s : State} {r : Tlp} (f : Nat) (awake : hls s r.link 24 4 ≠ 6) : (abortReq s r f).regs = s.regs :=
  aerLog_regs (s := emit s _) f aerCA true awake

/-- What is answered is sent before the messages of its logging. -/
theorem aerLog_emit_outbox (s : State) (o : Out) (h f b : Nat) (advisory : Bool) :
    ∃ l, (aerLog (emit s o) h f b advisory).outbox = s.outbox ++ o :: l := by
  obtain ⟨l, hl⟩ := (aerLog_within (s := emit s o) (h := h) (f := f) (b := b) (advisory := advisory)).keeps.outbox
  exact ⟨l, by rw [← hl]; simp⟩

theorem unsupported_regs {s : State} {r : Tlp} (f : Nat) (awake : hls s r.link 24 4 ≠ 6) : (unsupported s r f).regs = s.regs := by
  unfold unsupported
  split
  · exact aerLog_regs (s := emit s _) f aerUR true awake
  · exact aerLog_regs f aerUR false awake

theorem hls_cf_other (s : State) (h : Nat) {o : Nat} (pos : 0 < o) (lt : o < 0x100) :
    hls (cf s (h / 4) (hptOf h o) 16 16) h 24 4 = hls s h 24 4 :=
  gf_cf_other s _ _ _ _ _ (key_ne (hptOf_lt h (by decide)) (hptOf_lt h lt) (.inr (by unfold hptOf hpt; omega)))

theorem nonPosted_iff (r : Tlp) : nonPosted r = true ↔ r.kind ≠ .write := by simp [nonPosted]

end Sys2Proof.Laws

namespace Sys2Proof.Laws

open Sys2Proof Sys2Proof.Machine

/-! ## What becomes of a request -/

/-- The command completes with what the host port decides. -/
theorem completes_hostMemoryRequest {s s' : State} {r : Tlp} {P : State → Prop} (present : linkPresent s r.link = true)
    (decided : hostRequest s r = s') (holds : P s') : Completes (.hostMemoryRequest r) s P := by
  have inPart : r.link < 4 * s.part.tiles := by
    simp only [linkPresent, Bool.and_eq_true, decide_eq_true_eq] at present
    exact present.1
  refine ⟨s', ?_, holds⟩
  simp [exec, execHostMemoryRequest, onLink, onUnit, inPart, present, decided]

/-- Row 1: what ends there is logged in PF 0. -/
theorem rowOne_logged {s : State} {r : Tlp} {k : Nat} (row : rowOneBit r = some k) :
    let s' := aerLog (leaveL1 s r.link) r.link 0 k false
    (fnExists s r.link 0 = true → cfgF s' r.link 0 0x104 k 1 = 1) ∧ RegsBut (at_ (r.link / 4) (hptOf r.link 0)) s s' ∧
    Same [.regs, .host, .outbox, .fresh] s s' := by
  have lt : k < 32 := by
    unfold rowOneBit at row
    split at row
    · cases row; decide
    · cases row; decide
    · cases row; decide
    · split at row <;> cases row
      decide
  refine ⟨fun ex => aerLog_status false lt (by simpa using ex), ?_, ?_⟩
  · exact (awake_of_regs (aerLog_regs 0 k false (leaveL1_not_inL1 s r.link))).2
  · exact (Within.step aerLog_within rfl (.step leaveL1_within rfl (.refl _ _))).same

/-- Row 2: a request that falls in no BAR. -/
theorem noBar_answered (s : State) (r : Tlp) :
    let s' := unsupported (leaveL1 s r.link) r 0
    (r.kind ≠ .write → ∃ l, s'.outbox = s.outbox ++ .cpl r.link r.rid r.tag 1 [] false r.rlx r.ns :: l) ∧
    hls s' r.link 24 4 = (if hls s r.link 24 4 = 6 then 5 else hls s r.link 24 4) ∧
    RegsBut (at_ (r.link / 4) (hptOf r.link 0)) s s' ∧ Same [.regs, .host, .outbox, .fresh] s s' := by
  intro s'
  obtain ⟨l0, others⟩ := awake_of_regs (unsupported_regs (r := r) 0 (leaveL1_not_inL1 s r.link))
  refine ⟨fun np => ?_, l0, others, ?_⟩
  · obtain ⟨l, hl⟩ := aerLog_emit_outbox (leaveL1 s r.link) (.cpl r.link r.rid r.tag 1 [] false r.rlx r.ns) r.link 0 aerUR true
    refine ⟨l, ?_⟩
    rw [outbox_leaveL1] at hl
    simpa [s', unsupported, nonPosted_iff, np] using hl
  · exact (Within.step unsupported_within rfl (.step leaveL1_within rfl (.refl _ _))).same

/-- A request that is sent on from its link out of L1. -/
theorem sentOn_from_L0 {s : State} {r : Tlp} (f i x b dstTile dstPort a len : Nat) (glob posts : Bool) (cargo : HReq → Cargo)
    (free : r.kind = .write ∨ (freeInb s (r.link / 4)).isSome = true) :
    let s' := sendHost (leaveL1 s r.link) r f i x b dstTile dstPort a len glob posts cargo
    SentOn s s' r f i x b dstTile dstPort a len glob cargo ∧
    hls s' r.link 24 4 = (if hls s r.link 24 4 = 6 then 5 else hls s r.link 24 4) ∧
    RegsBut (at_ (r.link / 4) (hptOf r.link 0)) s s' ∧ Same [.regs, .swc, .brg, .host] s s' := by
  intro s'
  obtain ⟨l0, others⟩ := awake_of_regs (s' := s') (sendHost_within.same .regs rfl)
  exact ⟨sentOn_of_leaveL1 (sendHost_sentOn f i x b dstTile dstPort a len glob posts cargo (by simpa using free)), l0, others,
    (Within.step sendHost_within rfl (.step leaveL1_within rfl (.refl _ _))).same⟩

/-- The host port's own answer for a tile that the part does not have (R3). -/
theorem absentTile_answered {s : State} {r : Tlp} (one : r.dws = 1) :
    let s' := zeroCpl (leaveL1 s r.link) r
    s'.outbox = s.outbox ++ [.cpl r.link r.rid r.tag 0 [0, 0, 0, 0] false r.rlx r.ns] ∧
    hls s' r.link 24 4 = (if hls s r.link 24 4 = 6 then 5 else hls s r.link 24 4) ∧
    RegsBut (at_ (r.link / 4) (hptOf r.link 0)) s s' ∧ Same [.regs, .outbox] s s' := by
  intro s'
  obtain ⟨l0, others⟩ := awake_of_regs (s' := s') (zeroCpl_within.same .regs rfl)
  refine ⟨?_, l0, others, (Within.step zeroCpl_within rfl (.step leaveL1_within rfl (.refl _ _))).same⟩
  simp [s', zeroCpl_oneDw one]

/-- A write to an instance that takes nothing is counted NOT_LIVE. -/
theorem notLive_write {s : State} {r : Tlp} (f : Nat) (w : r.kind = .write) :
    let s' := notLive (leaveL1 s r.link) r f
    gf s' (r.link / 4) (hptOf r.link 0x10) 16 16 = (gf s (r.link / 4) (hptOf r.link 0x10) 16 16 + 1) % 65536 ∧
    RegsBut (ats (r.link / 4) [hptOf r.link 0, hptOf r.link 0x10]) s s' ∧ Same [.regs] s s' := by
  intro s'
  have counted : s' = cf (leaveL1 s r.link) (r.link / 4) (hptOf r.link 0x10) 16 16 := by simp [s', notLive, nonPosted, w]
  obtain ⟨count, others⟩ := awake_counted (s' := s') (by decide) (by decide) (congrArg State.regs counted)
  refine ⟨count, others, ?_⟩
  rw [counted]
  exact (Within.step cf_within rfl (.step leaveL1_within rfl (.refl _ _))).same

/-- Another request to an instance that takes nothing is answered Completer Abort. -/
theorem notLive_nonPosted {s : State} {r : Tlp} (f : Nat) (np : r.kind ≠ .write) :
    let s' := notLive (leaveL1 s r.link) r f
    (∃ l, s'.outbox = s.outbox ++ .cpl r.link r.rid r.tag 4 [] false r.rlx r.ns :: l) ∧
    RegsBut (at_ (r.link / 4) (hptOf r.link 0)) s s' ∧ Same [.regs, .host, .outbox, .fresh] s s' := by
  intro s'
  have aborted : s' = abortReq (leaveL1 s r.link) r f := by simp [s', notLive, nonPosted_iff, np]
  rw [aborted]
  refine ⟨?_, (awake_of_regs (abortReq_regs f (leaveL1_not_inL1 s r.link))).2, ?_⟩
  · rw [← outbox_leaveL1 s r.link]
    exact aerLog_emit_outbox ..
  · exact (Within.step abortReq_within rfl (.step leaveL1_within rfl (.refl _ _))).same

/-- An access to a page that R74 refuses is counted at the link, and a read of it answered Completer Abort (R73). -/
theorem toPage_refused {s : State} {r : Tlp} (f i : Nat) {x : Nat}
    (bad : accessBad (x + (span r.dws r.fbe r.lbe).1) (span r.dws r.fbe r.lbe).2 ≠ none) :
    let s' := toPage (leaveL1 s r.link) r f i x
    gf s' (r.link / 4) (hptOf r.link 0x14) 16 16 = (gf s (r.link / 4) (hptOf r.link 0x14) 16 16 + 1) % 65536 ∧
    (r.kind = .read → ∃ l, s'.outbox = s.outbox ++ .cpl r.link r.rid r.tag 4 [] false r.rlx r.ns :: l) ∧
    RegsBut (ats (r.link / 4) [hptOf r.link 0, hptOf r.link 0x14]) s s' ∧ Same [.regs, .host, .outbox, .fresh] s s' := by
  intro s'
  let s1 := cf (leaveL1 s r.link) (r.link / 4) (hptOf r.link 0x14) 16 16
  obtain ⟨why, hwhy⟩ := Option.ne_none_iff_exists'.1 bad
  have counted : s' = if nonPosted r then abortReq s1 r f else s1 := by simp only [s', toPage, hwhy]; rfl
  have awake : hls s1 r.link 24 4 ≠ 6 := by
    rw [hls_cf_other _ _ (by decide) (by decide)]
    exact leaveL1_not_inL1 s r.link
  have regs : s'.regs = s1.regs := by
    rw [counted]
    split
    · exact abortReq_regs f awake
    · rfl
  obtain ⟨count, others⟩ := awake_counted (s := s) (by decide) (by decide) regs
  refine ⟨count, fun rd => ?_, others, ?_⟩
  · rw [counted, if_pos (by simp [nonPosted, rd]), ← outbox_leaveL1 s r.link]
    exact aerLog_emit_outbox s1 ..
  · rw [counted]
    have within1 : Within [.regs, .host, .outbox, .fresh] s s1 :=
      .step cf_within rfl (.step leaveL1_within rfl (.refl _ _))
    exact (Within.ite (.step abortReq_within rfl within1) within1).same

end Sys2Proof.Laws

namespace Sys2Proof.Laws

open Sys2Proof Sys2Proof.Machine

/-! ## The host port decides -/

section
variable {s : State} {r : Tlp} (up : hostUp s r.link = true) (credit : creditHeld s r = false) (row : rowOneBit r = none)
include up credit row

/-- Row 5 reads and writes go to control space. -/
theorem hostRequest_manager {f : Nat} (hit : barHit s r.link (dwAddr r + (span r.dws r.fbe r.lbe).1) = some (f, 0))
    (mgr : (fnRefOf (pfsOf s r.link) f).any (fun y => y.pf.manager) = true) (kind : r.kind = .read ∨ r.kind = .write) :
    hostRequest s r = toControl (leaveL1 s r.link) r f (dwAddr r - barBase s r.link f 0) := by
  rw [hostRequest_bar up credit row hit, toFunction_manager _ _ kind (by simpa using mgr)]

section
variable {f b i : Nat} (hit : barHit s r.link (dwAddr r + (span r.dws r.fbe r.lbe).1) = some (f, b))
  (mgr : (fnRefOf (pfsOf s r.link) f).any (fun y => y.pf.manager) = false) (bound : boundInst s r.link f = some i)
  (alive : live s i = true)
  (locked : r.kind = .lockedRead → b ≠ 0 ∧ (fnRefOf (pfsOf s r.link) f).any (fun y => y.pf.legacy && y.vf.isNone) = true)
include hit mgr bound alive locked

/-- Row 7 goes to the instance page. -/
theorem hostRequest_page (page : b = 0) (kind : r.kind = .read ∨ r.kind = .write) :
    hostRequest s r = toPage (leaveL1 s r.link) r f i (dwAddr r - barBase s r.link f b) := by
  rw [hostRequest_bar up credit row hit, toFunction_instance (i := i) _ (fun _ => kind) (fun lk => absurd page (locked lk).1)
    (by simpa using mgr) (by simpa using bound) (by simpa using alive), if_pos page]

/-- Rows 6 and 8 of an instance that is live. -/
theorem hostRequest_notPage (notPage : b ≠ 0) :
    hostRequest s r =
      if (instOf s i).frozen || (instOf s i).halted || (instOf s i).resetting then notLive (leaveL1 s r.link) r f
      else toWindow (leaveL1 s r.link) r f i b (dwAddr r - barBase s r.link f b) := by
  rw [hostRequest_bar up credit row hit, toFunction_instance (i := i) _ (fun z => absurd z notPage)
    (fun lk => by simpa using (locked lk).2) (by simpa using mgr) (by simpa using bound) (by simpa using alive), if_neg notPage,
    instOf_leaveL1]

/-- Row 8 goes to window resolution. -/
theorem hostRequest_window (notPage : b ≠ 0) (thawed : (instOf s i).frozen = false) (runs : (instOf s i).halted = false)
    (stays : (instOf s i).resetting = false) :
    hostRequest s r = toWindow (leaveL1 s r.link) r f i b (dwAddr r - barBase s r.link f b) := by
  simp [hostRequest_notPage up credit row hit mgr bound alive locked notPage, thawed, runs, stays]

/-- R290: a frozen, halted or resetting instance takes nothing of its windows. -/
theorem hostRequest_limited (notPage : b ≠ 0)
    (limited : (instOf s i).frozen = true ∨ (instOf s i).halted = true ∨ (instOf s i).resetting = true) :
    hostRequest s r = notLive (leaveL1 s r.link) r f := by
  have any : ((instOf s i).frozen || (instOf s i).halted || (instOf s i).resetting) = true := by simpa [or_assoc] using limited
  rw [hostRequest_notPage up credit row hit mgr bound alive locked notPage, if_pos any]

end

end

theorem toControl_present {s : State} {r : Tlp} (f : Nat) {x : Nat} (shape : recoveryShape s = false)
    (there : x / 0x10000000 < s.part.tiles) :
    toControl s r f x = sendHost s r f managerInst x 0 (x / 0x10000000) 10 (dwAddr r) (4 * r.dws) true false .control := by
  simp [toControl, shape, Nat.not_le.2 there]

theorem toControl_absent {s : State} {r : Tlp} (f : Nat) {x : Nat} (shape : recoveryShape s = false)
    (absent : s.part.tiles ≤ x / 0x10000000) (one : r.dws = 1) (aligned : x % 4 = 0) (rd : r.kind = .read) :
    toControl s r f x = zeroCpl s r := by
  simp [toControl, shape, absent, one, accessBad_oneDw _ _ aligned, nonPosted, rd]

theorem toPage_allowed {s : State} {r : Tlp} (f i : Nat) {x : Nat}
    (good : accessBad (x + (span r.dws r.fbe r.lbe).1) (span r.dws r.fbe r.lbe).2 = none) :
    toPage s r f i x = sendHost s r f i x 0 (homeTile i) 10 (dwAddr r) (4 * r.dws) false false .page := by
  simp only [toPage, good]

/-- What goes on to window resolution: its frame, and the posted record of a write. -/
theorem toWindow_from_L0 {s : State} {r : Tlp} (f i b x : Nat) (free : r.kind = .write ∨ (freeInb s (r.link / 4)).isSome = true) :
    let s' := toWindow (leaveL1 s r.link) r f i b x
    SentOn s s' r f i x b (homeTile i) 12 (dwAddr r + (span r.dws r.fbe r.lbe).1) (span r.dws r.fbe r.lbe).2 false .window ∧
    (r.kind = .write → ∃ p, s'.brg.posted = s.brg.posted ++ [p] ∧ p.serial = s.brg.serial ∧ p.inst = i ∧
      p.fromHost = some r.link ∧ p.resolved = false) ∧
    hls s' r.link 24 4 = (if hls s r.link 24 4 = 6 then 5 else hls s r.link 24 4) ∧
    RegsBut (at_ (r.link / 4) (hptOf r.link 0)) s s' ∧ Same [.regs, .swc, .brg, .host] s s' := by
  obtain ⟨sent, l0, others, same⟩ := sentOn_from_L0 (s := s) (r := r) f i x b (homeTile i) 12
    (dwAddr r + (span r.dws r.fbe r.lbe).1) (span r.dws r.fbe r.lbe).2 false true .window free
  refine ⟨sent, fun w => ?_, l0, others, same⟩
  rw [← brg_leaveL1 s r.link]
  exact sendHost_posts f i x b _ _ _ _ false .window w

end Sys2Proof.Laws

namespace Sys2Proof.Laws

open Sys2Proof Sys2Proof.Machine

/-! ## The registers of the switch core's block (R186, R206) -/

/-- A register of block 3, the switch core's. -/
def swcBlock (_ off : Nat) : Prop := off / 0x1000000 = 3

theorem acctField_swcBlock {a : Acct} {o lo n size : Nat} (e : acctField a = some (o, lo, n, size)) (t : Nat) :
    o < 0x10000000 ∧ swcBlock t o := by
  unfold acctField at e
  split at e <;> cases e <;> exact ⟨by decide, rfl⟩

/-- The cells a stored frame gives back are counted in the switch core's registers. -/
theorem uncharge_regsBut (s : State) (t : Nat) (x : Stored) : RegsBut swcBlock s (uncharge s t x) := by
  unfold uncharge
  split
  · split
    · exact .of_regs (creditReturn_within.same .regs rfl)
    · exact .of_regs rfl
  · exact wreg_regsBut _ (by decide) rfl
  · split
    · rename_i o lo w size e
      obtain ⟨lt, inBlock⟩ := acctField_swcBlock e t
      exact wreg_regsBut _ lt inBlock
    · exact .of_regs rfl

theorem dropRef_regsBut (s : State) (t id : Nat) : RegsBut swcBlock s (dropRef s t id) := by
  unfold dropRef
  split
  · exact .of_regs rfl
  · rename_i x _
    split
    · have freed : RegsBut swcBlock s (uncharge (delStored s t id) t x) := .trans (.of_regs rfl) (uncharge_regsBut (delStored s t id) t x)
      dsimp only
      split
      · exact freed.trans (wreg_regsBut _ (by decide) rfl)
      · exact freed
    · exact .of_regs rfl

theorem popHead_regsBut (s : State) (t i c : Nat) : RegsBut swcBlock s (popHead s t 17 i c) := by
  unfold popHead
  dsimp only
  split
  · exact .of_regs rfl
  · exact .trans (wreg_regsBut (s := setQueue s _ _) _ (by decide) (by rfl)) (.of_regs rfl)

/-! ## The head of a queue leaves (R191, R202) -/

theorem dropRef_swc (s : State) (t id : Nat) : ∃ frames, (dropRef s t id).swc = { s.swc with frames := frames } := by
  unfold dropRef
  split
  · exact ⟨s.swc.frames, rfl⟩
  · rename_i x _
    split
    · have freed : (uncharge (delStored s t id) t x).swc = (delStored s t id).swc := uncharge_within.same .swc rfl
      refine ⟨(delStored s t id).swc.frames, ?_⟩
      dsimp only
      split
      · exact freed
      · exact freed
    · exact ⟨_, rfl⟩

theorem popHead_swc {s : State} {t o i c : Nat} {p : Nat × Option (Nat × Nat)} {rest : List (Nat × Option (Nat × Nat))}
    (queue : queueOf s (qKey t o i c) = p :: rest) : ∃ urgent,
    (popHead s t o i c).swc = { s.swc with queues := Tbl.set [] s.swc.queues (qKey t o i c) rest, urgent := urgent } := by
  unfold popHead
  simp only [queue]
  exact ⟨_, rfl⟩

theorem countFrame_swc (s : State) (t p : Nat) (received : Bool) (cells : Nat) :
    ∃ counts, (countFrame s t p received cells).swc = { s.swc with counts := counts } := ⟨_, rfl⟩

theorem headOf_some {s : State} {t o i c id : Nat} {q : Option (Nat × Nat)} {x : Stored} (head : headOf s t o i c = some (id, q, x)) :
    ∃ rest, queueOf s (qKey t o i c) = (id, q) :: rest := by
  unfold headOf at head
  split at head
  · cases head
  · rename_i p rest e
    obtain ⟨y, _, same⟩ := Option.map_eq_some_iff.1 head
    cases same
    exact ⟨rest, e⟩

/-- A request for the management port, at the head of its queue, is the one thing the port acts on once it is sent. Between, the
frame has left its queue and its account, and nothing else has changed. -/
theorem mgmtRun_sendHead {s : State} {t i c id : Nat} {q : Option (Nat × Nat)} {x : Stored}
    (head : headOf s t 17 i c = some (id, q, x)) (single : x.f.mc = none) (whole : x.f.lack = 0) (request : x.f.pkt.isRsp = false)
    (idle : Tbl.get [] s.swc.mgmt t = []) :
    ∃ s', mgmtRun (sendHead s t 17 i c) t = mgmtAct t s' { x.f with credit := none } ∧ Within [.regs, .swc, .lode] s s' ∧
      RegsBut swcBlock s s' ∧ s'.swc.ingress = s.swc.ingress ∧
      queueOf s' (qKey t 17 i c) = (queueOf s (qKey t 17 i c)).tail := by
  obtain ⟨rest, queue⟩ := headOf_some head
  let s1 := countFrame (dropRef (popHead s t 17 i c) t id) t 10 false x.cells
  obtain ⟨urgent, popped⟩ := popHead_swc queue
  obtain ⟨frames, dropped⟩ := dropRef_swc (popHead s t 17 i c) t id
  obtain ⟨counts, counted⟩ := countFrame_swc (dropRef (popHead s t 17 i c) t id) t 10 false x.cells
  have swc : s1.swc = { s.swc with
      queues := Tbl.set [] s.swc.queues (qKey t 17 i c) rest, urgent := urgent, frames := frames, counts := counts } := by
    rw [counted, dropped, popped]
  have sent : sendHead s t 17 i c =
      { s1 with swc := { s1.swc with mgmt := Tbl.app s1.swc.mgmt t [{ x.f with credit := none }] } } := by
    simp [sendHead, head, single, pointed, deliver, whole, request, s1, outPort]
  refine ⟨{ s1 with swc := { s1.swc with mgmt := Tbl.set [] (Tbl.app s1.swc.mgmt t [{ x.f with credit := none }]) t [] } },
    ?_, ?_, ?_, ?_, ?_⟩
  · have given : Tbl.get [] s1.swc.mgmt t = [] := by rw [swc]; exact idle
    rw [sent, mgmtRun]
    simp [given]
  · exact .step (upd_swc ..) rfl (.step countFrame_within rfl (.step dropRef_within rfl (.step popHead_within rfl (.refl _ _))))
  · exact (popHead_regsBut s t i c).trans ((dropRef_regsBut _ t id).trans (.of_regs rfl))
  · simp only [swc]
  · simp only [queueOf, swc, get_set_same]
    rw [queueOf] at queue
    rw [queue]
    rfl

/-! ## The turn of an output (R191, R192) -/

/-- The deficits of the outputs put anew. -/
def withDeficits (s : State) (D : Tbl Int) : State := { s with swc := { s.swc with deficit := D } }

/-- The deficits, and the classes and inputs last served, put anew: what the choice and the serving of a queue record. -/
def withTurns (s : State) (D : Tbl Int) (C I : Tbl Nat) : State :=
  { s with swc := { s.swc with deficit := D, clsTurn := C, inTurn := I } }

/-- Clearing the deficits of the classes that are not in `cs` leaves those of `cs` alone (R191). -/
theorem clearDeficits (t o : Nat) (cs l : List Nat) (s : State) : ∃ D,
    l.foldl (fun s c => if cs.contains c then s else setDeficit s t o c 0) s = withDeficits s D ∧
    ∀ c, cs.contains c = true → deficitOf (withDeficits s D) t o c = deficitOf s t o c := by
  induction l generalizing s with
  | nil => exact ⟨s.swc.deficit, rfl, fun _ _ => rfl⟩
  | cons d l ih =>
    rw [List.foldl_cons]
    split
    · exact ih s
    · rename_i out
      obtain ⟨D, cleared, kept⟩ := ih (setDeficit s t o d 0)
      refine ⟨D, cleared, fun c hc => (kept c hc).trans ?_⟩
      have ne : c ≠ d := fun same => out (same ▸ hc)
      exact get_set_other (0 : Int) 0 s.swc.deficit 0 (by omega)

/-- The one class that has an eligible frame and a deficit above zero sends next. -/
theorem pickClass_only {s : State} {t o c : Nat} {cs : List Nat} (n : Nat) (lt : c < 4) (mem : cs.contains c = true)
    (only : ∀ d, cs.contains d = true → d = c) (credit : 0 < deficitOf s t o c) : pickClass s t o cs (n + 1) = (some c, s) := by
  let cur := Tbl.get 0 s.swc.clsTurn (t * 19 + o)
  let p := fun d => cs.contains d && decide (0 < deficitOf s t o d)
  have holds : p c = true := by simp only [p, mem, credit, decide_true, Bool.and_true]
  have met : c ∈ (List.range 4).map (fun k => (cur + k) % 4) :=
    List.mem_map.2 ⟨(c + 4 - cur % 4) % 4, List.mem_range.2 (by omega), by omega⟩
  have found : ((List.range 4).map (fun k => (cur + k) % 4)).find? p = some c := by
    cases e : ((List.range 4).map (fun k => (cur + k) % 4)).find? p with
    | none => exact absurd holds (by simpa using List.find?_eq_none.1 e c met)
    | some d =>
      have := List.find?_some e
      simp only [p, Bool.and_eq_true] at this
      rw [only d this.1]
  simp only [pickClass]
  split
  · rename_i d e
    rw [found] at e
    cases e
    rfl
  · rename_i e
    rw [found] at e
    cases e

/-- With one class eligible, not urgent and in credit, its first eligible input is served. -/
theorem choose_only {s : State} {t o i c : Nat} {l : List Nat} (lt : c < 4) (calm : s.swc.urgent = [])
    (inputs : inputsOf s t o c = i :: l) (alone : ∀ d, d < 4 → d ≠ c → inputsOf s t o d = []) (credit : 0 < deficitOf s t o c) :
    ∃ D, choose s t o = (some (i, c, false), withDeficits s D) := by
  let cs := (List.range 4).filter (fun c => !(inputsOf s t o c).isEmpty)
  have mem : cs.contains c = true := by simp [cs, lt, inputs]
  have only : ∀ d, cs.contains d = true → d = c := by
    intro d hd
    simp only [cs, List.contains_iff_mem, List.mem_filter, List.mem_range] at hd
    refine Decidable.by_contra fun ne => ?_
    simp [alone d hd.1 ne] at hd
  obtain ⟨D, cleared, kept⟩ := clearDeficits t o cs (List.range 4) s
  have picked := pickClass_only (s := withDeficits s D) (t := t) (o := o) 63 lt mem only
    (by rwa [kept c mem])
  have same : inputsOf (withDeficits s D) t o c = i :: l := inputs
  refine ⟨D, ?_⟩
  simp only [choose, calm, List.find?_nil]
  rw [cleared, picked]
  simp only [same, List.head?_cons, Option.map_some]

/-- A head that is whole, of its age and free of errors is sent in its turn. -/
theorem serve_sound {s : State} {t o i c id : Nat} {q : Option (Nat × Nat)} {x : Stored} (head : headOf s t o i c = some (id, q, x))
    (good : x.f.bad = false) (young : aged s t x = false) (sound : x.ecc = none) : ∃ D C I,
    serve s t o i c false ⟨0, none⟩ = sendHead (withTurns s D C I) t o i c := by
  simp only [serve, head, good, young, Bool.false_eq_true, if_false, eccRead, eccCorrected, sound, if_true]
  exact ⟨_, _, _, rfl⟩

theorem arbitrate_turn {s : State} {t o i c id : Nat} {q : Option (Nat × Nat)} {x : Stored} (turn : TurnOf s t o i c id q x) :
    ∃ D C I, arbitrate s t o ⟨0, none⟩ = sendHead (withTurns s D C I) t o i c := by
  obtain ⟨lt, calm, ⟨l, inputs⟩, alone, credit, _, head, good, young, sound⟩ := turn
  obtain ⟨D, chosen⟩ := choose_only lt calm inputs alone credit
  obtain ⟨D', C, I, sent⟩ := serve_sound (s := withDeficits s D) head good young sound
  exact ⟨D', C, I, by rw [arbitrate, chosen]; exact sent⟩

/-- A turn of the management port's output that falls on a request: the port acts on it, the frame having left its queue and its
account. -/
theorem mgmtRun_arbitrate {s : State} {t i c id : Nat} {q : Option (Nat × Nat)} {x : Stored} (turn : TurnOf s t 17 i c id q x)
    (single : x.f.mc = none) (whole : x.f.lack = 0) (request : x.f.pkt.isRsp = false) :
    ∃ s', mgmtRun (arbitrate s t 17 ⟨0, none⟩) t = mgmtAct t s' { x.f with credit := none } ∧ Within [.regs, .swc, .lode] s s' ∧
      RegsBut swcBlock s s' ∧ s'.swc.ingress = s.swc.ingress ∧
      queueOf s' (qKey t 17 i c) = (queueOf s (qKey t 17 i c)).tail := by
  obtain ⟨D, C, I, sent⟩ := arbitrate_turn turn
  obtain ⟨_, _, _, _, _, idle, head, _⟩ := turn
  obtain ⟨s', acts, within1, others, ingress, popped⟩ := mgmtRun_sendHead
    (s := withTurns s D C I) head single whole request idle
  refine ⟨s', by rw [sent]; exact acts, ?_, .trans (.of_regs rfl) others, ingress, popped⟩
  exact .trans ((upd_swc ..).mono rfl) within1

end Sys2Proof.Laws

namespace Sys2Proof.Laws

open Sys2Proof Sys2Proof.Machine

/-! ## The management port acts (R22, R75) -/

theorem completes_outputArbitration {s s' : State} {t o : Nat} {e : CellRead} {P : State → Prop} (there : t < s.part.tiles)
    (out : o < 19) (acts : mgmtRun (arbitrate s t o e) t = s') (holds : P s') : Completes (.outputArbitration t o e) s P := by
  have ok : outOk s t o = true := by simp [outOk, there, out]
  exact ⟨s', by simp [exec, execOutputArbitration, onUnit, ok, acts], holds⟩

/-- A DW of a page's doorbell or queue context area (R73). -/
def queueAreaWord (s : State) (i off : Nat) : Word :=
  let k := (off - 0x4000) / 64
  if 0x4000 ≤ off ∧ k < (instOf s i).qCount then qw s (homeTile i) ((instOf s i).qBase + k) (off % 64 / 4) else 0

/-- A read of the doorbell or queue context area has no side effect, where no write posted before it waits. -/
theorem pageReadNow_queueArea {s : State} {i off : Nat} (low : off < 0x8000)
    (clear : Tbl.get [] s.bus.xq (xqKey (homeTile i) 17) = []) : pageReadNow s i off = (queueAreaWord s i off, s) := by
  have crossed : crossAll s (homeTile i) (pageDomain off) = s := by
    rw [pageDomain, if_pos low, crossAll, clear, List.foldl_nil]
  rw [pageReadNow, crossed]
  simp only [pageRead, queueAreaWord]
  split
  · rw [if_neg (by omega)]
  · simp [show 0x4000 ≤ off by omega]

/-- The management port's answer to a host's request. -/
theorem mgmtRsp_inbound {s : State} {t u e : Nat} {f : Frame} (status : Nat) (data : List Byte) (asked : f.issuer = .inbound u e) :
    mgmtRsp s t f status data = enter (newSerial s).2
      { serial := s.brg.serial, pkt := rspPkt f.pkt status data false, srcTile := t, srcPort := 10, dstTile := f.srcTile,
        dstPort := f.srcPort, dstSub := f.srcSub, issuer := f.issuer, links := f.links } := by
  simp only [mgmtRsp, asked]
  rfl

/-- A read of one DW of the doorbell or queue context area is answered with its word. -/
theorem mgmtAct_pageRead {s : State} {t : Nat} {f : Frame} {r : HReq} (cargo : f.cargo = .page r) (rd : r.kind = .read)
    (one : r.dws = 1) (low : r.off < 0x8000) (home : homeTile r.inst = t) (clear : Tbl.get [] s.bus.xq (xqKey t 17) = []) :
    mgmtAct t s f = mgmtRsp s t f 0 (wordBytes (queueAreaWord s r.inst r.off)) := by
  subst home
  simp [mgmtAct, cargo, pageAccess, rd, one, readSeries, pageReadNow_queueArea low clear]

/-- A write of one DW of a register that control space takes is posted into the register's domain. -/
theorem mgmtAct_controlWrite {s : State} {t : Nat} {f : Frame} {r : HReq} (cargo : f.cargo = .control r) (w : r.kind = .write)
    (one : r.dws = 1) (aligned : r.off % 4 = 0) (tile : r.off / 0x10000000 = t) (there : t < s.part.tiles)
    (opened : portsClosed s t = false) (answers : regOpen s t (r.off % 0x10000000) = true)
    (reg : regThere s t (r.off % 0x10000000) = true) (dom : blockDomain (r.off % 0x10000000 / 0x1000000) ≠ 21) :
    mgmtAct t s f = post s t (blockDomain (r.off % 0x10000000 / 0x1000000))
      (.reg (r.off % 0x10000000) r.fbe (wordOf (bytesAt r.data 0 4))) := by
  subst tile
  have oneDw : dwParts 1 r.fbe r.lbe r.data = [(0, r.fbe, wordOf (bytesAt r.data 0 4))] := rfl
  have written : ctlSpaceWrite s r.off r.fbe (wordOf (bytesAt r.data 0 4)) =
      busWrite s (r.off / 0x10000000) (r.off % 0x10000000) r.fbe (wordOf (bytesAt r.data 0 4)) := by
    simp [ctlSpaceWrite, ctlClosed, opened, Nat.not_le.2 there]
  simp only [mgmtAct, cargo, ctlAccess, one, accessBad_oneDw _ _ aligned, w, if_true, oneDw, List.foldl_cons, List.foldl_nil,
    Nat.mul_zero, Nat.add_zero, written, busWrite, answers, reg, Bool.true_eq_false, if_false, dom]

/-! ## What the sending of a frame to the management port leaves as it was -/

section
variable {s s' : State} (same : Within [.regs, .swc, .lode] s s')
include same

theorem queueAreaWord_sent (i off : Nat) : queueAreaWord s' i off = queueAreaWord s i off := by
  have ins : s'.ins = s.ins := same.same .ins rfl
  have dma : s'.dma = s.dma := same.same .dma rfl
  unfold queueAreaWord instOf qw
  rw [ins, dma]

theorem portsClosed_sent (t : Nat) : portsClosed s' t = portsClosed s t := by
  have core : s'.core = s.core := same.same .core rfl
  have modes : s'.modes = s.modes := same.same .modes rfl
  unfold portsClosed mode tileMode tileSt
  rw [core, modes]

theorem regThere_sent (t off : Nat) : regThere s' t off = regThere s t off := by
  have host : s'.host = s.host := same.same .host rfl
  simp only [regThere, inMgrTable, mgrTile, managerLink, pfsOf, same.keeps.part, host]

end

theorem regOpen_sent {s s' : State} (others : RegsBut swcBlock s s') (t off : Nat) : regOpen s' t off = regOpen s t off := by
  have status : rreg s' 0 0xA000000 = rreg s 0 0xA000000 := others _ _ (by decide) (by unfold swcBlock; decide)
  have latch : rreg s' 0 0x118 = rreg s 0 0x118 := others _ _ (by decide) (by unfold swcBlock; decide)
  simp only [regOpen, recoveryShape, gf, status, latch]

theorem portsClosed_of_tileOpen {s : State} {t : Nat} (opened : TileOpen s t) : portsClosed s t = false := by
  obtain ⟨_, runs, unfenced, stays, _⟩ := opened
  simp [portsClosed, unfenced, stays]
  omega

theorem regOpen_of_tileOpen {s : State} {t : Nat} (opened : TileOpen s t) (off : Nat) : regOpen s t off = true := by
  obtain ⟨_, _, _, _, shape, latch⟩ := opened
  simp [regOpen, recoveryShape, shape, latch]

/-! ## The turns of the management port -/

section
variable {s : State} {t i c id : Nat} {q : Option (Nat × Nat)} {x : Stored} {r : HReq} (there : t < s.part.tiles)
  (turn : TurnOf s t 17 i c id q x) (single : x.f.mc = none) (whole : x.f.lack = 0) (request : x.f.pkt.isRsp = false)
  (one : r.dws = 1)
include there turn single whole request one

theorem pageRead_turn {u e : Nat} (cargo : x.f.cargo = .page r) (asked : x.f.issuer = .inbound u e) (rd : r.kind = .read)
    (low : r.off < 0x8000) (home : homeTile r.inst = t) (clear : Tbl.get [] s.bus.xq (xqKey t 17) = []) :
    Completes (.outputArbitration t 17 ⟨0, none⟩) s fun s' =>
      (∃ y, Tbl.get [] s'.swc.ingress (ingKey t 10 0) = Tbl.get [] s.swc.ingress (ingKey t 10 0) ++ [y] ∧ y.pkt.ty = .rspD ∧
        y.pkt.data = wordBytes (queueAreaWord s r.inst r.off) ∧ y.issuer = x.f.issuer ∧ y.dstTile = x.f.srcTile ∧
        y.dstPort = x.f.srcPort ∧ y.dstSub = x.f.srcSub) ∧
      queueOf s' (qKey t 17 i c) = (queueOf s (qKey t 17 i c)).tail ∧ Same [.regs, .swc, .brg, .lode] s s' := by
  obtain ⟨s1, acts, same, others, ingress, popped⟩ := mgmtRun_arbitrate turn single whole request
  have bus : s1.bus = s.bus := same.same .bus rfl
  have read := mgmtAct_pageRead (f := { x.f with credit := none }) cargo rd one low home (by rwa [bus])
  rw [mgmtRsp_inbound (f := { x.f with credit := none }) _ _ asked, queueAreaWord_sent same] at read
  refine completes_outputArbitration there (by decide) (acts.trans read) ⟨?_, popped, ?_⟩
  · rw [← ingress]
    exact ⟨_, get_app_same .., rfl, rfl, rfl, rfl, rfl, rfl⟩
  · exact (Within.step enter_within rfl (.step newSerial_within rfl (same.mono rfl))).same

theorem controlWrite_turn (aligned : r.off % 4 = 0) (cargo : x.f.cargo = .control r) (w : r.kind = .write)
    (tile : r.off / 0x10000000 = t) (opened : TileOpen s t) (reg : regThere s t (r.off % 0x10000000) = true)
    (dom : blockDomain (r.off % 0x10000000 / 0x1000000) ≠ 21) :
    Completes (.outputArbitration t 17 ⟨0, none⟩) s fun s' =>
      s'.bus = (post s t (blockDomain (r.off % 0x10000000 / 0x1000000))
        (.reg (r.off % 0x10000000) r.fbe (wordOf (bytesAt r.data 0 4)))).bus ∧
      queueOf s' (qKey t 17 i c) = (queueOf s (qKey t 17 i c)).tail ∧ Same [.regs, .bus, .swc, .lode] s s' := by
  obtain ⟨s1, acts, same, others, _, popped⟩ := mgmtRun_arbitrate turn single whole request
  have bus : s1.bus = s.bus := same.same .bus rfl
  have written := mgmtAct_controlWrite (s := s1) (f := { x.f with credit := none }) cargo w one aligned tile
    (by rwa [same.keeps.part]) ((portsClosed_sent same t).trans (portsClosed_of_tileOpen opened))
    ((regOpen_sent others t _).trans (regOpen_of_tileOpen opened _)) ((regThere_sent same t _).trans reg) dom
  refine completes_outputArbitration there (by decide) (acts.trans written) ⟨?_, popped, ?_⟩
  · simp only [post, bus]
  · exact (Within.step post_within rfl (same.mono rfl)).same

end

end Sys2Proof.Laws

namespace Sys2Proof.Laws

open Sys2Proof Sys2Proof.Machine

/-- Settles O43: row by row of the host port's table, each row from the equation of `hostRequest` under that row's conditions;
then the two turns of the management port. -/
theorem hostRequestsFollowTheirTable : Obligations.HostRequestsFollowTheirTable := by
  unfold Obligations.HostRequestsFollowTheirTable
  constructor
  · intro s r present
    refine ⟨fun no => ?_, fun up credit => ?_⟩
    · obtain ⟨s', run, rfl⟩ := completes_hostMemoryRequest (P := fun s' => s' = s) present (hostRequest_ignored no) rfl
      exact run
    intro u a l1 x
    refine ⟨fun k row => ?_, fun row => ⟨fun hit => ?_, fun f hit mgr shape kind => ?_, fun f b i hit mgr bound alive locked => ?_⟩⟩
    · exact completes_hostMemoryRequest present (hostRequest_rowOne up credit row) (rowOne_logged row)
    · exact completes_hostMemoryRequest present (hostRequest_noBar up credit row hit) (noBar_answered s r)
    · intro off
      have row5 := hostRequest_manager up credit row hit mgr kind
      refine ⟨fun there free => ?_, fun absent rd one => ?_⟩
      · rw [toControl_present f (by simpa using shape) (by simpa using there)] at row5
        exact completes_hostMemoryRequest present row5
          (sentOn_from_L0 f managerInst off 0 (off / 0x10000000) 10 a (4 * r.dws) true false .control free)
      · have aligned : off % 4 = 0 := by have := barBase_aligned s r.link f; omega
        rw [toControl_absent f (by simpa using shape) (by simpa using absent) one aligned rd] at row5
        exact completes_hostMemoryRequest present row5 (absentTile_answered one)
    · intro y off
      refine ⟨fun notPage thawed runs stays free => ?_, fun notPage limited => ?_, fun page kind => ?_⟩
      · exact completes_hostMemoryRequest present
          (hostRequest_window up credit row hit mgr bound alive locked notPage thawed runs stays) (toWindow_from_L0 f i b off free)
      · have row6 := hostRequest_limited up credit row hit mgr bound alive locked notPage limited
        exact ⟨fun w => completes_hostMemoryRequest present row6 (notLive_write f w),
          fun np => completes_hostMemoryRequest present row6 (notLive_nonPosted f np)⟩
      · have row7 := hostRequest_page up credit row hit mgr bound alive locked page kind
        refine ⟨fun good free => ?_, fun bad => completes_hostMemoryRequest present row7 (toPage_refused f i bad)⟩
        rw [toPage_allowed f i good] at row7
        exact completes_hostMemoryRequest present row7
          (sentOn_from_L0 f i off 0 (homeTile i) 10 a (4 * r.dws) false false .page free)
  · intro s t i c id q x r there turn single whole request one aligned
    refine ⟨fun u e cargo asked rd low home clear => ?_, fun cargo w tile opened reg dom => ?_⟩
    · subst home
      exact pageRead_turn there turn single whole request one cargo asked rd low rfl clear
    · exact controlWrite_turn there turn single whole request one aligned cargo w tile opened reg dom

end Sys2Proof.Laws

namespace Sys2Proof.Machine

open Sys2Proof.Laws

/-! ## The OTP region through a change of other groups -/

theorem Within.otp_eq {l : List Grp} {a b : State} (h : Within l a b) (other : l.contains .otp = false) : b.otp = a.otp :=
  h.same .otp other

theorem Within.floor_eq {l : List Grp} {a b : State} (h : Within l a b) (other : l.contains .otp = false) :
    b.otp.floor = a.otp.floor := by rw [h.otp_eq other]

/-! ## Registers through changes folded over a list -/

theorem RegsBut.foldl {α : Type} {p : Nat → Nat → Prop} {f : State → α → State} {xs : List α}
    (h : ∀ s, ∀ x ∈ xs, RegsBut p s (f s x)) (s : State) : RegsBut p s (xs.foldl f s) := by
  induction xs generalizing s with
  | nil => exact .of_regs rfl
  | cons x xs ih => exact (h s x List.mem_cons_self).trans (ih (fun s y hy => h s y (List.mem_cons_of_mem _ hy)) _)

end Sys2Proof.Machine

namespace Sys2Proof.Laws

open Sys2Proof Sys2Proof.Machine

/-! ## What a step runs -/

/-- A step is a crystal tick or the front command, on the queue's rest. -/
theorem step_cases {s s' : State} (run : step s = .next s') :
    s.pending = [] ∧ s' = crystalTick s ∨ ∃ c rest, s.pending = c :: rest ∧ exec c { s with pending := rest } = .next s' := by
  unfold step at run
  split at run
  case h_1 idle => exact .inl ⟨idle, by cases run; rfl⟩
  case h_2 c rest front => exact .inr ⟨c, rest, front, run⟩

/-- But for the queue, a step undoes nothing that no command and no tick undoes. -/
theorem step_keeps {s s' : State} (run : step s = .next s') : ∃ q, Keeps { s with pending := q } s' := by
  rcases step_cases run with ⟨_, rfl⟩ | ⟨c, rest, _, done⟩
  · exact ⟨s.pending, crystalTick_within.keeps⟩
  · exact ⟨rest, exec_keeps done⟩

/-- Settles O5: what `Keeps` says of every command and of the tick, read off for a step. -/
theorem stepKeepsWhatLasts : Obligations.StepKeepsWhatLasts := by
  intro s s' run
  obtain ⟨q, keeps⟩ := step_keeps run
  exact ⟨keeps.part, keeps.fuses, keeps.floor, keeps.keyHash, keeps.outbox⟩

/-! ## Fields of one bit -/

theorem gf_one_bit (s : State) (t off lo : Nat) : gf s t off lo 1 = 0 ∨ gf s t off lo 1 = 1 := by
  have small := fld_lt (rreg s t off) lo 1
  unfold gf
  omega

/-! ## The rollback floor through the start-up (R45, R46) -/

/-- The choice at start-up may turn the marker; the rest of the OTP region stands. -/
theorem chooseImage_floor (s : State) : (chooseImage s).1.otp.floor = s.otp.floor := by
  have report : ∀ l maker, (putReport s l maker).otp = s.otp := fun _ _ => putReport_within.otp_eq rfl
  unfold chooseImage
  dsimp only
  split
  · split <;> simp [restoreSlot, report]
  · simp [report]

theorem startShape_floor (s : State) : (startShape s).otp.floor = s.otp.floor := by
  have chosen : (chooseImage (bootStage s 4)).1.otp.floor = s.otp.floor := chooseImage_floor _
  unfold startShape
  generalize chooseImage (bootStage s 4) = found at chosen ⊢
  obtain ⟨s1, cand⟩ := found
  dsimp only at chosen ⊢
  split
  · exact (startRecovery_within.floor_eq rfl).trans chosen
  · exact (startImage_within.floor_eq rfl).trans chosen

/-- The groups the start-up may change before its choice of an image; the OTP region is none of them. -/
def startGroups : List Grp :=
  [.regs, .modes, .core, .mem, .evc, .flt, .trc, .swc, .brg, .lode, .host, .wtt, .ins, .dma, .cal, .age, .outbox, .fresh]

theorem packageStart_floor (s : State) (mgrSel : Bool) (pkgId : Nat) : (packageStart s mgrSel pkgId).otp.floor = s.otp.floor := by
  unfold packageStart
  split
  · rfl
  · extract_lets core awake fiddlehead cal stopSeen linked used looked
    have h1 : Within startGroups s awake := (upd_core s awake.core rfl).mono rfl
    have h2 : Within startGroups s fiddlehead := .step setMode_within rfl (.step galStraps_within rfl h1)
    have h3 : Within startGroups s stopSeen := .ite (.step recordFault_within rfl (.step (upd_cal ..) rfl h2)) h2
    have h4 : Within startGroups s linked :=
      .step bootStage_within rfl (.step startTileLinks_within rfl (.step enableTiles_within rfl (.step startCore_within rfl h3)))
    have h5 : Within startGroups s looked := .step sf_within rfl h4
    have before : looked.otp.floor = s.otp.floor := h5.floor_eq rfl
    split
    · exact before
    · split
      · exact (fatalBoot_within.floor_eq rfl).trans before
      · exact (startShape_floor looked).trans before

/-! ## The commands of the image controller -/

/-- What follows the work of a command: no command runs, and STR_STATUS shows the result and no BUSY (R47, R48). -/
def strEnd (s : State) (code : Nat) : State :=
  sf (sf { s with str := { s.str with run := none } } 0 0xA000000 16 8 code) 0 0xA000000 4 1 0

theorem strDone_idle {s : State} (idle : s.str.run = none) : strDone s = s := by simp only [strDone, idle]

theorem strDone_blocked {s : State} {cmd : Nat} (run : s.str.run = some (cmd, true)) : strDone s = strEnd s 8 := by
  simp only [strDone, run, if_true]; rfl

theorem strDone_free {s : State} {cmd : Nat} (run : s.str.run = some (cmd, false)) :
    strDone s = strEnd (strRun s cmd).1 (strRun s cmd).2 := by
  simp only [strDone, run, Bool.false_eq_true, if_false]; rfl

@[simp] theorem strEnd_otp (s : State) (code : Nat) : (strEnd s code).otp = s.otp := rfl
@[simp] theorem strEnd_mem (s : State) (code : Nat) : (strEnd s code).mem = s.mem := rfl
@[simp] theorem strEnd_run (s : State) (code : Nat) : (strEnd s code).str.run = none := rfl
@[simp] theorem strEnd_copies (s : State) (code : Nat) : (strEnd s code).str.copies = s.str.copies := rfl

@[simp] theorem strEnd_busy (s : State) (code : Nat) : gf (strEnd s code) 0 0xA000000 4 1 = 0 :=
  gf_sf_same _ _ _ _ _ _ (by decide)

@[simp] theorem strEnd_result (s : State) (code : Nat) : gf (strEnd s code) 0 0xA000000 16 8 = code % 256 := by
  rw [strEnd, gf_sf_field _ _ _ _ _ _ _ _ (by decide) (by decide)]
  exact gf_sf_same _ _ _ _ _ _ (by decide)

/-- The other fields of STR_STATUS below LAST_RESULT. -/
theorem strEnd_field (s : State) (code : Nat) {lo n : Nat} (below : lo + n ≤ 4 ∨ 5 ≤ lo ∧ lo + n ≤ 16) :
    gf (strEnd s code) 0 0xA000000 lo n = gf s 0 0xA000000 lo n := by
  rw [strEnd, gf_sf_field _ _ _ _ _ _ _ _ (by omega) (by omega), gf_sf_field _ _ _ _ _ _ _ _ (by omega) (by omega)]
  exact gf_congr rfl ..

theorem strEnd_regsBut (s : State) (code : Nat) : RegsBut (at_ 0 0xA000000) s (strEnd s code) :=
  (RegsBut.of_regs rfl).trans ((wreg_regsBut _ (by decide) ⟨rfl, rfl⟩).trans (wreg_regsBut _ (by decide) ⟨rfl, rfl⟩))

/-! ## ACTIVATE (R49) -/

/-- Any register but STR_STATUS. -/
def notStatus (_ off : Nat) : Prop := off ≠ 0xA000000

theorem sf_notStatus (s : State) (t : Nat) {off : Nat} (lo n v : Nat) (lt : off < 0x10000000) (ne : off ≠ 0xA000000) :
    RegsBut notStatus s (sf s t off lo n v) := wreg_regsBut _ lt ne

theorem applySwitch_notStatus (s : State) (x : Image) : RegsBut notStatus s (applySwitch s x) := by
  unfold applySwitch
  refine .foldl (fun s t _ => .trans (.foldl (fun s c mem => ?_) s) (wreg_regsBut _ (by decide) (by unfold notStatus; decide))) s
  have := List.mem_range.1 mem
  exact wreg_regsBut _ (by omega) (by unfold notStatus; omega)

theorem applyFault_notStatus (s : State) (x : Image) : RegsBut notStatus s (applyFault s x) := by
  unfold applyFault
  refine .foldl (fun s t _ => .foldl (fun s b hb => .foldl (fun s c hc => ?_) s) s) s
  have := List.mem_range.1 hb
  have := List.mem_range.1 hc
  exact wreg_regsBut _ (by unfold fltB; omega) (by unfold notStatus fltB; omega)

/-- A change of the switch core and of registers other than STR_STATUS, as ACTIVATE makes of the tables and PENDING flags (R49). -/
structure TablesOnly (s s' : State) : Prop where
  within : Within [.regs, .swc] s s'
  status : RegsBut notStatus s s'

theorem TablesOnly.trans {a b c : State} (h : TablesOnly a b) (h' : TablesOnly b c) : TablesOnly a c :=
  ⟨h.within.trans h'.within, h.status.trans h'.status⟩

theorem TablesOnly.sf (s : State) (t : Nat) {off : Nat} (lo n v : Nat) (lt : off < 0x10000000) (ne : off ≠ 0xA000000) :
    TablesOnly s (sf s t off lo n v) := ⟨sf_within.mono rfl, sf_notStatus s t lo n v lt ne⟩

theorem TablesOnly.foldl_sf (l : List Nat) (s : State) {off : Nat} (lt : off < 0x10000000) (ne : off ≠ 0xA000000) :
    TablesOnly s (l.foldl (fun s k => Machine.sf s 0 off k 1 1) s) :=
  ⟨.foldl _ (fun _ _ h => .step sf_within rfl h) (.refl ..), .foldl (fun s k _ => sf_notStatus s 0 k 1 1 lt ne) s⟩

/-- SWITCH, MCAST and FAULT act at once (R49). -/
theorem TablesOnly.applied (s : State) (x : Image) : TablesOnly s (applyFault (applyMcast (applySwitch s x) x) x) :=
  ⟨.step applyFault_within rfl (.step applyMcast_within rfl (applySwitch_within.mono rfl)),
    (applySwitch_notStatus s x).trans (.trans (.of_regs rfl) (applyFault_notStatus (applyMcast (applySwitch s x) x) x))⟩

theorem strActivate_unverified {s : State} (no : gf s 0 0xA000000 1 1 = 0) : strActivate s = (s, 10) := if_pos no

/-- ACTIVATE of a verified slot turns the marker and clears VERIFIED, then refreshes PENDING and starts the slot's flash copy. -/
theorem strActivate_verified {s : State} (yes : gf s 0 0xA000000 1 1 = 1) :
    ∃ s1, strActivate s = (startCopy (pendingRefresh s1) (1 - activeSlot s), 0) ∧
      s1.otp = { s.otp with marker := [1 - activeSlot s, 1 - activeSlot s, 1 - activeSlot s] } ∧ s1.str = s.str ∧
      gf s1 0 0xA000000 1 1 = 0 := by
  unfold strActivate
  rw [if_neg (by omega)]
  extract_lets was slot old new otp turned shown applied links tiles marked
  have unverified : gf shown 0 0xA000000 1 1 = 0 := by
    have named : gf shown 0 0xA000000 1 1 = gf (sf (unverify turned) 0 0xA000000 0 1 slot) 0 0xA000000 1 1 := by
      rw [gf, rreg_wreg_other _ _ (key_ne (by decide) (by decide) (by decide))]; rfl
    rw [named, gf_sf_field _ _ _ _ _ _ _ _ (by decide) (by decide)]
    exact gf_sf_same _ _ _ _ _ _ (by decide)
  have upToTiles : TablesOnly shown tiles :=
    .trans (.applied shown new) (.trans (.foldl_sf _ applied (by decide) (by decide)) (.foldl_sf _ links (by decide) (by decide)))
  have awaits : ∀ s1, TablesOnly s1 (sf s1 0 0xA000014 8 1 1) := fun s1 => .sf s1 0 8 1 1 (by decide) (by decide)
  have all : TablesOnly shown marked := by
    unfold marked
    split
    · exact awaits shown
    · split
      · exact upToTiles.trans (awaits tiles)
      · exact upToTiles
  refine ⟨marked, rfl, all.within.otp_eq rfl, all.within.same .str rfl, ?_⟩
  rw [gf, all.status 0 _ (by decide) (by unfold notStatus; decide)]
  exact unverified

theorem strActivate_floor (s : State) : (strActivate s).1.otp.floor = s.otp.floor := by
  rcases gf_one_bit s 0 0xA000000 1 with no | yes
  · rw [strActivate_unverified no]
  · obtain ⟨s1, done, otp, _⟩ := strActivate_verified yes
    rw [done]
    show s1.otp.floor = _
    rw [otp]

/-! ## The rollback floor through the commands (R45) -/

theorem strEnrol_floor (s : State) : (strEnrol s).1.otp.floor = s.otp.floor := by
  unfold strEnrol
  dsimp only
  iterate 4
    split
    · rfl
  rfl

/-- Every command but COMMIT_FLOOR leaves the floor. -/
theorem strRun_floor {s : State} {cmd : Nat} (other : cmd ≠ 3) : (strRun s cmd).1.otp.floor = s.otp.floor := by
  unfold strRun
  split
  · exact strVerify_within.floor_eq rfl
  · exact strActivate_floor s
  · contradiction
  · exact strEnrol_floor s
  · exact strErase_within.floor_eq rfl
  · rfl

/-- In the recovery shape no image is active until an ACTIVATE has made one so (R45, R63). -/
def imageActive (s : State) : Prop := recoveryShape s = true → gf s 0 0xA000014 8 1 = 1

theorem strFloor_inactive {s : State} (no : ¬ imageActive s) : strFloor s = (s, 0) := by
  obtain ⟨shape, unmarked⟩ := Classical.not_imp.1 no
  exact if_pos ⟨shape, (gf_one_bit s 0 0xA000014 8).resolve_right unmarked⟩

theorem strFloor_active {s : State} (yes : imageActive s) : strFloor s =
    (wreg { s with otp := { s.otp with floor := Nat.max s.otp.floor (slotRecords s (activeSlot s)).secVer } } 0 0xA000008
      (word (Nat.max s.otp.floor (slotRecords s (activeSlot s)).secVer)), 0) := by
  refine if_neg fun inactive => ?_
  have := yes inactive.1
  omega

/-- The end of a command raises the floor only where it ends a COMMIT_FLOOR while an image is active. -/
theorem strDone_floor (s : State) : (strDone s).otp.floor = s.otp.floor ∨ s.str.run = some (3, false) ∧ imageActive s ∧
    (strDone s).otp.floor = Nat.max s.otp.floor (slotRecords s (activeSlot s)).secVer := by
  rcases e : s.str.run with _ | ⟨cmd, _ | _⟩
  · exact .inl (by rw [strDone_idle e])
  · rw [strDone_free e, strEnd_otp]
    by_cases commit : cmd = 3
    · subst commit
      show (strFloor s).1.otp.floor = _ ∨ _ ∧ _ ∧ (strFloor s).1.otp.floor = _
      by_cases active : imageActive s
      · exact .inr ⟨rfl, active, by rw [strFloor_active active]; rfl⟩
      · exact .inl (by rw [strFloor_inactive active])
    · exact .inl (strRun_floor commit)
  · exact .inl (by rw [strDone_blocked e, strEnd_otp])

/-! ## The rollback floor in a step (R45) -/

/-- The OTP region is touched by the start-up and by the end of an image command alone. -/
theorem touches_otp {c : Instr} (touched : c.touches.contains .otp = true) :
    c = .strCommandDone ∨ ∃ mgrSel pkgId, c = .packageStart mgrSel pkgId := by
  cases c with
  | strCommandDone => exact .inl rfl
  | packageStart mgrSel pkgId => exact .inr ⟨mgrSel, pkgId, rfl⟩
  | _ => exact absurd touched Bool.false_ne_true

theorem exec_floor {c : Instr} {s s' : State} (other : c ≠ .strCommandDone) (done : exec c s = .next s') :
    s'.otp.floor = s.otp.floor := by
  cases touched : c.touches.contains .otp with
  | false => exact (exec_within done).floor_eq touched
  | true =>
    obtain rfl | ⟨mgrSel, pkgId, rfl⟩ := touches_otp touched
    · exact absurd rfl other
    · cases done
      exact packageStart_floor ..

theorem step_floor {s s' : State} (run : step s = .next s') : s'.otp.floor = s.otp.floor ∨
    s.pending.head? = some .strCommandDone ∧ s.str.run = some (3, false) ∧ imageActive s ∧
      s'.otp.floor = Nat.max s.otp.floor (slotRecords s (activeSlot s)).secVer := by
  rcases step_cases run with ⟨_, rfl⟩ | ⟨c, rest, front, done⟩
  · exact .inl (crystalTick_within.floor_eq rfl)
  · by_cases ends : c = .strCommandDone
    · subst ends
      cases done
      exact (strDone_floor { s with pending := rest }).imp id fun raised => ⟨by rw [front]; rfl, raised⟩
    · exact .inl (exec_floor (s := { s with pending := rest }) ends done)

/-! ## The floor in the verification of an image (R45, R46) -/

/-- The floor is asked last: an image accepted with a floor of 0 meets no other bar. -/
theorem verifyImage_floor {img : List Byte} {tiles : Nat} {key : Option (BitVec 256)} {x : Image}
    (passes : (verifyImage img tiles 0 key).1.toOption = some x) : ∃ ents, ∀ floor, verifyImage img tiles floor key =
      if x.secVer < floor then (.error strRollback, ents) else (.ok x, ents) := by
  revert passes
  unfold verifyImage
  cases headerResult img tiles with
  | some c => exact nofun
  | none =>
    cases signatureResult img key with
    | some c => exact nofun
    | none =>
      by_cases crc : (dirOf img).any (fun d => (crc32c (bytesAt img d.off d.len)).toNat != d.crc) = true
      · simp only [crc, if_true]
        exact nofun
      · simp only [crc]
        cases structureResult img (dirOf img) with
        | some c => exact nofun
        | none =>
          cases rulesResult (readImage img (dirOf img) tiles).1 img (dirOf img) tiles with
          | some c => exact nofun
          | none =>
            rintro ⟨⟩
            exact ⟨_, fun floor => rfl⟩

/-- Settles O27: what each step does to the floor, what the end of a COMMIT_FLOOR does, and what the floor is to an image's
verification. -/
theorem floorChangesOnlyByCommit : Obligations.FloorChangesOnlyByCommit := by
  unfold Obligations.FloorChangesOnlyByCommit
  refine ⟨fun s s' run => ?_, fun s run active => ?_, fun img tiles floor key x passes => ?_⟩
  · obtain ⟨q, keeps⟩ := step_keeps run
    exact ⟨keeps.floor, step_floor run⟩
  · refine ⟨_, rfl, ?_⟩
    rw [strDone_free run]
    have commit : strRun s 3 = _ := strFloor_active active
    rw [commit]
    refine ⟨rfl, ?_, strEnd_result _ _⟩
    rw [strEnd_regsBut _ _ _ _ (by decide) (by unfold at_; decide), rreg_wreg_same, strEnd_otp]
    rfl
  · obtain ⟨ents, result⟩ := verifyImage_floor passes
    rw [result floor]
    refine ⟨fun ok => ?_, fun low => ⟨ents, if_pos low⟩⟩
    rw [if_neg (by omega)]
    rfl

end Sys2Proof.Laws

namespace Sys2Proof.Laws

open Sys2Proof Sys2Proof.Machine

/-! ## A field changed in a register -/

theorem setFld_bitsBut (w : Word) (lo n v : Nat) : BitsBut lo n w (setFld w lo n v) := by
  intro i outside
  by_cases hi : i < 32
  · rw [setFld_bit _ _ _ _ _ hi, if_neg (by omega)]
  · rw [BitVec.getLsbD_of_ge _ _ (by omega), BitVec.getLsbD_of_ge _ _ (by omega)]

theorem sf_regsBut {p : Nat → Nat → Prop} {s : State} {t off : Nat} (lo n v : Nat) (lt : off < 0x10000000) (hp : p t off) :
    RegsBut p s (sf s t off lo n v) := wreg_regsBut _ lt hp

/-! ## A command that is one access to a register (R72, R88) -/

theorem regRow_of_reaches {s : State} {t off : Nat} (f : State → State) (reaches : Reaches s t off) : regRow s t off f = f s := by
  obtain ⟨_, runs, opened, answers, clear⟩ := reaches
  have crossed : crossAll s t (blockDomain (off / 0x1000000)) = s := by rw [crossAll, clear]; rfl
  have heard : (portsClosed s t && !recoveryShape s) = false := by
    rcases opened with opened | shape
    · simp [opened]
    · simp [shape]
  simp [regRow, busReach, runs, heard, answers, crossed]

/-! ## The image commands start (R47, R48) -/

theorem strCmd_busy {s : State} (cmd : Nat) (busy : s.str.run.isSome = true) : strCmd s cmd = s := if_pos busy

/-- What the taking of a command leaves: its code in STR_CMD, the command running, BUSY. -/
def strTaken (s : State) (cmd : Nat) : State :=
  sf { wreg s 0 0xA000004 (word cmd) with
    str := { s.str with run := some (cmd, decide (gf s 0 0xA000000 5 1 = 1 ∧ cmd ∈ [1, 2, 4, 5])) } } 0 0xA000000 4 1 1

theorem strCmd_idle {s : State} {cmd : Nat} (idle : s.str.run = none) (known : cmd ∈ [1, 2, 3, 4, 5, 6]) :
    strCmd s cmd = strTaken s cmd := by
  have pending : gf (wreg s 0 0xA000004 (word cmd)) 0 0xA000000 5 1 = gf s 0 0xA000000 5 1 := by
    rw [gf, rreg_wreg_other _ _ (key_ne (by decide) (by decide) (by decide)), gf]
  have code : ¬ (cmd = 0 ∨ 6 < cmd) := by
    simp only [List.mem_cons, List.not_mem_nil, or_false] at known
    omega
  simp [strCmd, idle, code, pending, strTaken]

theorem strTaken_regsBut (s : State) (cmd : Nat) : RegsBut (ats 0 [0xA000000, 0xA000004]) s (strTaken s cmd) :=
  .trans (wreg_regsBut (word cmd) (by decide) ⟨rfl, by decide⟩) (.trans (.of_regs rfl) (sf_regsBut 4 1 1 (by decide) ⟨rfl, by decide⟩))

theorem strTaken_status (s : State) (cmd : Nat) : rreg (strTaken s cmd) 0 0xA000000 = setFld (rreg s 0 0xA000000) 4 1 1 := by
  have before : rreg (wreg s 0 0xA000004 (word cmd)) 0 0xA000000 = rreg s 0 0xA000000 :=
    rreg_wreg_other _ _ (key_ne (by decide) (by decide) (by decide))
  rw [strTaken, rreg_sf_same, ← before]
  rfl

theorem strTaken_code (s : State) (cmd : Nat) : rreg (strTaken s cmd) 0 0xA000004 = word cmd := by
  rw [strTaken, rreg_sf_other _ _ _ _ (key_ne (by decide) (by decide) (by decide))]
  exact rreg_wreg_same ..

/-- The six commands are the writes of their codes to STR_CMD. -/
theorem exec_imageCommand {c : Instr} {code : Nat}
    (one : (c, code) ∈ [(Instr.verify, 1), (.activate, 2), (.commitFloor, 3), (.enrol, 4), (.eraseInactive, 5), (.refreshFlash, 6)])
    {s : State} (reaches : Reaches s 0 0xA000004) : exec c s = .next (strCmd s code) ∧ code ∈ [1, 2, 3, 4, 5, 6] := by
  have written : regRow s 0 0xA000004 (fun s => strCmd s code) = strCmd s code := regRow_of_reaches _ reaches
  rw [← written]
  simp only [List.mem_cons, Prod.mk.injEq, List.not_mem_nil, or_false] at one
  rcases one with ⟨rfl, rfl⟩ | ⟨rfl, rfl⟩ | ⟨rfl, rfl⟩ | ⟨rfl, rfl⟩ | ⟨rfl, rfl⟩ | ⟨rfl, rfl⟩ <;> exact ⟨rfl, by decide⟩

/-- Settles O25: each of the six is the write of its code to STR_CMD, which is ignored while BUSY and taken otherwise. -/
theorem imageCommandsStart : Obligations.ImageCommandsStart := by
  intro s c code reaches one
  obtain ⟨done, known⟩ := exec_imageCommand one reaches
  refine ⟨fun busy => by rw [done, strCmd_busy code busy], fun idle => ?_⟩
  have taken := strCmd_idle idle known
  refine ⟨_, done, ?_⟩
  have same : Same [.regs, .str] s (strCmd s code) := strCmd_within.same
  rw [taken] at same ⊢
  refine ⟨rfl, strTaken_code s code, ?_, ?_, strTaken_regsBut s code, same⟩
  · rw [gf, strTaken_status]
    exact fld_setFld_same _ _ _ _ (by decide)
  · rw [strTaken_status]
    exact setFld_bitsBut _ 4 1 1

/-! ## Bytes of merged words (R75) -/

theorem beMask_bit : ∀ (be : BitVec 4) (i : Nat), i < 32 → (beMask be).getLsbD i = be.getLsbD (i / 8) := by decide

theorem byteOf_mergeBytes (old : Word) (be : BitVec 4) (v : Word) {k : Nat} (lt : k < 4) :
    byteOf (mergeBytes old be v) k = if be.getLsbD k then byteOf v k else byteOf old k := by
  apply BitVec.eq_of_getLsbD_eq
  intro i hi
  have mask : (beMask be).getLsbD (8 * k + i) = be.getLsbD k := by
    rw [beMask_bit _ _ (by omega)]
    congr 1
    omega
  have inWord : 8 * k + i < 32 := by omega
  simp only [byteOf, mergeBytes, apply_ite (fun b : BitVec 8 => b.getLsbD i), BitVec.getLsbD_extractLsb', BitVec.getLsbD_or,
    BitVec.getLsbD_and, BitVec.getLsbD_not, mask]
  cases be.getLsbD k <;> simp [hi, inWord]

theorem byteOf_leNat (a b c d : Byte) {k : Nat} (lt : k < 4) : byteOf (word (leNat [a, b, c, d])) k = [a, b, c, d].getD k 0 := by
  have ha := a.isLt
  have hb := b.isLt
  have hc := c.isLt
  have hd := d.isLt
  apply BitVec.eq_of_toNat_eq
  simp only [byteOf, BitVec.extractLsb'_toNat, BitVec.toNat_ofNat, Nat.shiftRight_eq_div_pow, leNat]
  match k, lt with
  | 0, _ => simp; omega
  | 1, _ => simp; omega
  | 2, _ => simp; omega
  | 3, _ => simp; omega

theorem wordBytes_getD (w : Word) (d : Byte) {k : Nat} (lt : k < 4) : (wordBytes w).getD k d = byteOf w k := by
  match k, lt with
  | 0, _ | 1, _ | 2, _ | 3, _ => rfl

/-! ## Runs of memory -/

@[simp] theorem readN_length (d : Byte) (m : List Host.Cell) (a n : Nat) : (Mem.readN d m a n).length = n := by
  induction n generalizing a with
  | zero => rfl
  | succ n ih => simp [Mem.readN, ih]

theorem readN_getD (d d' : Byte) (m : List Host.Cell) (a : Nat) {n k : Nat} (lt : k < n) :
    (Mem.readN d m a n).getD k d' = Mem.read d m (a + k) := by
  induction n generalizing a k with
  | zero => omega
  | succ n ih =>
    cases k with
    | zero => rfl
    | succ k =>
      rw [Mem.readN, List.getD_cons_succ, ih _ (by omega)]
      congr 1
      omega

theorem readN_take (d : Byte) (m : List Host.Cell) (a : Nat) {n k : Nat} (le : k ≤ n) :
    (Mem.readN d m a n).take k = Mem.readN d m a k := by
  induction n generalizing a k with
  | zero =>
    obtain rfl : k = 0 := by omega
    rfl
  | succ n ih =>
    cases k with
    | zero => rfl
    | succ k => rw [Mem.readN, List.take_succ_cons, ih _ (by omega), Mem.readN]

theorem read_filter (p : Nat → Bool) (d : Byte) (m : List Host.Cell) (a : Nat) :
    Mem.read d (m.filter (fun c => p c.1)) a = if p a then Mem.read d m a else d := by
  unfold Mem.read Tbl.get
  rw [find_filter]
  split <;> rfl

theorem slotRead_length (s : State) (slot n : Nat) : (slotRead s slot n).length = n := readN_length ..

theorem slotRead_getD (s : State) (slot : Nat) (d : Byte) {n k : Nat} (lt : k < n) :
    (slotRead s slot n).getD k d = Mem.read mramDefault s.mem.mram (slot * 0x200000 + k) := by
  rw [slotRead, mramRead, readN_getD _ _ _ _ lt, Nat.add_zero]

theorem slotRead_take (s : State) (slot : Nat) {n k : Nat} (le : k ≤ n) : (slotRead s slot n).take k = slotRead s slot k :=
  readN_take _ _ _ le

/-! ## STR_IMG_DATA (R47, R48) -/

/-- The bytes of a word at `a` in a slot, with the enabled bytes of a write in them. -/
def slotWord (s : State) (slot a : Nat) (be : BitVec 4) (v : Word) : List Byte :=
  wordBytes (mergeBytes (word (leNat (mramRead s slot a 4))) be v)

theorem slotWord_getD (s : State) (slot a : Nat) (be : BitVec 4) (v : Word) {k : Nat} (lt : k < 4) :
    (slotWord s slot a be v).getD k mramDefault =
      if be.getLsbD k then byteOf v k else Mem.read mramDefault s.mem.mram (slot * 0x200000 + a + k) := by
  have old : byteOf (word (leNat (mramRead s slot a 4))) k = Mem.read mramDefault s.mem.mram (slot * 0x200000 + a + k) := by
    rw [← readN_getD mramDefault 0 _ _ lt]
    exact byteOf_leNat _ _ _ _ lt
  rw [slotWord, wordBytes_getD _ _ lt, byteOf_mergeBytes _ _ _ lt, old]

/-- A byte of MRAM after the word is written: the enabled ones are the write's, every other is as before. -/
theorem read_slotWord (s : State) (slot a : Nat) (be : BitVec 4) (v : Word) (x : Nat) :
    Mem.read mramDefault (mramWrite s slot a (slotWord s slot a be v)).mem.mram x =
      if slot * 0x200000 + a ≤ x ∧ x < slot * 0x200000 + a + 4 ∧ be.getLsbD (x - (slot * 0x200000 + a)) = true then
        byteOf v (x - (slot * 0x200000 + a))
      else Mem.read mramDefault s.mem.mram x := by
  have four : (slotWord s slot a be v).length = 4 := rfl
  by_cases within : slot * 0x200000 + a ≤ x ∧ x < slot * 0x200000 + a + 4
  · obtain ⟨lo, hi⟩ := within
    show Mem.read mramDefault (Mem.writeN mramDefault _ _ _) x = _
    rw [read_writeN_in _ _ _ _ lo (by omega), slotWord_getD _ _ _ _ _ (by omega), Nat.add_sub_cancel' lo]
    simp only [lo, hi, true_and]
  · show Mem.read mramDefault (Mem.writeN mramDefault _ _ _) x = _
    rw [read_writeN_out _ _ _ _ (by omega), if_neg (fun inside => within ⟨inside.1, inside.2.1⟩)]

/-- The slot takes the word outside PENDING and within its 1 MiB. -/
abbrev imgOpen (s : State) : Prop := gf s 0 0xA000000 5 1 = 0 ∧ (rreg s 0 0xA000020).toNat < slotBytes

theorem imgWrite_closed {s : State} (be : BitVec 4) (v : Word) (closed : ¬ imgOpen s) :
    imgWrite s be v = wreg s 0 0xA000020 (rreg s 0 0xA000020 + 4) := by
  have no : gf s 0 0xA000000 5 1 = 1 ∨ slotBytes ≤ (rreg s 0 0xA000020).toNat := by
    rcases gf_one_bit s 0 0xA000000 5 with free | pending
    · exact .inr (Nat.le_of_not_lt fun lt => closed ⟨free, lt⟩)
    · exact .inl pending
  simp [imgWrite, no, BitVec.ofNat_add]

theorem imgWrite_open {s : State} (be : BitVec 4) (v : Word) (opened : imgOpen s) :
    imgWrite s be v = wreg (unverify (mramWrite s (1 - activeSlot s) (rreg s 0 0xA000020).toNat
      (slotWord s (1 - activeSlot s) (rreg s 0 0xA000020).toNat be v))) 0 0xA000020 (rreg s 0 0xA000020 + 4) := by
  obtain ⟨free, lt⟩ := opened
  have yes : ¬ (gf s 0 0xA000000 5 1 = 1 ∨ slotBytes ≤ (rreg s 0 0xA000020).toNat) := by omega
  simp [imgWrite, yes, BitVec.ofNat_add, slotWord]

/-- The same whether or not the slot takes the word: STR_IMG_ADDR advances, and of STR_STATUS only VERIFIED may clear. -/
theorem imgWrite_registers (s : State) (be : BitVec 4) (v : Word) :
    rreg (imgWrite s be v) 0 0xA000020 = rreg s 0 0xA000020 + 4 ∧
    BitsBut 1 1 (rreg s 0 0xA000000) (rreg (imgWrite s be v) 0 0xA000000) ∧
    RegsBut (ats 0 [0xA000000, 0xA000020]) s (imgWrite s be v) := by
  have address : ∀ s1 w, RegsBut (ats 0 [0xA000000, 0xA000020]) s1 (wreg s1 0 0xA000020 w) :=
    fun s1 w => wreg_regsBut w (by decide) ⟨rfl, by decide⟩
  have status : ∀ s1 w, rreg (wreg s1 0 0xA000020 w) 0 0xA000000 = rreg s1 0 0xA000000 :=
    fun s1 w => rreg_wreg_other _ _ (key_ne (by decide) (by decide) (by decide))
  by_cases opened : imgOpen s
  · rw [imgWrite_open be v opened, status]
    refine ⟨rreg_wreg_same .., ?_, .trans (.of_regs rfl) (.trans (sf_regsBut 1 1 0 (by decide) ⟨rfl, by decide⟩) (address _ _))⟩
    rw [unverify, rreg_sf_same]
    exact setFld_bitsBut _ 1 1 0
  · rw [imgWrite_closed be v opened, status]
    exact ⟨rreg_wreg_same .., fun _ _ => rfl, address _ _⟩

theorem imgWrite_verified {s : State} (be : BitVec 4) (v : Word) (opened : imgOpen s) : gf (imgWrite s be v) 0 0xA000000 1 1 = 0 := by
  rw [imgWrite_open be v opened, gf, rreg_wreg_other _ _ (key_ne (by decide) (by decide) (by decide))]
  exact gf_sf_same _ _ _ _ _ _ (by decide)

theorem imgWrite_flash (s : State) (be : BitVec 4) (v : Word) : (imgWrite s be v).mem.flash = s.mem.flash := by
  by_cases opened : imgOpen s
  · rw [imgWrite_open be v opened]; rfl
  · rw [imgWrite_closed be v opened]; rfl

theorem imgWrite_mram (s : State) (be : BitVec 4) (v : Word) (x : Nat) :
    let base := (1 - activeSlot s) * 0x200000 + (rreg s 0 0xA000020).toNat
    Mem.read mramDefault (imgWrite s be v).mem.mram x =
      if imgOpen s ∧ base ≤ x ∧ x < base + 4 ∧ be.getLsbD (x - base) = true then byteOf v (x - base)
      else Mem.read mramDefault s.mem.mram x := by
  by_cases opened : imgOpen s
  · rw [imgWrite_open be v opened]
    simp only [eq_true opened, true_and]
    exact read_slotWord ..
  · rw [imgWrite_closed be v opened]
    simp only [eq_false opened, false_and, if_false]
    rfl

/-! ## Flash copies (R44, R48) -/

theorem copyDone_idle {s : State} (idle : s.str.copies = []) : copyDone s = s := by simp only [copyDone, idle]

theorem copyDone_running {s : State} {slot : Nat} {rest : List Nat} (running : s.str.copies = slot :: rest) :
    copyDone s = sf (flashWrite { s with str := { s.str with copies := rest } } (flashSlot slot) (slotRead s slot slotBytes))
      0 0xA000000 7 1 (b2n (!rest.isEmpty)) := by
  simp only [copyDone, running]

/-- A byte of flash after a slot is copied there. -/
theorem read_flashSlot (s : State) (slot : Nat) (a : Nat) :
    Mem.read flashDefault (flashWrite s (flashSlot slot) (slotRead s slot slotBytes)).mem.flash a =
      if flashSlot slot ≤ a ∧ a < flashSlot slot + slotBytes then
        Mem.read mramDefault s.mem.mram (slot * 0x200000 + (a - flashSlot slot))
      else Mem.read flashDefault s.mem.flash a := by
  have size := slotRead_length s slot slotBytes
  show Mem.read flashDefault (Mem.writeN flashDefault _ _ _) a = _
  split
  case isTrue inside => rw [read_writeN_in _ _ _ _ inside.1 (by omega), slotRead_getD _ _ _ (by omega)]
  case isFalse outside => exact read_writeN_out _ _ _ _ (by omega)

section
variable {s : State} {slot : Nat} {rest : List Nat} (running : s.str.copies = slot :: rest)
include running

theorem copyDone_copies : (copyDone s).str.copies = rest := by rw [copyDone_running running]; rfl

theorem copyDone_mem : (copyDone s).mem = (flashWrite s (flashSlot slot) (slotRead s slot slotBytes)).mem := by
  rw [copyDone_running running]
  rfl

theorem copyDone_busy : gf (copyDone s) 0 0xA000000 7 1 = if rest = [] then 0 else 1 := by
  rw [copyDone_running running, gf_sf_same _ _ _ _ _ _ (by decide)]
  cases rest <;> rfl

theorem copyDone_regsBut : RegsBut (at_ 0 0xA000000) s (copyDone s) := by
  rw [copyDone_running running]
  exact .trans (.of_regs rfl) (sf_regsBut 7 1 _ (by decide) ⟨rfl, rfl⟩)

end

/-- Settles O28: the write of STR_IMG_DATA by whether the slot takes the word, and the end of a copy by whether one runs. -/
theorem slotWritesAndCopies : Obligations.SlotWritesAndCopies := by
  unfold Obligations.SlotWritesAndCopies
  refine ⟨fun s be v reaches => ?_, fun s => ⟨fun idle => ?_, fun slot rest running => ?_⟩⟩
  · obtain ⟨address, status, others⟩ := imgWrite_registers s be v
    have done : exec (.strImgDataWrite be v) s = .next (imgWrite s be v) := congrArg Host.Outcome.next (regRow_of_reaches _ reaches)
    exact ⟨_, done, address, imgWrite_flash s be v, imgWrite_mram s be v, imgWrite_verified be v, status, others,
      imgWrite_within.same⟩
  · exact congrArg Host.Outcome.next (copyDone_idle idle)
  · have mem := copyDone_mem running
    refine ⟨_, rfl, copyDone_copies running, copyDone_busy running, by rw [mem]; rfl, fun a => ?_, copyDone_regsBut running,
      copyDone_within.same⟩
    rw [mem]
    exact read_flashSlot s slot a

end Sys2Proof.Laws

namespace Sys2Proof.Laws

open Sys2Proof Sys2Proof.Machine

/-! ## What each command of the image controller does (R43, R46, R48, R49) -/

theorem strVerify_ok {s : State} {x : Image}
    (passes : (verifyImage (slotImage s (1 - activeSlot s)) s.part.tiles s.otp.floor s.otp.keyHash).1 = .ok x) :
    ∃ s1, strVerify s = (sf s1 0 0xA000000 1 1 1, 0) := by
  unfold strVerify
  extract_lets img r shown
  have result : r.1 = .ok x := passes
  rw [result]
  exact ⟨shown, rfl⟩

theorem strVerify_error {s : State} {c : Nat}
    (fails : (verifyImage (slotImage s (1 - activeSlot s)) s.part.tiles s.otp.floor s.otp.keyHash).1 = .error c) :
    ∃ s1, strVerify s = (sf s1 0 0xA000000 1 1 0, c) := by
  unfold strVerify
  extract_lets img r shown
  have result : r.1 = .error c := fails
  rw [result]
  exact ⟨shown, rfl⟩

theorem startCopy_copying (s : State) (slot : Nat) : gf (startCopy s slot) 0 0xA000000 7 1 = 1 :=
  gf_sf_same _ _ _ _ _ _ (by decide)

theorem startCopy_verified (s : State) (slot : Nat) : gf (startCopy s slot) 0 0xA000000 1 1 = gf s 0 0xA000000 1 1 := by
  rw [startCopy, gf_sf_field _ _ _ _ _ _ _ _ (by decide) (by decide)]
  exact gf_congr rfl ..

theorem pendingRefresh_verified (s : State) : gf (pendingRefresh s) 0 0xA000000 1 1 = gf s 0 0xA000000 1 1 :=
  gf_sf_field _ _ _ _ _ _ _ _ (by decide) (by decide)

/-- An enrolment record that ENROL takes: its own fields, its signature, and the root key's hash (R43). -/
def enrolGood (s : State) : Prop :=
  let body := slotRead s (1 - activeSlot s) 64
  let sig := bytesAt (slotRead s (1 - activeSlot s) 848) 64 784
  leAt body 0 4 = 0x4D5A454E ∧ leAt body 4 4 = 1 ∧ sigOk sig body = true ∧ leAt sig 4 4 = 2 ∧ keyHashOf sig = s.core.fuses.rootHash

theorem strEnrol_enrolled {s : State} (done : s.otp.keyHash.isSome = true) : strEnrol s = (s, 9) := if_pos done

theorem strEnrol_good {s : State} (free : s.otp.keyHash = none) (good : enrolGood s) :
    strEnrol s = (sf { s with otp := { s.otp with
      keyHash := some (BitVec.ofNat 256 (beNat (bytesAt (slotRead s (1 - activeSlot s) 64) 16 32)))
      makerId := leAt (slotRead s (1 - activeSlot s) 64) 8 4 } } 0 0xA000000 2 1 1, 0) := by
  obtain ⟨magic, format, signed, kind, root⟩ := good
  unfold strEnrol
  extract_lets rec_ body sig otp enrolled
  have read : body = slotRead s (1 - activeSlot s) 64 := slotRead_take s _ (by decide)
  rw [← read] at magic format signed ⊢
  have unenrolled : ¬ s.otp.keyHash.isSome = true := by simp [free]
  have verified : ¬ sigOk sig body = false := fun no => Bool.false_ne_true (no.symm.trans signed)
  rw [if_neg unenrolled, if_neg (fun no => no.elim (absurd magic) (absurd format)), if_neg verified,
    if_neg (fun no => no.elim (absurd kind) (absurd root))]

theorem strEnrol_bad {s : State} (free : s.otp.keyHash = none) (bad : ¬ enrolGood s) :
    ∃ code ∈ [1, 2, 3], strEnrol s = (s, code) := by
  unfold strEnrol
  extract_lets rec_ body sig
  have read : body = slotRead s (1 - activeSlot s) 64 := slotRead_take s _ (by decide)
  rw [if_neg (by simp [free])]
  by_cases header : leAt body 0 4 ≠ 0x4D5A454E ∨ leAt body 4 4 ≠ 1
  · exact ⟨1, by decide, if_pos header⟩
  rw [if_neg header]
  by_cases unsigned : sigOk sig body = false
  · exact ⟨2, by decide, if_pos unsigned⟩
  rw [if_neg unsigned]
  by_cases other : leAt sig 4 4 ≠ 2 ∨ keyHashOf sig ≠ s.core.fuses.rootHash
  · exact ⟨3, by decide, if_pos other⟩
  obtain ⟨magic, format⟩ := not_or.1 header
  obtain ⟨kind, root⟩ := not_or.1 other
  rw [read] at magic format unsigned
  exact absurd ⟨Decidable.not_not.1 magic, Decidable.not_not.1 format, eq_true_of_ne_false unsigned,
    Decidable.not_not.1 kind, Decidable.not_not.1 root⟩ bad

/-- The MRAM bytes that an erase of a run from `b` keeps. -/
def outsideSlot (b a : Nat) : Bool := a < b || b + slotBytes ≤ a

theorem strErase_mram (s : State) (a : Nat) : Mem.read mramDefault (strErase s).1.mem.mram a =
    if (1 - activeSlot s) * 0x200000 ≤ a ∧ a < (1 - activeSlot s) * 0x200000 + slotBytes then mramDefault
    else Mem.read mramDefault s.mem.mram a := by
  have kept : (strErase s).1.mem.mram = s.mem.mram.filter (fun c => outsideSlot ((1 - activeSlot s) * 0x200000) c.1) := rfl
  rw [kept, read_filter]
  generalize (1 - activeSlot s) * 0x200000 = b
  by_cases inside : b ≤ a ∧ a < b + slotBytes
  · have gone : outsideSlot b a = false := by
      rw [outsideSlot, Bool.or_eq_false_iff, decide_eq_false_iff_not, decide_eq_false_iff_not]
      omega
    simp [inside, gone]
  · have stays : outsideSlot b a = true := by
      rw [outsideSlot, Bool.or_eq_true, decide_eq_true_eq, decide_eq_true_eq]
      omega
    simp only [inside, stays, if_true, if_false]

theorem strErase_verified (s : State) : gf (strErase s).1 0 0xA000000 1 1 = 0 := gf_sf_same _ _ _ _ _ _ (by decide)

theorem strEnd_verified (s : State) (code : Nat) : gf (strEnd s code) 0 0xA000000 1 1 = gf s 0 0xA000000 1 1 :=
  strEnd_field s code (by decide)

theorem strEnd_enrolled (s : State) (code : Nat) : gf (strEnd s code) 0 0xA000000 2 1 = gf s 0 0xA000000 2 1 :=
  strEnd_field s code (by decide)

theorem strEnd_copying (s : State) (code : Nat) : gf (strEnd s code) 0 0xA000000 7 1 = gf s 0 0xA000000 7 1 :=
  strEnd_field s code (by decide)

/-- Settles O26: what `strEnd` shows of the code that each command's work answers. -/
theorem imageCommandsEnd : Obligations.ImageCommandsEnd := by
  unfold Obligations.ImageCommandsEnd
  refine fun s => ⟨fun idle => congrArg Host.Outcome.next (strDone_idle idle), fun cmd blocked run => ⟨_, rfl, ?_⟩⟩
  cases blocked with
  | true =>
    rw [strDone_blocked run]
    exact ⟨rfl, strEnd_busy .., fun _ => ⟨strEnd_result .., rfl, rfl, rfl, strEnd_regsBut _ _⟩, nofun⟩
  | false =>
    rw [strDone_free run]
    refine ⟨rfl, strEnd_busy .., nofun, fun _ => ⟨?verify, ?unverified, ?activate, ?enrolled, ?enrol, ?erase, ?refresh⟩⟩
    case verify =>
      rintro rfl
      have ran : strRun s 1 = strVerify s := rfl
      have mem : (strVerify s).1.mem = s.mem := strVerify_within.same .mem rfl
      rw [ran, strEnd_otp, strEnd_mem, strEnd_verified, strEnd_result]
      refine ⟨strVerify_within.otp_eq rfl, mem, ?_⟩
      cases result : (verifyImage (slotImage s (1 - activeSlot s)) s.part.tiles s.otp.floor s.otp.keyHash).1 with
      | ok x =>
        obtain ⟨s1, done⟩ := strVerify_ok result
        rw [done]
        exact ⟨gf_sf_same _ _ _ _ _ _ (by decide), rfl⟩
      | error c =>
        obtain ⟨s1, done⟩ := strVerify_error result
        rw [done]
        exact ⟨gf_sf_same _ _ _ _ _ _ (by decide), rfl⟩
    case unverified =>
      rintro rfl no
      have ran : strRun s 2 = (s, 10) := strActivate_unverified no
      rw [ran]
      exact ⟨strEnd_result .., rfl, rfl⟩
    case activate =>
      rintro rfl yes
      obtain ⟨s1, done, otp, str, unverified⟩ := strActivate_verified yes
      have mem : (strActivate s).1.mem = s.mem := strActivate_within.same .mem rfl
      have ran : strRun s 2 = strActivate s := rfl
      rw [ran, strEnd_mem, mem, done, strEnd_otp, strEnd_verified, strEnd_copying, strEnd_copies, startCopy_copying,
        startCopy_verified, pendingRefresh_verified]
      exact ⟨otp, strEnd_result .., unverified, rfl, by rw [← str]; rfl, rfl⟩
    case enrolled =>
      rintro rfl enrolled
      have ran : strRun s 4 = (s, 9) := strEnrol_enrolled enrolled
      rw [ran]
      exact ⟨strEnd_result .., rfl, rfl⟩
    case enrol =>
      rintro rfl free body sig good
      have ran : strRun s 4 = strEnrol s := rfl
      have mem : (strEnrol s).1.mem = s.mem := strEnrol_within.same .mem rfl
      by_cases fit : enrolGood s
      · rw [ran, strEnrol_good free fit]
        exact ⟨rfl, rfl, rfl, fun _ => ⟨strEnd_result .., (strEnd_enrolled ..).trans (gf_sf_same _ _ _ _ _ _ (by decide)), rfl⟩,
          absurd fit⟩
      · obtain ⟨code, one, done⟩ := strEnrol_bad free fit
        rw [ran, done, strEnd_result, strEnd_otp, strEnd_mem]
        refine ⟨rfl, rfl, rfl, fun no => absurd no fit, fun _ => ⟨?_, rfl⟩⟩
        rwa [Nat.mod_eq_of_lt]
        simp only [List.mem_cons, List.not_mem_nil, or_false] at one
        omega
    case erase =>
      rintro rfl
      have ran : strRun s 5 = strErase s := rfl
      rw [ran, strEnd_mem, strEnd_otp, strEnd_verified, strErase_verified]
      exact ⟨strEnd_result .., rfl, rfl, rfl, strErase_mram s⟩
    case refresh =>
      rintro rfl
      have ran : strRun s 6 = (startCopy (startCopy s 0) 1, 0) := rfl
      rw [ran, strEnd_copying, startCopy_copying]
      exact ⟨strEnd_result .., rfl, List.append_assoc .., rfl, rfl⟩

end Sys2Proof.Laws
